-- ==== Sys2Proof/Word.lean ====
section
/-! DEFINITION. The words of the F8 (R1, R42) and the register numbers (R25). -/

namespace Sys2Proof

/-- A 32-bit register, one lane's copy. -/
abbrev Word := BitVec 32

/-- A 64-bit value, pointer or `clk` count. -/
abbrev DWord := BitVec 64

/-- A byte of memory. -/
abbrev Byte := BitVec 8

/-- A register field: 9 bits (R25). -/
abbrev RegNo := BitVec 9

end Sys2Proof
end

