-- ==== Sys2Proof/Syntax.lean ====
section
/-! DEFINITION. The syntax of the F8: every row of the table of operations and events is one constructor of `Instr`.
The rows with a word (R15-R41) carry the fields of that word; an event carries none: what it brings stands beside it in
a `Task`, and in the state while the event takes place. -/

namespace Sys2Proof

/-- The guard of a single word (R16, R19): enable, negate, register or predicate number. -/
structure Guard where
  en : Bool
  neg : Bool
  reg : BitVec 4
  deriving DecidableEq, Repr

/-- The guard of an unguarded word (R19). -/
def Guard.none : Guard := ⟨false, false, 0⟩

/-- Conditions of ICMP and icmpi (R187). -/
inductive Cond where
  | eq | ne | ltI | leI | gtI | geI | ltN | leN | gtN | geN
  deriving DecidableEq, Repr

/-- Conditions of FCMP (R224). -/
inductive FCond where
  | eq | ne | lt | le | gt | ge | un | ord
  deriving DecidableEq, Repr

/-- How a compare combines with C (R187). -/
inductive Comb where
  | none | and | or | xor
  deriving DecidableEq, Repr

/-- Element formats of DOT (R229). -/
inductive DotFmt where
  | bf16 | f16 | i8 | n8 | e4m3 | e5m2 | i4 | n4 | e2m1
  deriving DecidableEq, Repr

/-- Formats of QPK, QUPK and MXSC (R231-R233). -/
inductive QFmt where
  | e4m3 | e5m2 | e2m1 | i8
  deriving DecidableEq, Repr

/-- Kinds of SHFL (R210). -/
inductive ShflKind where
  | idx | up | dn | xor
  deriving DecidableEq, Repr

/-- What SHFL does with a source outside the segment (R210). -/
inductive ShflFate where
  | own | zero | wrap | clamp
  deriving DecidableEq, Repr

/-- Operations of LRED and LSCAN (R212). -/
inductive LaneOp where
  | addI | minI | maxI | minN | maxN | and | or | xor | fadd | fmax | fmin
  deriving DecidableEq, Repr

/-- Access sizes of the M format (R31). -/
inductive Sz where
  | i8 | n8 | i16 | n16 | w | d | q
  deriving DecidableEq, Repr

/-- Operations of the atomic layout (R31). -/
inductive Aop where
  | add | minI | maxI | minN | maxN | and | or | xor | xchg | cas | faddF32 | faddBf16 | fminF32 | fmaxF32 | minN64
  deriving DecidableEq, Repr

/-- Reductions of cpt (R132). -/
inductive TileOp where
  | none | add | min | max | and | or | xor
  deriving DecidableEq, Repr

/-- Slot operations of a pair word (R22). -/
inductive PairOp where
  | add | sub | and | or | xor | shl | shr | sra | minI | maxI | minN | maxN | mov | fadd | fmul | fmin | fmax
  deriving DecidableEq, Repr

/-- One slot of a pair word (R21): operation, destination and first source, second source or immediate. -/
structure PairSlot where
  op : PairOp
  d : RegNo
  b : RegNo
  imm : Bool
  deriving DecidableEq, Repr

/-- Who sent a message: SRC, WAVE and TAG of R142, with what the deferred-fault record needs (R341). -/
structure Issuer where
  /-- physical core word -/
  core : Nat
  /-- wave slot, or climber slot -/
  slot : Nat
  climber : Bool
  split : Nat
  lane : Nat
  pc : Nat
  maj : Nat
  deriving DecidableEq, Repr

/-- The issuer of a message no wave or climber sent: an engine, a hall unit, the arbiter or the host. -/
def Issuer.device : Issuer := ⟨0, 0xFFFF, false, 0, 0, 0, 0⟩

/-- A message (R142), with the fields its kind uses; the others hold their defaults. -/
structure Msg where
  src : Issuer
  /-- memory key of the first byte addressed: a DPA, or a kind-10 pointer -/
  tgt : Nat := 0
  /-- the pointer or VA the program gave -/
  va : DWord := 0
  /-- translation context -/
  ctx : Nat := 0
  /-- key index of the access (R68) -/
  key : Nat := 0
  /-- ordered class (R145) -/
  ordered : Bool := false
  scope : Nat := 0
  sz : Sz := .w
  aop : Aop := .add
  /-- the masked bytes written, by memory key -/
  bytes : List Host.Cell := []
  arg : BitVec 128 := 0
  arg2 : BitVec 128 := 0
  /-- destination registers of the result; of a posted store, the lines of VA it has bytes in -/
  dst : List Nat := []
  /-- number of the copy, treelet, node or lease the message is about -/
  id : Nat := 0
  /-- failure reason (R80), or a status -/
  reason : Nat := 0
  /-- form within the kind -/
  kind : Nat := 0
  imm : Word := 0
  anch : DWord := 0
  /-- where it is executed: a hall, 320 the fabric port, 321-324 the pool ports, 400 + core an NI (R260) -/
  point : Nat := 0
  /-- number of the instruction that sent it (R263) -/
  group : Nat := 0
  /-- `clk` before which it is not sent again (R273, R319) -/
  due : Nat := 0
  /-- the page move whose old home forwarded it (R90) -/
  moved : Nat := 0
  /-- SSEQ, once it has left its source (R147); a reply carries that of the message it answers -/
  sseq : Option Nat := Option.none
  deriving DecidableEq, Repr

/-- Control commands of KIND 0x06 (R143). -/
inductive CtrlCmd where
  | preempt (gid : Nat)
  | seal (core : Nat)
  | frame (lid logical physical : Nat)
  deriving DecidableEq, Repr

/-- What a copy command does (R130-R133). -/
inductive CopyKind where
  /-- `cp`: bytes in order -/
  | linear
  /-- `cpg`: per active lane, source pointer and destination pointer -/
  | gather (size : Nat) (lanes : List (Nat × Nat))
  /-- `cpt`: operation and the 256 bits of the shape record -/
  | tile (op : TileOp) (shape : BitVec 256)
  /-- `coll`: kind 0-3 and a pointer to the descriptor -/
  | coll (kind : Nat) (desc : DWord)
  deriving DecidableEq, Repr

/-- Where physical pointers into a core lead once the group there has been saved (R129): the bytes from `lo` on are those of
a launch's logical core. -/
structure Redirect where
  core : Nat
  lo : Nat
  len : Nat
  lid : Nat
  lcore : Nat
  deriving DecidableEq, Repr

/-- A command in a copy engine (R115-R118). -/
structure CopyCmd where
  id : Nat
  hall : Nat
  src : Issuer
  ctx : Nat
  priv : Bool
  lid : Nat
  kind : CopyKind
  /-- source and destination pointers, as the program gave them -/
  from_ : DWord
  to_ : DWord
  bytes : Nat
  /-- bytes, groups of lanes or destination lines whose transfer was issued (R116) -/
  issued : Nat := 0
  /-- the landing, as a pointer -/
  landing : Option DWord
  /-- the ordered flag (R118) -/
  ordered : Bool := false
  /-- `.rc`: the header of the ring to commit to, as a pointer -/
  ring : Option DWord := Option.none
  /-- holds a shared queue entry rather than the wave's reserved one (R115) -/
  shared : Bool := false
  /-- the copy stops once its lines in flight are done: bytes done, reason, class and side (R126, R127) -/
  stop : Option (Nat × Nat × Nat × Nat) := Option.none
  /-- the record of a copy node it executes: graph slot × 4096 + node, and the tuple (R323) -/
  tuple : Option (Nat × BitVec 128) := Option.none
  /-- the wave's copies before an ordered one (R118) -/
  after : List Nat := []
  /-- the wave's earlier writes that a `.rc` commit releases (R138), or to the SRC of a collective (R268) -/
  prior : List Nat := []
  /-- a collective that has written its DST: the epoch and live ranks it used, and the bytes received (R368) -/
  written : Option (Nat × List Nat × Nat) := Option.none
  /-- the end of what it has written, in bytes from its start (R127) -/
  high : Nat := 0
  /-- groups saved since it was issued (R129) -/
  moved : List Redirect := []
  deriving DecidableEq, Repr

/-- A submission of a launch record (R301, R306, R309). -/
structure Submission where
  /-- the 1,024 bits of the record -/
  record : BitVec 1024
  va : Nat
  /-- the host ring, or none for a wave -/
  ring : Option Nat
  src : Issuer
  /-- the submitter is privileged -/
  priv : Bool
  ctx : Nat
  /-- bound on the priority -/
  prio : Nat
  /-- number of the instruction that waits for the outcome -/
  id : Nat := 0
  deriving DecidableEq, Repr

/-- Why and where a launch is ended (R352). -/
structure EndReq where
  lid : Nat
  g : Nat
  core : Nat
  slot : Nat
  cause : Nat
  pc : Nat
  faddr : DWord
  reason : Nat
  /-- `clk` of the fault -/
  clk : Nat := 0
  deriving DecidableEq, Repr

/-- What a soft error strikes (R166, R67, R254). -/
inductive ErrTarget where
  | localStore (bankWord : Nat)
  | hallStore (line : Nat)
  | hbm (sector : Nat)
  | matrixArray (core : Nat)
  deriving DecidableEq, Repr

/-- What an event brings with it: the message that arrives, or the numbers its docstring names, in that order, a flag as
0 or 1. -/
inductive Arg where
  | none
  | msg (m : Msg)
  | nums (xs : List Nat)
  | copy (cmd : CopyCmd)
  | submit (sub : Submission)
  | ending (r : EndReq)
  | ctrl (c : CtrlCmd)
  | key (slot : Nat) (value : Option (BitVec 512)) (lock secured : Bool)
  | error (t : ErrTarget) (correctable : Bool)
  deriving DecidableEq, Repr

/-- Every operation and event of the F8, one constructor per row of the opcode table. -/
inductive Instr where
  /-- `ADD` (R179). Adds A and B per active lane, wrapping modulo 2^32. -/
  | add (g : Guard) (d : RegNo) (a : RegNo) (b : RegNo)
  /-- `SUB` (R179). Subtracts B from A per active lane, wrapping. -/
  | sub (g : Guard) (d : RegNo) (a : RegNo) (b : RegNo)
  /-- `ADD_SAT_I32` (R179). Signed saturating add of A and B. -/
  | addSatI32 (g : Guard) (d : RegNo) (a : RegNo) (b : RegNo)
  /-- `SUB_SAT_I32` (R179). Signed saturating subtract. -/
  | subSatI32 (g : Guard) (d : RegNo) (a : RegNo) (b : RegNo)
  /-- `ADD_SAT_N32` (R179). Unsigned saturating add. -/
  | addSatN32 (g : Guard) (d : RegNo) (a : RegNo) (b : RegNo)
  /-- `SUB_SAT_N32` (R179). Unsigned saturating subtract, 0 when negative. -/
  | subSatN32 (g : Guard) (d : RegNo) (a : RegNo) (b : RegNo)
  /-- `ADD_CY` (R179). Adds A, B and carry-in C[0], giving the low 32 bits. -/
  | addCy (g : Guard) (d : RegNo) (a : RegNo) (b : RegNo) (c : RegNo)
  /-- `CY` (R179). Gives the carry-out (0 or 1) of A + B + C[0]. -/
  | cy (g : Guard) (d : RegNo) (a : RegNo) (b : RegNo) (c : RegNo)
  /-- `ADD64` (R179). Adds two 64-bit register pairs modulo 2^64. -/
  | add64 (g : Guard) (d : RegNo) (a : RegNo) (b : RegNo)
  /-- `SUB64` (R179). Subtracts two 64-bit register pairs modulo 2^64. -/
  | sub64 (g : Guard) (d : RegNo) (a : RegNo) (b : RegNo)
  /-- `MUL` (R180). Low 32 bits of A × B. -/
  | mul (g : Guard) (d : RegNo) (a : RegNo) (b : RegNo)
  /-- `MULH_I32` (R180). High 32 bits of the signed 64-bit product. -/
  | mulhI32 (g : Guard) (d : RegNo) (a : RegNo) (b : RegNo)
  /-- `MULH_N32` (R180). High 32 bits of the unsigned 64-bit product. -/
  | mulhN32 (g : Guard) (d : RegNo) (a : RegNo) (b : RegNo)
  /-- `MAD` (R180). A × B + C modulo 2^32. -/
  | mad (g : Guard) (d : RegNo) (a : RegNo) (b : RegNo) (c : RegNo)
  /-- `MULW_I32` (R180). Full signed 64-bit product into a pair. -/
  | mulwI32 (g : Guard) (d : RegNo) (a : RegNo) (b : RegNo)
  /-- `MULW_N32` (R180). Full unsigned 64-bit product into a pair. -/
  | mulwN32 (g : Guard) (d : RegNo) (a : RegNo) (b : RegNo)
  /-- `MADW_N32` (R180). Unsigned widening multiply plus a 64-bit pair C. -/
  | madwN32 (g : Guard) (d : RegNo) (a : RegNo) (b : RegNo) (c : RegNo)
  /-- `MADW_I32` (R180). Signed widening multiply plus a 64-bit pair C. -/
  | madwI32 (g : Guard) (d : RegNo) (a : RegNo) (b : RegNo) (c : RegNo)
  /-- `MIN_I32` (R181). Signed minimum of A and B. -/
  | minI32 (g : Guard) (d : RegNo) (a : RegNo) (b : RegNo)
  /-- `MAX_I32` (R181). Signed maximum of A and B. -/
  | maxI32 (g : Guard) (d : RegNo) (a : RegNo) (b : RegNo)
  /-- `MIN_N32` (R181). Unsigned minimum of A and B. -/
  | minN32 (g : Guard) (d : RegNo) (a : RegNo) (b : RegNo)
  /-- `MAX_N32` (R181). Unsigned maximum of A and B. -/
  | maxN32 (g : Guard) (d : RegNo) (a : RegNo) (b : RegNo)
  /-- `ABS` (R181). Absolute value of A as i32, wrapping at 0x8000_0000. -/
  | abs (g : Guard) (d : RegNo) (a : RegNo)
  /-- `NEG` (R181). Two's complement negation of A. -/
  | neg (g : Guard) (d : RegNo) (a : RegNo)
  /-- `SAD` (R181). Signed absolute difference of A and B plus C. -/
  | sad (g : Guard) (d : RegNo) (a : RegNo) (b : RegNo) (c : RegNo)
  /-- `SAD_N32` (R181). Unsigned absolute difference of A and B plus C. -/
  | sadN32 (g : Guard) (d : RegNo) (a : RegNo) (b : RegNo) (c : RegNo)
  /-- `AND` (R182). Bitwise and of A and B. -/
  | and (g : Guard) (d : RegNo) (a : RegNo) (b : RegNo)
  /-- `OR` (R182). Bitwise or of A and B. -/
  | or (g : Guard) (d : RegNo) (a : RegNo) (b : RegNo)
  /-- `XOR` (R182). Bitwise exclusive or of A and B. -/
  | xor (g : Guard) (d : RegNo) (a : RegNo) (b : RegNo)
  /-- `ANDN` (R182). A and not B. -/
  | andn (g : Guard) (d : RegNo) (a : RegNo) (b : RegNo)
  /-- `ORN` (R182). A or not B. -/
  | orn (g : Guard) (d : RegNo) (a : RegNo) (b : RegNo)
  /-- `LOP3` (R182). Three-input bitwise function given by the truth table in MOD. -/
  | lop3 (g : Guard) (tt : BitVec 8) (d : RegNo) (a : RegNo) (b : RegNo) (c : RegNo)
  /-- `SHL` (R184). Logical left shift, 0 for counts of 32 or more. -/
  | shl (g : Guard) (d : RegNo) (a : RegNo) (b : RegNo)
  /-- `SHR` (R184). Logical right shift, zero-filled. -/
  | shr (g : Guard) (d : RegNo) (a : RegNo) (b : RegNo)
  /-- `SRA` (R184). Arithmetic right shift filling with the sign bit. -/
  | sra (g : Guard) (d : RegNo) (a : RegNo) (b : RegNo)
  /-- `ROL` (R184). Rotate left by B[4:0]. -/
  | rol (g : Guard) (d : RegNo) (a : RegNo) (b : RegNo)
  /-- `ROR` (R184). Rotate right by B[4:0]. -/
  | ror (g : Guard) (d : RegNo) (a : RegNo) (b : RegNo)
  /-- `FSL` (R184). Funnel shift left of A:B by C[4:0], high word. -/
  | fsl (g : Guard) (d : RegNo) (a : RegNo) (b : RegNo) (c : RegNo)
  /-- `FSR` (R184). Funnel shift right of A:B by C[4:0], low word. -/
  | fsr (g : Guard) (d : RegNo) (a : RegNo) (b : RegNo) (c : RegNo)
  /-- `POPC` (R185). Counts set bits of A. -/
  | popc (g : Guard) (d : RegNo) (a : RegNo)
  /-- `CLZ` (R185). Counts leading zero bits of A. -/
  | clz (g : Guard) (d : RegNo) (a : RegNo)
  /-- `CTZ` (R185). Counts trailing zero bits of A. -/
  | ctz (g : Guard) (d : RegNo) (a : RegNo)
  /-- `BREV` (R185). Reverses the bits of A. -/
  | brev (g : Guard) (d : RegNo) (a : RegNo)
  /-- `BFX_I32` (R185). Signed bit-field extract using pos and length from C. -/
  | bfxI32 (g : Guard) (d : RegNo) (a : RegNo) (c : RegNo)
  /-- `BFX_N32` (R185). Unsigned bit-field extract. -/
  | bfxN32 (g : Guard) (d : RegNo) (a : RegNo) (c : RegNo)
  /-- `BFI` (R185). Inserts a field of B into A. -/
  | bfi (g : Guard) (d : RegNo) (a : RegNo) (b : RegNo) (c : RegNo)
  /-- `BIL2` (R186). Interleaves the low 16 bits of A and B. -/
  | bil2 (g : Guard) (d : RegNo) (a : RegNo) (b : RegNo)
  /-- `BIL3` (R186). Interleaves the low 10 bits of A, B and C into a Morton code. -/
  | bil3 (g : Guard) (d : RegNo) (a : RegNo) (b : RegNo) (c : RegNo)
  /-- `BDL3` (R186). Recovers one of three interleaved coordinates. -/
  | bdl3 (g : Guard) (d : RegNo) (a : RegNo) (b : RegNo)
  /-- `BDL2` (R186). Recovers one of two interleaved coordinates. -/
  | bdl2 (g : Guard) (d : RegNo) (a : RegNo) (b : RegNo)
  /-- `ICMP` (R187). Integer compare with optional combine into a register or a climber predicate bit. -/
  | icmp (g : Guard) (cond : Cond) (comb : Comb) (pred : Bool) (d : RegNo) (a : RegNo) (b : RegNo) (c : RegNo)
  /-- `SEL` (R188). Selects A or B per lane by C. -/
  | sel (g : Guard) (d : RegNo) (a : RegNo) (b : RegNo) (c : RegNo)
  /-- `SXT_8` (R189). Sign-extends the low byte of A. -/
  | sxt8 (g : Guard) (d : RegNo) (a : RegNo)
  /-- `SXT_16` (R189). Sign-extends the low half of A. -/
  | sxt16 (g : Guard) (d : RegNo) (a : RegNo)
  /-- `ZXT_8` (R189). Zero-extends the low byte of A. -/
  | zxt8 (g : Guard) (d : RegNo) (a : RegNo)
  /-- `ZXT_16` (R189). Zero-extends the low half of A. -/
  | zxt16 (g : Guard) (d : RegNo) (a : RegNo)
  /-- `PRM` (R189). Byte permute of A and B selected by C. -/
  | prm (g : Guard) (d : RegNo) (a : RegNo) (b : RegNo) (c : RegNo)
  /-- `BSWP` (R189). Reverses the byte order of A. -/
  | bswp (g : Guard) (d : RegNo) (a : RegNo)
  /-- `DIV_I32` (R190). Signed division truncated toward zero, with fixed results for divide by zero. -/
  | divI32 (g : Guard) (d : RegNo) (a : RegNo) (b : RegNo)
  /-- `DIV_N32` (R190). Unsigned division. -/
  | divN32 (g : Guard) (d : RegNo) (a : RegNo) (b : RegNo)
  /-- `REM_I32` (R190). Signed remainder with the dividend's sign. -/
  | remI32 (g : Guard) (d : RegNo) (a : RegNo) (b : RegNo)
  /-- `REM_N32` (R190). Unsigned remainder. -/
  | remN32 (g : Guard) (d : RegNo) (a : RegNo) (b : RegNo)
  /-- `MOV` (R191). Copies A into D, including channels and specials. -/
  | mov (g : Guard) (d : RegNo) (a : RegNo)
  /-- `MOV64` (R191). Copies a register pair. -/
  | mov64 (g : Guard) (d : RegNo) (a : RegNo)
  /-- `MPADD` (R196). Advances a logical LS pointer across the interleave rectangle of IFW and IFH. -/
  | mpadd (g : Guard) (dig : BitVec 5) (d : RegNo) (a : RegNo) (b : RegNo)
  /-- `MPMK` (R197). Builds a logical LS pointer from a core word and an offset. -/
  | mpmk (g : Guard) (d : RegNo) (a : RegNo) (b : RegNo)
  /-- `MPCORE` (R197). Extracts the core word of an LS pointer. -/
  | mpcore (g : Guard) (d : RegNo) (a : RegNo)
  /-- `MPOFF` (R197). Extracts the local offset of an LS pointer. -/
  | mpoff (g : Guard) (d : RegNo) (a : RegNo)
  /-- `MPLOC` (R197). Gives the offset if the pointer names the issuing core, else 0xFFFF_FFFF. -/
  | mploc (g : Guard) (d : RegNo) (a : RegNo)
  /-- `ADDI` (R192). Adds a 32-bit immediate. -/
  | addi (g : Guard) (imm : Word) (d : RegNo) (a : RegNo)
  /-- `MULI` (R192). Multiplies by an immediate. -/
  | muli (g : Guard) (imm : Word) (d : RegNo) (a : RegNo)
  /-- `ANDI` (R192). Bitwise and with an immediate. -/
  | andi (g : Guard) (imm : Word) (d : RegNo) (a : RegNo)
  /-- `ORI` (R192). Bitwise or with an immediate. -/
  | ori (g : Guard) (imm : Word) (d : RegNo) (a : RegNo)
  /-- `XORI` (R192). Bitwise exclusive or with an immediate. -/
  | xori (g : Guard) (imm : Word) (d : RegNo) (a : RegNo)
  /-- `MOVI` (R192). Loads a 32-bit immediate. -/
  | movi (g : Guard) (imm : Word) (d : RegNo)
  /-- `ICMPI` (R193). Compares A with a sign-extended 28-bit immediate. -/
  | icmpi (g : Guard) (cond : Cond) (imm : BitVec 28) (d : RegNo) (a : RegNo)
  /-- `SHLI` (R192). Left shift by an immediate. -/
  | shli (g : Guard) (imm : Word) (d : RegNo) (a : RegNo)
  /-- `SHRI` (R192). Logical right shift by an immediate. -/
  | shri (g : Guard) (imm : Word) (d : RegNo) (a : RegNo)
  /-- `SRAI` (R192). Arithmetic right shift by an immediate. -/
  | srai (g : Guard) (imm : Word) (d : RegNo) (a : RegNo)
  /-- `MINI_I32` (R192). Signed minimum with an immediate. -/
  | miniI32 (g : Guard) (imm : Word) (d : RegNo) (a : RegNo)
  /-- `MAXI_I32` (R192). Signed maximum with an immediate. -/
  | maxiI32 (g : Guard) (imm : Word) (d : RegNo) (a : RegNo)
  /-- `ADDI64` (R192). Adds a sign-extended immediate to a 64-bit pair. -/
  | addi64 (g : Guard) (imm : Word) (d : RegNo) (a : RegNo)
  /-- `PAIR_WORD` (R22). Executes one or two restricted two-operand operations on an even and an odd register together. -/
  | pairWord (x : PairSlot) (y : Option PairSlot)
  /-- `FADD` (R222). f32 addition with rounding, flush, clamp and source modifiers. -/
  | fadd (g : Guard) (md : BitVec 8) (d : RegNo) (a : RegNo) (b : RegNo)
  /-- `FSUB` (R222). f32 subtraction. -/
  | fsub (g : Guard) (md : BitVec 8) (d : RegNo) (a : RegNo) (b : RegNo)
  /-- `FMUL` (R222). f32 multiplication. -/
  | fmul (g : Guard) (md : BitVec 8) (d : RegNo) (a : RegNo) (b : RegNo)
  /-- `FFMA` (R222). Fused a × b + c, rounded once. -/
  | ffma (g : Guard) (md : BitVec 8) (d : RegNo) (a : RegNo) (b : RegNo) (c : RegNo)
  /-- `FFMS` (R222). Fused a × b − c. -/
  | ffms (g : Guard) (md : BitVec 8) (d : RegNo) (a : RegNo) (b : RegNo) (c : RegNo)
  /-- `FNMA` (R222). Fused −(a × b) + c. -/
  | fnma (g : Guard) (md : BitVec 8) (d : RegNo) (a : RegNo) (b : RegNo) (c : RegNo)
  /-- `FNMS` (R222). Fused −(a × b) − c. -/
  | fnms (g : Guard) (md : BitVec 8) (d : RegNo) (a : RegNo) (b : RegNo) (c : RegNo)
  /-- `FMIN` (R223). minimumNumber of A and B. -/
  | fmin (g : Guard) (d : RegNo) (a : RegNo) (b : RegNo)
  /-- `FMAX` (R223). maximumNumber of A and B. -/
  | fmax (g : Guard) (d : RegNo) (a : RegNo) (b : RegNo)
  /-- `FMINP` (R223). Minimum propagating NaN. -/
  | fminp (g : Guard) (d : RegNo) (a : RegNo) (b : RegNo)
  /-- `FMAXP` (R223). Maximum propagating NaN. -/
  | fmaxp (g : Guard) (d : RegNo) (a : RegNo) (b : RegNo)
  /-- `FCMP` (R224). f32 compare with combine, into a register or a climber predicate bit. -/
  | fcmp (g : Guard) (cond : FCond) (comb : Comb) (pred : Bool) (d : RegNo) (a : RegNo) (b : RegNo) (c : RegNo)
  /-- `FRCP` (R226). Correctly rounded reciprocal. -/
  | frcp (g : Guard) (d : RegNo) (a : RegNo)
  /-- `FRSQ` (R226). Correctly rounded reciprocal square root. -/
  | frsq (g : Guard) (d : RegNo) (a : RegNo)
  /-- `FSQRT` (R226). Correctly rounded square root. -/
  | fsqrt (g : Guard) (d : RegNo) (a : RegNo)
  /-- `FEX2` (R226). Correctly rounded 2^A. -/
  | fex2 (g : Guard) (d : RegNo) (a : RegNo)
  /-- `FLG2` (R226). Correctly rounded log2 A. -/
  | flg2 (g : Guard) (d : RegNo) (a : RegNo)
  /-- `FSINP` (R226). Correctly rounded sin πA. -/
  | fsinp (g : Guard) (d : RegNo) (a : RegNo)
  /-- `FCOSP` (R226). Correctly rounded cos πA. -/
  | fcosp (g : Guard) (d : RegNo) (a : RegNo)
  /-- `FTANH` (R226). Correctly rounded tanh A. -/
  | ftanh (g : Guard) (d : RegNo) (a : RegNo)
  /-- `FDIV` (R225). f32 division rounded to nearest even. -/
  | fdiv (g : Guard) (d : RegNo) (a : RegNo) (b : RegNo)
  /-- `FCLS` (R227). Classifies A into a one-hot mask. -/
  | fcls (g : Guard) (d : RegNo) (a : RegNo)
  /-- `FSCL` (R227). Scales A by 2^B exactly, then rounds. -/
  | fscl (g : Guard) (d : RegNo) (a : RegNo) (b : RegNo)
  /-- `FRINT` (R227). Rounds A to an integral value in the given mode. -/
  | frint (g : Guard) (rm : BitVec 2) (d : RegNo) (a : RegNo)
  /-- `FFRAC` (R227). Fractional part A − ⌊A⌋. -/
  | ffrac (g : Guard) (d : RegNo) (a : RegNo)
  /-- `FCPSGN` (R227). Copies B's sign onto A's bits. -/
  | fcpsgn (g : Guard) (d : RegNo) (a : RegNo) (b : RegNo)
  /-- `HADD` (R228). Packed f16x2 or bf16x2 addition. -/
  | hadd (g : Guard) (bf : Bool) (d : RegNo) (a : RegNo) (b : RegNo)
  /-- `HSUB` (R228). Packed half-width subtraction. -/
  | hsub (g : Guard) (bf : Bool) (d : RegNo) (a : RegNo) (b : RegNo)
  /-- `HMUL` (R228). Packed half-width multiplication. -/
  | hmul (g : Guard) (bf : Bool) (d : RegNo) (a : RegNo) (b : RegNo)
  /-- `HFMA` (R228). Packed half-width fused multiply-add. -/
  | hfma (g : Guard) (bf : Bool) (d : RegNo) (a : RegNo) (b : RegNo) (c : RegNo)
  /-- `HMIN` (R228). Packed half-width minimumNumber. -/
  | hmin (g : Guard) (bf : Bool) (d : RegNo) (a : RegNo) (b : RegNo)
  /-- `HMAX` (R228). Packed half-width maximumNumber. -/
  | hmax (g : Guard) (bf : Bool) (d : RegNo) (a : RegNo) (b : RegNo)
  /-- `DOT` (R229). Packed dot product of A and B plus C, rounded once or wrapping. -/
  | dot (g : Guard) (fmt : DotFmt) (d : RegNo) (a : RegNo) (b : RegNo) (c : RegNo)
  /-- `CVT` (R230). Converts between f32, integers and narrow formats by code. -/
  | cvt (g : Guard) (code : BitVec 6) (idx : BitVec 2) (d : RegNo) (a : RegNo) (b : RegNo)
  /-- `QPK` (R231). Quantises a register group by an E8M0 scale and packs it. -/
  | qpk (g : Guard) (fmt : QFmt) (d : RegNo) (a : RegNo) (b : RegNo)
  /-- `QUPK` (R232). Unpacks packed elements and applies the scale. -/
  | qupk (g : Guard) (fmt : QFmt) (d : RegNo) (a : RegNo) (b : RegNo)
  /-- `MXSC` (R233). Computes the E8M0 scale from a block's largest magnitude. -/
  | mxsc (g : Guard) (fmt : QFmt) (d : RegNo) (a : RegNo)
  /-- `SHFL` (R210). Reads A from another lane chosen by index, up, down or xor within a segment. -/
  | shfl (g : Guard) (kind : ShflKind) (width : BitVec 3) (fate : ShflFate) (d : RegNo) (a : RegNo) (b : RegNo)
  /-- `VOTE_ANY` (R211). True in all active lanes if any A is nonzero. -/
  | voteAny (g : Guard) (d : RegNo) (a : RegNo)
  /-- `VOTE_ALL` (R211). True if every active A is nonzero. -/
  | voteAll (g : Guard) (d : RegNo) (a : RegNo)
  /-- `VOTE_UNI` (R211). True if A is uniform over active lanes. -/
  | voteUni (g : Guard) (d : RegNo) (a : RegNo)
  /-- `BALLOT` (R211). Mask of active lanes with nonzero A. -/
  | ballot (g : Guard) (d : RegNo) (a : RegNo)
  /-- `MATCH` (R211). Mask of active lanes holding the same A as this lane. -/
  | matchLanes (g : Guard) (d : RegNo) (a : RegNo)
  /-- `LRED` (R212). Reduces A over active lanes with the chosen operation. -/
  | lred (g : Guard) (op : LaneOp) (d : RegNo) (a : RegNo)
  /-- `LSCAN` (R212). Inclusive or exclusive scan of A over active lanes. -/
  | lscan (g : Guard) (op : LaneOp) (ex : Bool) (d : RegNo) (a : RegNo)
  /-- `LMASK` (R213). Writes the active-lane mask. -/
  | lmask (g : Guard) (d : RegNo)
  /-- `LBELOW` (R213). Writes the active lanes below this lane. -/
  | lbelow (g : Guard) (d : RegNo)
  /-- `LCNT` (R213). Writes the active lane count. -/
  | lcnt (g : Guard) (d : RegNo)
  /-- `LFIRST` (R213). Writes the lowest active lane index. -/
  | lfirst (g : Guard) (d : RegNo)
  /-- `ELECT` (R213). Marks the lowest active lane. -/
  | elect (g : Guard) (d : RegNo)
  /-- `LD` (R173). Loads bytes from local store in wave-port rounds. -/
  | ld (g : Guard) (sz : Sz) (off : BitVec 16) (d : RegNo) (a : RegNo)
  /-- `ST` (R173). Stores bytes to local store in wave-port rounds. -/
  | st (g : Guard) (sz : Sz) (off : BitVec 16) (a : RegNo) (b : RegNo)
  /-- `LDK` (R174). Loads from the constant region only. -/
  | ldk (g : Guard) (sz : Sz) (off : BitVec 16) (d : RegNo) (a : RegNo)
  /-- `LDIX` (R175). Indexed load from A + (B << s). -/
  | ldix (g : Guard) (sz : Sz) (sh : BitVec 3) (d : RegNo) (a : RegNo) (b : RegNo)
  /-- `ATL` (R176). Atomic operation on a local-store word at its bank. -/
  | atl (g : Guard) (aop : Aop) (scope : BitVec 3) (off : BitVec 10) (d : RegNo) (a : RegNo) (b : RegNo)
  /-- `ATM` (R269). Sends an atomic to its execution point and scoreboards the returned old value. -/
  | atm (g : Guard) (sz : Sz) (aop : Aop) (scope : BitVec 3) (off : BitVec 10) (d : RegNo) (a : RegNo) (b : RegNo)
  /-- `RED` (R270). Sends a reduction to its execution point with no result. -/
  | red (g : Guard) (sz : Sz) (aop : Aop) (scope : BitVec 3) (off : BitVec 10) (ord : Bool) (a : RegNo) (b : RegNo)
  /-- `PST` (R156). Posts stores, grouped by line, to homes or cores. -/
  | pst (g : Guard) (sz : Sz) (off : BitVec 16) (a : RegNo) (b : RegNo)
  /-- `LEASE` (R106). Requests a lease on a device line and fills a lease window with its bytes. -/
  | lease (g : Guard) (off : BitVec 16) (d : RegNo) (a : RegNo)
  /-- `LREL` (R110). Commits or discards the latest lease and frees its window. -/
  | lrel (g : Guard) (d : RegNo)
  /-- `PUB` (R104). Publishes a write to a subscribed range, checking grain ownership. -/
  | pub (g : Guard) (sz : Sz) (off : BitVec 16) (a : RegNo) (b : RegNo)
  /-- `SUBS` (R102). Subscribes a local copy to a device range and fills it from a snapshot. -/
  | subs (g : Guard) (d : RegNo) (a : RegNo)
  /-- `UNSUB` (R102). Ends a subscription. -/
  | unsub (g : Guard) (d : RegNo) (a : RegNo)
  /-- `LND_INIT` (R125). Initialises a landing's counts, scope and phase. -/
  | lndInit (g : Guard) (scope : BitVec 3) (a : RegNo) (b : RegNo) (c : RegNo)
  /-- `LND_ARR` (R125). Counts arrivals into a landing, releasing prior writes. -/
  | lndArr (g : Guard) (d : RegNo) (a : RegNo) (b : RegNo)
  /-- `LND_EXP` (R125). Adds expected bytes to a landing. -/
  | lndExp (g : Guard) (d : RegNo) (a : RegNo) (b : RegNo)
  /-- `LND_WAIT` (R125). Sleeps until the landing leaves a phase or faults. -/
  | lndWait (g : Guard) (d : RegNo) (a : RegNo) (b : RegNo)
  /-- `LND_TEST` (R125). Returns the landing status at once. -/
  | lndTest (g : Guard) (d : RegNo) (a : RegNo) (b : RegNo)
  /-- `LND_INV` (R125). Waits for the wave's copies naming the landing, then resets its phase counts and fault. -/
  | lndInv (g : Guard) (d : RegNo) (a : RegNo)
  /-- `RING_INIT` (R137). Initialises a ring header and sequence array. -/
  | ringInit (g : Guard) (scope : BitVec 3) (a : RegNo) (b : RegNo) (c : RegNo)
  /-- `RING_RSV` (R137). Reserves the next ring slot, sleeping while full. -/
  | ringRsv (g : Guard) (d : RegNo) (a : RegNo)
  /-- `RING_CMT` (R137). Commits a reserved position, releasing prior writes. -/
  | ringCmt (g : Guard) (d : RegNo) (a : RegNo) (b : RegNo)
  /-- `RING_ATT` (R137). Attaches a read cursor. -/
  | ringAtt (g : Guard) (d : RegNo) (a : RegNo)
  /-- `RING_WAIT` (R137). Sleeps until the cursor's position is committed and returns its slot. -/
  | ringWait (g : Guard) (d : RegNo) (a : RegNo) (b : RegNo)
  /-- `RING_REL` (R137). Advances a cursor past a committed position. -/
  | ringRel (g : Guard) (d : RegNo) (a : RegNo) (b : RegNo)
  /-- `RING_DET` (R137). Detaches a cursor. -/
  | ringDet (g : Guard) (d : RegNo) (a : RegNo) (b : RegNo)
  /-- `CNT_INIT` (R326). Arms a message counter with a credit on its node's instance. -/
  | cntInit (g : Guard) (d : RegNo) (a : RegNo) (b : RegNo)
  /-- `CNT_DEC` (R326). Decrements a local counter through the NI. -/
  | cntDec (g : Guard) (a : RegNo) (b : RegNo)
  /-- `CNT_RDEC` (R326). Sends a counter decrement to an LS pointer. -/
  | cntRdec (g : Guard) (a : RegNo) (b : RegNo)
  /-- `CNT_RD` (R326). Reads a counter's count. -/
  | cntRd (g : Guard) (d : RegNo) (a : RegNo)
  /-- `CP` (R130). Commands a copy and returns its promise. -/
  | cp (g : Guard) (ordered : Bool) (ring : Bool) (d : RegNo) (a : RegNo) (b : RegNo) (c : RegNo)
  /-- `CPT` (R132). Commands a strided tile copy or reduction from a shape record. -/
  | cpt (g : Guard) (op : TileOp) (d : RegNo) (a : RegNo) (b : RegNo) (c : RegNo)
  /-- `CPG` (R131). Commands a per-lane gather/scatter copy. -/
  | cpg (g : Guard) (sz : BitVec 2) (d : RegNo) (a : RegNo) (b : RegNo) (c : RegNo)
  /-- `COLL_ALLRED` (R133). Starts an all-reduce collective. -/
  | collAllred (g : Guard) (d : RegNo) (a : RegNo)
  /-- `COLL_REDSCT` (R133). Starts a reduce-scatter collective. -/
  | collRedsct (g : Guard) (d : RegNo) (a : RegNo)
  /-- `COLL_ALLGAT` (R133). Starts an all-gather collective. -/
  | collAllgat (g : Guard) (d : RegNo) (a : RegNo)
  /-- `COLL_BCAST` (R133). Starts a broadcast collective. -/
  | collBcast (g : Guard) (d : RegNo) (a : RegNo)
  /-- `CPQ_ST` (R134). Reads copy-queue occupancy. -/
  | cpqSt (g : Guard) (d : RegNo)
  /-- `CPQ_CNL` (R134). Cancels the wave's unfinished copies naming a landing. -/
  | cpqCnl (g : Guard) (d : RegNo) (a : RegNo)
  /-- `CPQ_FR` (R134). Reads, and optionally frees, a copy fault record. -/
  | cpqFr (g : Guard) (free : Bool) (d : RegNo) (a : RegNo)
  /-- `TWAIT` (R135). Sleeps until a promise passes or a landing flips. -/
  | twait (g : Guard) (d : RegNo) (a : RegNo) (b : RegNo) (c : RegNo)
  /-- `BAR_SYNC` (R216). Arrives at a group barrier and parks until the generation completes. -/
  | barSync (a : RegNo) (b : RegNo)
  /-- `BAR_ARR` (R216). Arrives at a barrier without waiting. -/
  | barArr (d : RegNo) (a : RegNo) (b : RegNo)
  /-- `BAR_WAIT` (R216). Sleeps until the barrier passes a given generation. -/
  | barWait (a : RegNo) (b : RegNo)
  /-- `CBAR_SYNC` (R327). Combining barrier over a hall, die or device unit. -/
  | cbarSync (g : Guard) (scope : BitVec 3) (d : RegNo)
  /-- `CBAR_MAX` (R327). Combining barrier returning the largest magnitude. -/
  | cbarMax (g : Guard) (scope : BitVec 3) (d : RegNo) (a : RegNo)
  /-- `CBAR_MAXN` (R327). Combining barrier returning the n32 maximum. -/
  | cbarMaxn (g : Guard) (scope : BitVec 3) (d : RegNo) (a : RegNo)
  /-- `CBAR_ADD` (R327). Combining barrier returning the n32 sum. -/
  | cbarAdd (g : Guard) (scope : BitVec 3) (d : RegNo) (a : RegNo)
  /-- `CBAR_MIN` (R327). Combining barrier returning the n32 minimum. -/
  | cbarMin (g : Guard) (scope : BitVec 3) (d : RegNo) (a : RegNo)
  /-- `ACQ` (R273). Watches a synchronisation object until it reaches a value; acquire. -/
  | acq (g : Guard) (scope : BitVec 3) (d : RegNo) (a : RegNo) (b : RegNo)
  /-- `REL` (R273). Waits for bound writes to complete, then increments the object; release. -/
  | rel (g : Guard) (scope : BitVec 3) (d : RegNo) (a : RegNo)
  /-- `BIND` (R272). Adds, finds or clears binding-table entries. -/
  | bind (g : Guard) (d : RegNo) (a : RegNo) (b : RegNo) (c : RegNo)
  /-- `FENCE` (R271). Waits until the wave's earlier operations of the masked classes complete at the scope. -/
  | fence (g : Guard) (mask : BitVec 4) (scope : BitVec 3)
  /-- `SLP_UNTIL` (R328). Sleeps the split until clk reaches a target. -/
  | slpUntil (g : Guard) (a : RegNo)
  /-- `SLP_FOR` (R328). Sleeps the split for a count of clk. -/
  | slpFor (g : Guard) (a : RegNo)
  /-- `YIELD` (R328). Makes the split not ready until others issue or 16 cycles pass. -/
  | yield (g : Guard)
  /-- `MXAL` (R242). Requests a run of accumulator banks. -/
  | mxal (g : Guard) (a : RegNo)
  /-- `MXFR` (R243). Frees the wave's bank run after its accesses finish. -/
  | mxfr (g : Guard)
  /-- `MXL` (R249). Loads an operand or scale latch from local store, optionally transposed. -/
  | mxl (g : Guard) (latch : BitVec 3) (transp : Bool) (esz : BitVec 2) (a : RegNo) (b : RegNo)
  /-- `MXG` (R250). Gathers A-latch rows by per-lane addresses. -/
  | mxg (g : Guard) (latch : BitVec 1) (a : RegNo) (b : RegNo)
  /-- `MMA` (R252). Issues a matrix multiply-accumulate into a bank. -/
  | mma (g : Guard) (x : Bool) (y : Bool) (z : Bool) (zi : Bool) (half : Bool) (nc : Bool) (a : RegNo) (b : RegNo)
  /-- `MXS` (R255). Stores and converts accumulator rows to local store. -/
  | mxs (g : Guard) (ty : BitVec 3) (a : RegNo) (b : RegNo) (c : RegNo)
  /-- `MXR` (R256). Reads accumulator columns into registers. -/
  | mxr (g : Guard) (d : RegNo) (b : RegNo) (c : RegNo)
  /-- `MXW` (R256). Writes registers into accumulator columns. -/
  | mxw (g : Guard) (a : RegNo) (b : RegNo) (c : RegNo)
  /-- `MXZ` (R256). Zeroes the active lanes' rows of a bank. -/
  | mxz (g : Guard) (b : RegNo)
  /-- `TURN_TAKE` (R246). Requests the core's matrix turn. -/
  | turnTake (g : Guard)
  /-- `TURN_GIVE` (R246). Releases the matrix turn. -/
  | turnGive (g : Guard)
  /-- `TURN_WHO` (R246). Reads which wave of the group holds the turn. -/
  | turnWho (g : Guard) (d : RegNo)
  /-- `CLIMB` (R285). Starts a climber per lane and initialises its anchor record. -/
  | climb (g : Guard) (d : RegNo) (a : RegNo) (b : RegNo) (c : RegNo)
  /-- `NBOX` (R286). Tests the ray against a node's child boxes and pushes the hits. -/
  | nbox (g : Guard) (tries : BitVec 4)
  /-- `NTRI` (R287). Tests the ray against a triangle; sends a minimum or latches a candidate. -/
  | ntri (g : Guard) (tries : BitVec 4)
  /-- `NLINK` (R288). Pops the next stack entry, migrating or parking for a treelet link. -/
  | nlink (g : Guard)
  /-- `HOP` (R290). Migrates the climber to a named core. -/
  | hop (g : Guard) (a : RegNo)
  /-- `CAND` (R293). Sends the latched non-opaque hit as a candidate to the anchor. -/
  | cand (g : Guard)
  /-- `RSYNC` (R293). Reads the anchor's bound and lowers c7. -/
  | rsync (g : Guard)
  /-- `FIN` (R293). Sends the final hand-over and ends the climber. -/
  | fin (g : Guard)
  /-- `EMIT` (R320). Sends lane records to a node instance using credits; release. -/
  | emit (g : Guard) (d : RegNo) (a : RegNo) (b : RegNo)
  /-- `EMITH` (R320). Emits records to a named instance. -/
  | emith (g : Guard) (d : RegNo) (a : RegNo) (b : RegNo) (c : RegNo)
  /-- `GRAPH_RSV` (R320). Reserves credits at a node instance. -/
  | graphRsv (g : Guard) (here : Bool) (d : RegNo) (a : RegNo) (b : RegNo) (c : RegNo)
  /-- `GDONE` (R320). Sends a done signal to every instance of a node and returns credits. -/
  | gdone (g : Guard) (a : RegNo)
  /-- `TAKE` (R321). Waits for and takes committed records from the node instance's ring. -/
  | take (g : Guard) (d : RegNo)
  /-- `LNCH` (R309). Submits a launch record and returns its id. -/
  | lnch (g : Guard) (d : RegNo) (a : RegNo)
  /-- `LNCHW` (R309). Submits a launch and sleeps until it completes. -/
  | lnchw (g : Guard) (d : RegNo) (a : RegNo)
  /-- `PAIR` (R353). Pairs the group with its neighbour's group and checkpoints both. -/
  | pair (g : Guard) (d : RegNo) (a : RegNo)
  /-- `UNPAIR` (R357). Closes the interval and ends pairing. -/
  | unpair (g : Guard) (d : RegNo)
  /-- `FPCK` (R357). Closes the interval and returns the matched fingerprint. -/
  | fpck (g : Guard) (d : RegNo)
  /-- `BR` (R204). Relative branch, dividing the split when lanes disagree. -/
  | br (g : Guard) (disp : BitVec 24) (tag : BitVec 4) (uni : Bool)
  /-- `CALL` (R204). Relative call writing the link register. -/
  | call (g : Guard) (disp : BitVec 24) (tag : BitVec 4) (uni : Bool) (d : RegNo)
  /-- `JMPI` (R205). Indirect jump by per-lane targets. -/
  | jmpi (g : Guard) (tag : BitVec 4) (a : RegNo)
  /-- `RET` (R205). Indirect return by per-lane targets. -/
  | ret (g : Guard) (tag : BitVec 4) (a : RegNo)
  /-- `JOIN` (R206). Reconverges lanes at a tagged point or parks the split. -/
  | join (tag : BitVec 4)
  /-- `EXIT` (R207). Lanes passing the guard leave the wave. -/
  | exit (g : Guard)
  /-- `TRAP` (R338). Raises SOFTWARE with a code. -/
  | trap (g : Guard) (code : BitVec 16)
  /-- `BRK` (R338). Raises BREAKPOINT with a code. -/
  | brk (g : Guard) (code : BitVec 16)
  /-- `ERET` (R338). Returns from a trap handler to FAULTPC. -/
  | eret
  /-- `NOP` (R338). No effect. -/
  | nop (g : Guard)
  /-- `CSR_RD` (R332). Reads a CSR. -/
  | csrRd (g : Guard) (csr : BitVec 12) (d : RegNo)
  /-- `CSR_WR` (R332). Writes a CSR under its rule. -/
  | csrWr (g : Guard) (csr : BitVec 12) (d : RegNo) (a : RegNo)
  /-- `CSR_SET` (R332). Sets bits of a CSR. -/
  | csrSet (g : Guard) (csr : BitVec 12) (d : RegNo) (a : RegNo)
  /-- `CSR_CLR` (R332). Clears bits of a CSR. -/
  | csrClr (g : Guard) (csr : BitVec 12) (d : RegNo) (a : RegNo)
  /-- `MARK` (R335). Writes a class-3 sample record with a code. -/
  | mark (g : Guard) (code : BitVec 16)
  /-- `TLBI` (R348). Starts a shootdown of a context range and waits for it. -/
  | tlbi (g : Guard) (dom : Bool) (d : RegNo) (a : RegNo)
  /-- `CTXSV` (R346). Pre-empts another group on the core and writes its image. -/
  | ctxsv (g : Guard) (d : RegNo) (a : RegNo)
  /-- `CTXLD` (R346). Places and restores a group from an image. -/
  | ctxld (g : Guard) (d : RegNo) (a : RegNo)
  /-- `HALT` (R347). Halts the issuing core. -/
  | halt (g : Guard)
  /-- `HALT_ALL` (R347). Halts every core of the package. -/
  | haltAll (g : Guard)
  /-- `DFR0_CLEAR` (R330). A write, set or clear of DFR0 clears the whole deferred-fault record. Argument: core, slot. -/
  | dfr0Clear
  /-- `SAMPCTL_WRITE` (R333). Writing SAMPCTL checks the buffer and turns sampling on or off. Argument: core, slot, split, v. -/
  | sampctlWrite
  /-- `CREG_WRITE` (R169). Writing CREGB or CREGL checks the constant region against the partition. Argument: core, slot, split, len, v. -/
  | cregWrite
  /-- `IFW_IFH_WRITE` (R194). Writing IFW or IFH checks the interleave rectangle. Argument: core, slot, split, h, v. -/
  | ifwIfhWrite
  /-- `TVEC_WRITE` (R330). Writing TVEC checks the handler address. Argument: core, slot, split, v. -/
  | tvecWrite
  /-- `XBND_WRITE` (R168). A privileged write of XBND within range moves the code boundary. Argument: core, slot, split, v. -/
  | xbndWrite
  /-- `LEASEMAX_WRITE` (R108). Writing LEASEMAX clamps the value into 16–512. Argument: core, slot, split, v. -/
  | leasemaxWrite
  /-- `FPINT_WRITE` (R330). Writing FPINT clamps into 64–65,536. Argument: core, slot, split, v. -/
  | fpintWrite
  /-- `CSR_PLAIN_WRITE` (R330). A write to a CSR with no behaviour of its own. Argument: core, slot, split, csr, v. -/
  | csrPlainWrite
  /-- `SPLIT_MERGE` (R201). Before each issue cycle, splits of equal PC and stack merge. Argument: core, slot. -/
  | splitMerge
  /-- `JOIN_TIMEOUT` (R206). A split parked at join is released after 256 cycles. Argument: core, slot, split. -/
  | joinTimeout
  /-- `SLEEP_EXPIRY` (R328). A sleeping split becomes ready when clk reaches its target. Argument: core, slot, split. -/
  | sleepExpiry
  /-- `PROMISE_EXPIRY` (R135). clk reaches a twait promise with the landing unflipped; PROMISE_MISSED is raised. Argument: core, slot, split. -/
  | promiseExpiry
  /-- `ISSUE_SELECT` (R313). Each cycle the selector picks one ready split to issue. Argument: core. -/
  | issueSelect
  /-- `FETCH_BLOCK` (R165). A fetch slot reads the oldest queued 32-byte code block per bank. Argument: core, slot, split. -/
  | fetchBlock
  /-- `LS_POISON_SEAL` (R166). An uncorrectable local-store word is consumed, raising LS_POISON and sealing the core. Argument: core. -/
  | lsPoisonSeal
  /-- `SUPERVISOR_PLACE` (R351). The die supervisor is placed after a seal and ends the affected launches. Argument: die, core. -/
  | supervisorPlace
  /-- `LAUNCH_END_ON_FAULT` (R352). The arbiter stops the launch's groups, reports the fault and restarts or completes it. Argument: r. -/
  | launchEndOnFault
  /-- `ACC_GRANT` (R241). The head allocation request receives the lowest free run of banks, zeroed. Argument: core. -/
  | accGrant
  /-- `TURN_GRANT` (R245). A free matrix turn is granted to the oldest waiting group's next wave. Argument: core. -/
  | turnGrant
  /-- `MMA_EXECUTION` (R253). An accepted mma starts on the unit and runs its occupancy. Argument: core. -/
  | mmaExecution
  /-- `LEASE_ABORT_POINT` (R108). clk reaches the abort point with the block unfinished; LEASE_BLOCK is raised. Argument: core, slot. -/
  | leaseAbortPoint
  /-- `LEASE_DEADLINE` (R111). The home's lease deadline passes with no commit; the lease expires and its queue is served. Argument: line. -/
  | leaseDeadline
  /-- `LEASE_REQUEST` (R106). A lease request (KIND 0x01) is queued at the home and granted in order. Argument: the message. -/
  | leaseRequest
  /-- `LEASE_GRANT` (R106). A lease grant (KIND 0x02) fills the window and retires lease. Argument: the message. -/
  | leaseGrant
  /-- `LEASE_COMMIT` (R110). A lease commit (KIND 0x03) writes the dirty bytes as one write or is refused. Argument: the message. -/
  | leaseCommit
  /-- `LEASE_ANSWER` (R106). A lease answer (KIND 0x04) completes lrel or fails lease. Argument: the message. -/
  | leaseAnswer
  /-- `LEASE_ABORT` (R111). A lease abort (KIND 0x07) releases the line and serves its queue. Argument: the message. -/
  | leaseAbort
  /-- `UNDELIVERABLE_NOTICE` (R350). An undeliverable notice returns to the sending operation, which fares by its kind. Argument: the message. -/
  | undeliverableNotice
  /-- `PREEMPTION_SEAL_FRAME_COMMAND` (R143). A control command (KIND 0x06) for pre-emption, seal or frame rewrite. Argument: c. -/
  | preemptionSealFrameCommand
  /-- `POSTED_STORE` (R156). A posted store (KIND 0x10/0x11) writes its masked bytes whole at the home or bank. Argument: the message. -/
  | postedStore
  /-- `ATOMIC_REQUEST` (R269). An atomic request (KIND 0x12) executes at the home and returns the old value. Argument: the message. -/
  | atomicRequest
  /-- `CANOPY_UPDATE` (R283). A canopy compare-and-swap of a whole entry applied at its home, dropping cached copies. Argument: the message. -/
  | canopyUpdate
  /-- `REDUCTION_DEVICE` (R270). A reduction (KIND 0x13) executes at the home. Argument: the message. -/
  | reductionDevice
  /-- `PUBLISH_WRITE` (R100). A publish write (KIND 0x14) is numbered and multicast to sharers. Argument: the message. -/
  | publishWrite
  /-- `COPY_READ_REQUEST` (R116). A copy read request (KIND 0x15) returns the line. Argument: the message. -/
  | copyReadRequest
  /-- `COPY_LINE_WRITE` (R116). A copy line write (KIND 0x16) is written whole and counted into the landing. Argument: the message. -/
  | copyLineWrite
  /-- `SUBSCRIPTION_CONTROL` (R102). A subscription control message registers or removes a sharer at the home. Argument: the message. -/
  | subscriptionControl
  /-- `HOME_FILL_WRITEBACK` (R93). A home fill or write-back (KIND 0x18) to a controller or port. Argument: line, writeback. -/
  | homeFillWriteback
  /-- `GRAPH_MESSAGE` (R319). A credit request, record or done signal (KIND 0x19) served at the instance NI. Argument: the message. -/
  | graphMessage
  /-- `ATOMIC_RESULT` (R269). An atomic result (KIND 0x20) writes the scoreboarded register. Argument: the message. -/
  | atomicResult
  /-- `LINE_DATA` (R94). Line data (KIND 0x21) returns into the reserved buffer; a filling line becomes Clean or Poisoned. Argument: the message. -/
  | lineData
  /-- `SUBSCRIPTION_UPDATE` (R100). A subscription update (KIND 0x22) writes SEQ odd, the bytes, then SEQ even. Argument: the message. -/
  | subscriptionUpdate
  /-- `WRITE_ACKNOWLEDGEMENT` (R262). A write acknowledgement (KIND 0x23) counts an operation complete for fence. Argument: the message. -/
  | writeAcknowledgement
  /-- `FAULT_REPLY` (R81). A fault reply (KIND 0x24) records the failure in the deferred-fault record. Argument: the message. -/
  | faultReply
  /-- `CHANNEL_WORD` (R152). A channel word (KIND 0x25) lands in the neighbour's receive buffer. Argument: the message. -/
  | channelWord
  /-- `CHANNEL_CREDIT_RETURN` (R152). A channel credit returns to the sender on VC 0. Argument: core, ch. -/
  | channelCreditReturn
  /-- `RAY` (R150). A ray message (KIND 0x30) is placed in a slot, the spill ring or the HBM spill area. Argument: the message. -/
  | ray
  /-- `ANY_HIT_CANDIDATE` (R294). A candidate (KIND 0x40) is committed into the any-hit ring or counted as refused. Argument: the message. -/
  | anyHitCandidate
  /-- `HIT_MINIMUM` (R296). A hit minimum (KIND 0x41) lowers BOUND and decrements PEND. Argument: the message. -/
  | hitMinimum
  /-- `COUNTER_DECREMENT` (R325). A counter decrement (KIND 0x42) lowers CNT and may fire the counter. Argument: the message. -/
  | counterDecrement
  /-- `LS_REDUCTION_ATOMIC` (R155). An LS reduction or atomic (KIND 0x43) applied at the target NI. Argument: the message. -/
  | lsReductionAtomic
  /-- `PENDING_COUNT_END` (R296). A hand-over (KIND 0x44) adds to PEND and may finish the anchor. Argument: the message. -/
  | pendingCountEnd
  /-- `RAY_SPILL_WRITE` (R150). A ray spill write (KIND 0x50) to the HBM spill area. Argument: the message. -/
  | raySpillWrite
  /-- `RAY_SPILL_RELOAD` (R150). A ray spill reload (KIND 0x51) brings rays back to the spill ring. Argument: core. -/
  | raySpillReload
  /-- `TREELET_PAGE_IN_FILL` (R291). A treelet page-in or replica line (KIND 0x52) written to the arena. Argument: the message. -/
  | treeletPageInFill
  /-- `PREEMPTION_SAVE_RESTORE_LINE` (R344). A save or restore line (KIND 0x53) of a group image. Argument: the message. -/
  | preemptionSaveRestoreLine
  /-- `MALFORMED_MESSAGE` (R143). A message with a bad KIND, VC or LEN is discarded and counted. Argument: core. -/
  | malformedMessage
  /-- `WATCH` (R273). An acq watch is held at the object's execution point and answered when G reaches the target. Argument: the message. -/
  | watch
  /-- `WATCH_RETRY` (R273). A watch answered with retry is sent again 64 cycles later. Argument: the message. -/
  | watchRetry
  /-- `CREDIT_RETRY` (R319). A credit request answered with retry is sent again 64 cycles later. Argument: the message. -/
  | creditRetry
  /-- `CBAR_ARRIVAL` (R327). A combining-barrier arrival reaches the combining hall unit, which completes the generation. Argument: the message. -/
  | cbarArrival
  /-- `COPY_ACCEPT` (R119). The engine accepts a command after translation and computes its promise. Argument: cmd. -/
  | copyAccept
  /-- `COPY_LINE_TRANSFER` (R116). The engine issues a 128-byte line transfer in command order. Argument: hall. -/
  | copyLineTransfer
  /-- `PAGE_WALK` (R78). A walker completes a page walk and fills the translation cache. Argument: hall, ctx, va. -/
  | pageWalk
  /-- `SHOOTDOWN_COMPLETE` (R82). A shootdown completes once caches are cleared and dependent work has drained. Argument: id. -/
  | shootdownComplete
  /-- `PATROL_SCRUB` (R67). The patrol scrubber reads the next sector and corrects or poisons it. Argument: sector. -/
  | patrolScrub
  /-- `POOL_LINK_LOSS` (R86). A pool link stays down 2,000,000 clk or goes viral; its regions become FAULTED. Argument: port. -/
  | poolLinkLoss
  /-- `BACK_INVALIDATION_SNOOP` (R84). A pool device's BISnp invalidates or downgrades copies and is answered with BIRsp. Argument: line, kind. -/
  | backInvalidationSnoop
  /-- `HOST_CXL_MEM_WRITE` (R96). A host CXL.mem write applied at the line's home with its byte mask. Argument: the message. -/
  | hostCxlMemWrite
  /-- `HOST_CXL_MEM_READ` (R359). A host CXL.mem read of HBM served at the line's home. Argument: addr, len. -/
  | hostCxlMemRead
  /-- `HOST_CXL_CACHE_SNOOP` (R96). A host CXL.cache request for a sector of a host-biased line. Argument: sector, own. -/
  | hostCxlCacheSnoop
  /-- `HOST_RING_COMMIT` (R306). A host write of a ring sequence word commits a launch record to the arbiter. Argument: ring, slot, value. -/
  | hostRingCommit
  /-- `LAUNCH_SUBMIT` (R301). A submitted record is validated and accepted or rejected with a reason. Argument: sub. -/
  | launchSubmit
  /-- `GANG_PLACE` (R311). The distributor places a gang's groups, copying code, data and arguments. Argument: lid. -/
  | gangPlace
  /-- `GANG_PREEMPT` (R343). The arbiter pre-empts a gang and saves its groups' images. Argument: lid, gang. -/
  | gangPreempt
  /-- `GROUP_RESUME` (R345). A saved group is placed again, restored and its frame rewritten. Argument: gid. -/
  | groupResume
  /-- `LAUNCH_COMPLETION` (R308). The last group exits and operations complete; the arbiter increments CMPL. Argument: lid. -/
  | launchCompletion
  /-- `PAGE_MOVE_COPY_DONE` (R90). The move copy completes and the old home forwards its queue to the new home. Argument: id. -/
  | pageMoveCopyDone
  /-- `CLIMBER_CONTEXT_ENTRY` (R275). A placed climber enters a free pipe context. Argument: core. -/
  | climberContextEntry
  /-- `CLIMBER_ISSUE` (R275). The climber pipe issues one instruction from the least recently issued ready climber. Argument: core. -/
  | climberIssue
  /-- `CLIMBER_SLOT_FREE` (R150). A freed climber slot is refilled from the spill ring. Argument: core. -/
  | climberSlotFree
  /-- `CANOPY_LOOKUP` (R283). A canopy lookup is answered from the hall unit cache or the entry's home. Argument: the message. -/
  | canopyLookup
  /-- `PAGE_IN_COMPLETE` (R291). A page-in finishes; the canopy entry becomes Resident and waiters wake. Argument: hall, id. -/
  | pageInComplete
  /-- `PAGING_REREAD` (R291). A hall unit re-reads a Paging entry every 1,024 clk. Argument: hall, id. -/
  | pagingReread
  /-- `PAGING_WAITER_TIMEOUT` (R291). Waiters still Paging after 2^20 clk are ended with reason 4. Argument: hall, id. -/
  | pagingWaiterTimeout
  /-- `REPLICATION_THRESHOLD` (R291). Visits reach 4,096 and the hall unit replicates the treelet. Argument: hall, id. -/
  | replicationThreshold
  /-- `VISIT_COUNT_CLEAR` (R291). Hall units clear their visit counts every 2^20 clk. Argument: hall. -/
  | visitCountClear
  /-- `TAKE_COALT_EXPIRY` (R321). The oldest untaken record reaches COALT age and a waiting take returns. Argument: core, node. -/
  | takeCoaltExpiry
  /-- `PAIR_INTERVAL_CLOSE` (R354). A paired interval closes and the cores exchange fingerprints. Argument: gid. -/
  | pairIntervalClose
  /-- `PAIR_TIMEOUT` (R353). pair gives 1 after 2^20 clk without the partner. Argument: gid. -/
  | pairTimeout
  /-- `SAMPLE_INSTANT` (R333). Every SAMPPER clk the core samples one wave and writes or drops a record. Argument: core. -/
  | sampleInstant
  /-- `CLOCK_ALIGNMENT_EXCHANGE` (R366). Every 2^20 clk packages exchange timestamps and slew toward the reference. Argument: ahead, behind. -/
  | clockAlignmentExchange
  /-- `FLIGHT_LINK_LOSS` (R365). A flight link stays down 2,000,000 clk; traffic moves to a substitute link. Argument: link. -/
  | flightLinkLoss
  /-- `FLIGHT_FLIT_REPLAY` (R365). A flit received with bad CRC is replayed by the sender. Argument: link. -/
  | flightFlitReplay
  /-- `MEMBER_REMOVAL` (R368). A member absent 2,000,000 clk is removed and the epoch advances. Argument: table, rank. -/
  | memberRemoval
  /-- `COLL_COMMIT` (R368). The lowest live rank's commit completes the collective at each member. Argument: the message. -/
  | collCommit
  /-- `POWER_CONTROL_TICK` (R373). Every 2^16 clk the controller raises or lowers one island clock against the cap. Argument: measured, hottest. -/
  | powerControlTick
  /-- `JUNCTION_THROTTLE` (R374). Junction above 105 °C lowers that island's clock. Argument: island. -/
  | junctionThrottle
  /-- `THERMAL_HALT` (R374). Junction at 115 °C halts every core and reports KIND 8. No argument. -/
  | thermalHalt
  /-- `STARTUP` (R369). At each start the controller verifies firmware, trains, self-tests and sets UP. Argument: why. -/
  | startup
  /-- `STARTUP_WATCHDOG` (R369). Start-up not done within 2^36 clk fails with WHY 6. No argument. -/
  | startupWatchdog
  /-- `IDENTIFY` (R362). Mailbox 0xC000 returns part, firmware, package id and torus size. No argument. -/
  | identify
  /-- `GET_STATUS` (R362). Mailbox 0xC001 returns BOOTSTAT, clocks, power and temperatures. Argument: power, temp. -/
  | getStatus
  /-- `STAGE_FIRMWARE` (R369). Mailbox 0xC002 stages a signed firmware image in the background. Argument: valid, version. -/
  | stageFirmware
  /-- `RESET` (R370). Mailbox 0xC003 performs a warm or cold reset. Argument: cold. -/
  | reset
  /-- `CLEAR_START_FAILURES` (R370). Mailbox 0xC004 clears FAILS after a verified staged image. No argument. -/
  | clearStartFailures
  /-- `SET_CONTEXT_ROOT` (R72). Mailbox 0xC010 sets a context's root-table pointer. Argument: ctx, root. -/
  | setContextRoot
  /-- `LOAD_KEY_SLOT` (R69). Mailbox 0xC011 loads or clears a key slot, or sets the key-session lock. Argument: slot, keyval, lock, secured. -/
  | loadKeySlot
  /-- `WRITE_POOL_REGION_ENTRY` (R86). Mailbox 0xC012 writes a pool region entry and changes its state. Argument: id, entry. -/
  | writePoolRegionEntry
  /-- `BIAS_FLIP` (R88). Mailbox 0xC013 flips a page between device and host bias. Argument: ctx, va. -/
  | biasFlip
  /-- `MOVE_PAGE` (R89). Mailbox 0xC014 moves a page to a new DPA. Argument: ctx, va, dpa, retire. -/
  | movePage
  /-- `HOST_SHOOTDOWN` (R82). Mailbox 0xC015 shoots down a translation range. Argument: ctx, va, len, allCtx. -/
  | hostShootdown
  /-- `CONFIGURE_HOST_LAUNCH_RING` (R306). Mailbox 0xC016 sets a ring's size, priority and privilege. Argument: ring, log2n, prio, priv. -/
  | configureHostLaunchRing
  /-- `WRITE_GRAPH_TABLE_SLOT` (R316). Mailbox 0xC017 writes a graph table slot. Argument: slot, va, ctx, count, faultNode. -/
  | writeGraphTableSlot
  /-- `SET_SPILL_AREAS` (R149). Mailbox 0xC018 sets spill areas and the image range. Argument: core, base, bytes, image, imageLen. -/
  | setSpillAreas
  /-- `WRITE_MEMBERSHIP_TABLE` (R367). Mailbox 0xC019 writes a membership table whole. Argument: table, pkgs. -/
  | writeMembershipTable
  /-- `REMOVE_MEMBER` (R368). Mailbox 0xC01A removes a rank from a table. Argument: table, rank. -/
  | removeMember
  /-- `READ_COUNTERS` (R362). Mailbox 0xC020 returns error, loss, malformed and check counters. No argument. -/
  | readCounters
  /-- `READ_FAULT_REPORTS` (R363). Mailbox 0xC021 returns and removes fault report entries. Argument: count. -/
  | readFaultReports
  /-- `HALT_OR_RESUME` (R347). Mailbox 0xC030 halts or resumes cores. Argument: core, resume, temp. -/
  | haltOrResume
  /-- `READBACK` (R372). Mailbox 0xC031 reads halted state through the readback space. Argument: addr. -/
  | readback
  /-- `SET_POWER_CAP` (R373). Mailbox 0xC040 sets the power cap and island clock limits. Argument: cap, island, floor, ceiling. -/
  | setPowerCap
  /-- `SET_DOMAIN_CONFIGURATION` (R364). Mailbox 0xC041 sets the package id and torus size. Argument: id, wx, wy. -/
  | setDomainConfiguration
  /-- `UNSUPPORTED_OPCODE` (R362). An unknown mailbox opcode returns Unsupported. Argument: opcode. -/
  | unsupportedOpcode
  /-- `GET_VERSION` (R371). SPDM GET_VERSION request. No argument. -/
  | getVersion
  /-- `GET_CAPABILITIES` (R371). SPDM GET_CAPABILITIES request. No argument. -/
  | getCapabilities
  /-- `NEGOTIATE_ALGORITHMS` (R371). SPDM NEGOTIATE_ALGORITHMS request. No argument. -/
  | negotiateAlgorithms
  /-- `GET_DIGESTS` (R371). SPDM GET_DIGESTS request. No argument. -/
  | getDigests
  /-- `GET_CERTIFICATE` (R371). SPDM GET_CERTIFICATE request. No argument. -/
  | getCertificate
  /-- `CHALLENGE` (R371). SPDM CHALLENGE request. No argument. -/
  | challenge
  /-- `GET_MEASUREMENTS` (R371). SPDM GET_MEASUREMENTS request returning measurement blocks 1–4. No argument. -/
  | getMeasurements
  /-- `KEY_EXCHANGE` (R371). SPDM KEY_EXCHANGE request opening a session. No argument. -/
  | keyExchange
  /-- `FINISH` (R371). SPDM FINISH request. No argument. -/
  | finish
  /-- `END_SESSION` (R371). SPDM END_SESSION request. No argument. -/
  | endSession
  /-- `HEARTBEAT` (R371). SPDM HEARTBEAT request. No argument. -/
  | heartbeat
  /-- `JTAG_IDCODE` (R372). IEEE 1149.1 IDCODE returns 0x0F85_2A4B. No argument. -/
  | jtagIdcode
  /-- `JTAG_BYPASS` (R372). IEEE 1149.1 BYPASS. No argument. -/
  | jtagBypass
  /-- `JTAG_SAMPLE_PRELOAD` (R372). IEEE 1149.1 SAMPLE/PRELOAD. No argument. -/
  | jtagSamplePreload
  /-- `JTAG_EXTEST` (R372). IEEE 1149.1 EXTEST. No argument. -/
  | jtagExtest
  /-- `JTAG_RBADDR_RBDATA` (R372). Access to the readback space through RBADDR and RBDATA after a debug unlock. Argument: addr. -/
  | jtagRbaddrRbdata
  /-- `LINK_ACTIVE_STATE_CHANGE` (R86). A pool-port or flight link leaves the active state, starting its 2,000,000-count loss timer, or returns to it, cancelling that timer and letting a FAULTED region be brought online again. Argument: flight, link, active. -/
  | linkActiveStateChange
  /-- `IEEE_1149_1_RESUME` (R347). A resume command through the IEEE 1149.1 port restarts halted cores at halt + 8 and every other split where it stopped. Argument: core, temp. -/
  | ieee11491Resume
  /-- `SIGNED_DEBUG_UNLOCK` (R372). A signed debug unlock applied through the mailbox makes RBADDR and RBDATA answer until the next cold reset. Argument: valid. -/
  | signedDebugUnlock
  /-- `SOFT_ERROR` (R166). A soft error strikes a local-store word, a hall-store line, an HBM sector or the matrix array, making the stored bits erroneous. Argument: target, correctable. -/
  | softError
  deriving DecidableEq, Repr

/-- An event and what it brings: a message in flight, work of an engine or a unit, or an input from outside. -/
structure Task where
  op : Instr
  arg : Arg := .none
  deriving DecidableEq, Repr

end Sys2Proof
end

