-- ==== Sys2Proof/Machine/Forms.lean ====
section
/-! DEFINITION. The codes of the fields of a word (R30, R31 and the entries) and the form each instruction's fields
must have (R1, R18, R25-R32). A word whose fields break the form raises ILLEGAL_INSTR or ILLEGAL_PAIR. -/

namespace Sys2Proof

/-- The six bits GE, GN, GR (R16). -/
def Guard.bits (g : Guard) : Nat := g.en.toNat * 32 + g.neg.toNat * 16 + g.reg.toNat

/-- With GE = 0, GN and GR are zero (R19). -/
def Guard.wf (g : Guard) : Bool := g.en || (!g.neg && g.reg == 0)

/-- Codes of R187. -/
def Cond.code : Cond → Nat
  | .eq => 0 | .ne => 1 | .ltI => 2 | .leI => 3 | .gtI => 4 | .geI => 5 | .ltN => 6 | .leN => 7 | .gtN => 8 | .geN => 9

/-- The condition of a code; a code above 9 gives `eq`, whose word differs. -/
def Cond.ofCode : Nat → Cond
  | 1 => .ne | 2 => .ltI | 3 => .leI | 4 => .gtI | 5 => .geI | 6 => .ltN | 7 => .leN | 8 => .gtN | 9 => .geN | _ => .eq

/-- Codes of R224. -/
def FCond.code : FCond → Nat
  | .eq => 0 | .ne => 1 | .lt => 2 | .le => 3 | .gt => 4 | .ge => 5 | .un => 6 | .ord => 7

def FCond.ofCode : Nat → FCond
  | 1 => .ne | 2 => .lt | 3 => .le | 4 => .gt | 5 => .ge | 6 => .un | 7 => .ord | _ => .eq

/-- MOD[1:0] of ICMP and FCMP (R187). -/
def Comb.code : Comb → Nat
  | .none => 0 | .and => 1 | .or => 2 | .xor => 3

def Comb.ofCode : Nat → Comb
  | 1 => .and | 2 => .or | 3 => .xor | _ => .none

/-- SUB of DOT (R229). -/
def DotFmt.code : DotFmt → Nat
  | .bf16 => 0 | .f16 => 1 | .i8 => 2 | .n8 => 3 | .e4m3 => 4 | .e5m2 => 5 | .i4 => 6 | .n4 => 7 | .e2m1 => 8

def DotFmt.ofCode : Nat → DotFmt
  | 1 => .f16 | 2 => .i8 | 3 => .n8 | 4 => .e4m3 | 5 => .e5m2 | 6 => .i4 | 7 => .n4 | 8 => .e2m1 | _ => .bf16

/-- SUB of QPK, QUPK and MXSC (R231-R233). -/
def QFmt.code : QFmt → Nat
  | .e4m3 => 0 | .e5m2 => 1 | .e2m1 => 2 | .i8 => 3

def QFmt.ofCode : Nat → QFmt
  | 1 => .e5m2 | 2 => .e2m1 | 3 => .i8 | _ => .e4m3

/-- Elements of a packed register, and registers of the group (R231). -/
def QFmt.count : QFmt → Nat
  | .e2m1 => 8 | _ => 4

def ShflKind.code : ShflKind → Nat
  | .idx => 0 | .up => 1 | .dn => 2 | .xor => 3

def ShflKind.ofCode : Nat → ShflKind
  | 1 => .up | 2 => .dn | 3 => .xor | _ => .idx

def ShflFate.code : ShflFate → Nat
  | .own => 0 | .zero => 1 | .wrap => 2 | .clamp => 3

def ShflFate.ofCode : Nat → ShflFate
  | 1 => .zero | 2 => .wrap | 3 => .clamp | _ => .own

/-- SUB of LRED and LSCAN (R212). -/
def LaneOp.code : LaneOp → Nat
  | .addI => 0 | .minI => 1 | .maxI => 2 | .minN => 3 | .maxN => 4 | .and => 5 | .or => 6 | .xor => 7
  | .fadd => 8 | .fmax => 9 | .fmin => 10

def LaneOp.ofCode : Nat → LaneOp
  | 1 => .minI | 2 => .maxI | 3 => .minN | 4 => .maxN | 5 => .and | 6 => .or | 7 => .xor
  | 8 => .fadd | 9 => .fmax | 10 => .fmin | _ => .addI

/-- SZ codes (R31). -/
def Sz.code : Sz → Nat
  | .i8 => 0 | .n8 => 1 | .i16 => 2 | .n16 => 3 | .w => 4 | .d => 5 | .q => 6

def Sz.ofCode : Nat → Sz
  | 1 => .n8 | 2 => .i16 | 3 => .n16 | 4 => .w | 5 => .d | 6 => .q | _ => .i8

/-- Bytes of an access (R173). -/
def Sz.bytes : Sz → Nat
  | .i8 => 1 | .n8 => 1 | .i16 => 2 | .n16 => 2 | .w => 4 | .d => 8 | .q => 16

/-- Registers of an access (R173). -/
def Sz.regs : Sz → Nat
  | .d => 2 | .q => 4 | _ => 1

/-- AOP codes (R31). -/
def Aop.code : Aop → Nat
  | .add => 0 | .minI => 1 | .maxI => 2 | .minN => 3 | .maxN => 4 | .and => 5 | .or => 6 | .xor => 7
  | .xchg => 8 | .cas => 9 | .faddF32 => 10 | .faddBf16 => 11 | .fminF32 => 12 | .fmaxF32 => 13 | .minN64 => 14

def Aop.ofCode : Nat → Aop
  | 1 => .minI | 2 => .maxI | 3 => .minN | 4 => .maxN | 5 => .and | 6 => .or | 7 => .xor
  | 8 => .xchg | 9 => .cas | 10 => .faddF32 | 11 => .faddBf16 | 12 => .fminF32 | 13 => .fmaxF32 | 14 => .minN64 | _ => .add

/-- SUB of CPT (R132). -/
def TileOp.code : TileOp → Nat
  | .none => 0 | .add => 1 | .min => 2 | .max => 3 | .and => 4 | .or => 5 | .xor => 6

def TileOp.ofCode : Nat → TileOp
  | 1 => .add | 2 => .min | 3 => .max | 4 => .and | 5 => .or | 6 => .xor | _ => .none

/-- POP codes (R22). -/
def PairOp.code : PairOp → Nat
  | .add => 1 | .sub => 2 | .and => 3 | .or => 4 | .xor => 5 | .shl => 6 | .shr => 7 | .sra => 8 | .minI => 9
  | .maxI => 10 | .minN => 11 | .maxN => 12 | .mov => 13 | .fadd => 14 | .fmul => 15 | .fmin => 16 | .fmax => 17

def PairOp.ofCode : Nat → PairOp
  | 2 => .sub | 3 => .and | 4 => .or | 5 => .xor | 6 => .shl | 7 => .shr | 8 => .sra | 9 => .minI
  | 10 => .maxI | 11 => .minN | 12 => .maxN | 13 => .mov | 14 => .fadd | 15 => .fmul | 16 => .fmin | 17 => .fmax | _ => .add

/-- A v- or c-register number (R25). -/
def okV (r : RegNo) : Bool := decide (r.toNat < 320)

/-- A channel register (R25). -/
def isChannel (r : RegNo) : Bool := decide (320 ≤ r.toNat) && decide (r.toNat < 336)

/-- A special of R26. -/
def isSpecial (r : RegNo) : Bool := decide (352 ≤ r.toNat) && decide (r.toNat ≤ 378)

/-- `zero` (R25). -/
def isZero (r : RegNo) : Bool := decide (r.toNat = 384)

/-- A 32-bit source of an RRR or RI instruction (R25, R29). -/
def okSrc (r : RegNo) : Bool := okV r || isChannel r || isSpecial r || isZero r

/-- A 32-bit destination of an RRR or RI instruction (R25, R26, R29). -/
def okDst (r : RegNo) : Bool := okV r || isChannel r || isZero r

/-- A 32-bit source of an M-format instruction (R29). -/
def okMSrc (r : RegNo) : Bool := okV r || isSpecial r || isZero r

/-- A link register, or a 32-bit destination outside RRR and RI (R29, R204). -/
def okLink (r : RegNo) : Bool := okV r || isZero r

/-- A group of `n` registers at a multiple of `n`, below 320 (R28, R219). -/
def okGroup (n : Nat) (r : RegNo) : Bool := decide (r.toNat % n = 0) && decide (r.toNat + n ≤ 320)

/-- A 64-bit pair (R1, R28). -/
def okPair (r : RegNo) : Bool := okGroup 2 r

/-- The destination of `ld`, `ldk`, `ldix` (R173). -/
def okVGroup (n : Nat) (r : RegNo) : Bool := if n = 1 then okV r else okGroup n r

/-- The data operand of `st`, `pst`, `pub`, `atl` (R173). -/
def okMData (n : Nat) (r : RegNo) : Bool := if n = 1 then okMSrc r else okGroup n r

/-- The accepted combinations of `atm` (R269). -/
def okAtm (sz : Sz) (aop : Aop) (d b : RegNo) : Bool :=
  match sz, aop with
  | .w, .minN64 => false
  | .w, .cas => okLink d && okGroup 2 b
  | .w, _ => okLink d && okMSrc b
  | .d, .xchg => okPair d && okPair b
  | .d, .minN64 => okPair d && okPair b
  | .d, .cas => okPair d && okGroup 4 b
  | _, _ => false

/-- The accepted combinations of `red` (R270). -/
def okRed (sz : Sz) (aop : Aop) (b : RegNo) : Bool :=
  match sz, aop with
  | .w, .minN64 => false
  | .w, .cas => false
  | .w, .xchg => false
  | .w, _ => okMSrc b
  | .d, .minN64 => okPair b
  | _, _ => false

/-- The forms of MXL (R249). -/
def okMxl (latch : BitVec 3) (transp : Bool) (esz : BitVec 2) (b : RegNo) : Bool :=
  if latch.toNat ≥ 4 then !transp && esz == 0 && b == 0
  else okSrc b && (if transp then decide (2 ≤ latch.toNat) && decide (esz.toNat ≤ 1) else esz == 0)

/-- No channel stands in two source fields (R29). -/
def distinctChannels : List RegNo → Bool
  | [] => true
  | r :: rs => (!isChannel r || rs.all (fun q => q != r)) && distinctChannels rs

/-- A valid slot of a pair word with destination parity `odd` (R23). -/
def slotOk (odd : Bool) (s : PairSlot) : Bool :=
  decide (s.d.toNat % 2 = odd.toNat) && okV s.d && (s.imm || okV s.b)

/-- The form of a pair word (R23). -/
def pairOk (x : PairSlot) (y : Option PairSlot) : Bool :=
  slotOk false x && (match y with | none => true | some y => slotOk true y)

/-- The CSR numbers of R330. -/
def isCsr (n : BitVec 12) : Bool :=
  let k := n.toNat
  decide (k ≤ 0xB) || (decide (0x10 ≤ k) && decide (k ≤ 0x19)) || (decide (0x20 ≤ k) && decide (k ≤ 0x24)) ||
  (decide (0x40 ≤ k) && decide (k ≤ 0x43)) || k == 0x50 || (decide (0x60 ≤ k) && decide (k ≤ 0x64)) || k == 0x80

/-- The CSRs that a write, set or clear may name: RW, and DFR0 (R330). -/
def csrWritable (n : BitVec 12) : Bool :=
  let k := n.toNat
  isCsr n && !(k == 0x000 || k == 0x004 || k == 0x005 || k == 0x006 || k == 0x007 || (decide (0x11 ≤ k) && decide (k ≤ 0x19)) ||
    k == 0x043 || k == 0x050 || k == 0x080)

/-- The system CSRs (R330, R33). -/
def csrSystem (n : BitVec 12) : Bool :=
  let k := n.toNat
  k == 0x40 || k == 0x41 || k == 0x42 || (decide (0x60 ≤ k) && decide (k ≤ 0x64))

/-- Every field of the instruction has a form its entry allows; an event has no word and no form to break. -/
def Instr.formOk : Instr → Bool
  | .add g d a b => g.wf && okDst d && okSrc a && okSrc b && distinctChannels [a, b]
  | .sub g d a b => g.wf && okDst d && okSrc a && okSrc b && distinctChannels [a, b]
  | .addSatI32 g d a b => g.wf && okDst d && okSrc a && okSrc b && distinctChannels [a, b]
  | .subSatI32 g d a b => g.wf && okDst d && okSrc a && okSrc b && distinctChannels [a, b]
  | .addSatN32 g d a b => g.wf && okDst d && okSrc a && okSrc b && distinctChannels [a, b]
  | .subSatN32 g d a b => g.wf && okDst d && okSrc a && okSrc b && distinctChannels [a, b]
  | .addCy g d a b c => g.wf && okDst d && okSrc a && okSrc b && okSrc c && distinctChannels [a, b, c]
  | .cy g d a b c => g.wf && okDst d && okSrc a && okSrc b && okSrc c && distinctChannels [a, b, c]
  | .add64 g d a b => g.wf && okPair d && okPair a && okPair b
  | .sub64 g d a b => g.wf && okPair d && okPair a && okPair b
  | .mul g d a b => g.wf && okDst d && okSrc a && okSrc b && distinctChannels [a, b]
  | .mulhI32 g d a b => g.wf && okDst d && okSrc a && okSrc b && distinctChannels [a, b]
  | .mulhN32 g d a b => g.wf && okDst d && okSrc a && okSrc b && distinctChannels [a, b]
  | .mad g d a b c => g.wf && okDst d && okSrc a && okSrc b && okSrc c && distinctChannels [a, b, c]
  | .mulwI32 g d a b => g.wf && okPair d && okSrc a && okSrc b && distinctChannels [a, b]
  | .mulwN32 g d a b => g.wf && okPair d && okSrc a && okSrc b && distinctChannels [a, b]
  | .madwN32 g d a b c => g.wf && okPair d && okSrc a && okSrc b && okPair c && distinctChannels [a, b]
  | .madwI32 g d a b c => g.wf && okPair d && okSrc a && okSrc b && okPair c && distinctChannels [a, b]
  | .minI32 g d a b => g.wf && okDst d && okSrc a && okSrc b && distinctChannels [a, b]
  | .maxI32 g d a b => g.wf && okDst d && okSrc a && okSrc b && distinctChannels [a, b]
  | .minN32 g d a b => g.wf && okDst d && okSrc a && okSrc b && distinctChannels [a, b]
  | .maxN32 g d a b => g.wf && okDst d && okSrc a && okSrc b && distinctChannels [a, b]
  | .abs g d a => g.wf && okDst d && okSrc a
  | .neg g d a => g.wf && okDst d && okSrc a
  | .sad g d a b c => g.wf && okDst d && okSrc a && okSrc b && okSrc c && distinctChannels [a, b, c]
  | .sadN32 g d a b c => g.wf && okDst d && okSrc a && okSrc b && okSrc c && distinctChannels [a, b, c]
  | .and g d a b => g.wf && okDst d && okSrc a && okSrc b && distinctChannels [a, b]
  | .or g d a b => g.wf && okDst d && okSrc a && okSrc b && distinctChannels [a, b]
  | .xor g d a b => g.wf && okDst d && okSrc a && okSrc b && distinctChannels [a, b]
  | .andn g d a b => g.wf && okDst d && okSrc a && okSrc b && distinctChannels [a, b]
  | .orn g d a b => g.wf && okDst d && okSrc a && okSrc b && distinctChannels [a, b]
  | .lop3 g _ d a b c => g.wf && okDst d && okSrc a && okSrc b && okSrc c && distinctChannels [a, b, c]
  | .shl g d a b => g.wf && okDst d && okSrc a && okSrc b && distinctChannels [a, b]
  | .shr g d a b => g.wf && okDst d && okSrc a && okSrc b && distinctChannels [a, b]
  | .sra g d a b => g.wf && okDst d && okSrc a && okSrc b && distinctChannels [a, b]
  | .rol g d a b => g.wf && okDst d && okSrc a && okSrc b && distinctChannels [a, b]
  | .ror g d a b => g.wf && okDst d && okSrc a && okSrc b && distinctChannels [a, b]
  | .fsl g d a b c => g.wf && okDst d && okSrc a && okSrc b && okSrc c && distinctChannels [a, b, c]
  | .fsr g d a b c => g.wf && okDst d && okSrc a && okSrc b && okSrc c && distinctChannels [a, b, c]
  | .popc g d a => g.wf && okDst d && okSrc a
  | .clz g d a => g.wf && okDst d && okSrc a
  | .ctz g d a => g.wf && okDst d && okSrc a
  | .brev g d a => g.wf && okDst d && okSrc a
  | .bfxI32 g d a c => g.wf && okDst d && okSrc a && okSrc c && distinctChannels [a, c]
  | .bfxN32 g d a c => g.wf && okDst d && okSrc a && okSrc c && distinctChannels [a, c]
  | .bfi g d a b c => g.wf && okDst d && okSrc a && okSrc b && okSrc c && distinctChannels [a, b, c]
  | .bil2 g d a b => g.wf && okDst d && okSrc a && okSrc b && distinctChannels [a, b]
  | .bil3 g d a b c => g.wf && okDst d && okSrc a && okSrc b && okSrc c && distinctChannels [a, b, c]
  | .bdl3 g d a b => g.wf && okDst d && okSrc a && okSrc b && distinctChannels [a, b]
  | .bdl2 g d a b => g.wf && okDst d && okSrc a && okSrc b && distinctChannels [a, b]
  | .icmp g _ comb pred d a b c => g.wf && okSrc a && okSrc b && ((if pred then decide (d.toNat < 32) && decide (c.toNat < 32) else okDst d && okSrc c) && (comb != .none || c == 0)) && distinctChannels [a, b, c]
  | .sel g d a b c => g.wf && okDst d && okSrc a && okSrc b && okSrc c && distinctChannels [a, b, c]
  | .sxt8 g d a => g.wf && okDst d && okSrc a
  | .sxt16 g d a => g.wf && okDst d && okSrc a
  | .zxt8 g d a => g.wf && okDst d && okSrc a
  | .zxt16 g d a => g.wf && okDst d && okSrc a
  | .prm g d a b c => g.wf && okDst d && okSrc a && okSrc b && okSrc c && distinctChannels [a, b, c]
  | .bswp g d a => g.wf && okDst d && okSrc a
  | .divI32 g d a b => g.wf && okDst d && okSrc a && okSrc b && distinctChannels [a, b]
  | .divN32 g d a b => g.wf && okDst d && okSrc a && okSrc b && distinctChannels [a, b]
  | .remI32 g d a b => g.wf && okDst d && okSrc a && okSrc b && distinctChannels [a, b]
  | .remN32 g d a b => g.wf && okDst d && okSrc a && okSrc b && distinctChannels [a, b]
  | .mov g d a => g.wf && okDst d && okSrc a
  | .mov64 g d a => g.wf && okPair d && okPair a
  | .mpadd g dig d a b => g.wf && okPair d && okPair a && okSrc b && (decide (5 ≤ dig.toNat) && decide (dig.toNat ≤ 21))
  | .mpmk g d a b => g.wf && okPair d && okSrc a && okSrc b && distinctChannels [a, b]
  | .mpcore g d a => g.wf && okDst d && okPair a
  | .mpoff g d a => g.wf && okDst d && okPair a
  | .mploc g d a => g.wf && okDst d && okPair a
  | .addi g _ d a => g.wf && okDst d && okSrc a
  | .muli g _ d a => g.wf && okDst d && okSrc a
  | .andi g _ d a => g.wf && okDst d && okSrc a
  | .ori g _ d a => g.wf && okDst d && okSrc a
  | .xori g _ d a => g.wf && okDst d && okSrc a
  | .movi g _ d => g.wf && okDst d
  | .icmpi g _ _ d a => g.wf && okDst d && okSrc a
  | .shli g _ d a => g.wf && okDst d && okSrc a
  | .shri g _ d a => g.wf && okDst d && okSrc a
  | .srai g _ d a => g.wf && okDst d && okSrc a
  | .miniI32 g _ d a => g.wf && okDst d && okSrc a
  | .maxiI32 g _ d a => g.wf && okDst d && okSrc a
  | .addi64 g _ d a => g.wf && okPair d && okPair a
  | .pairWord x y => pairOk x y
  | .fadd g _ d a b => g.wf && okDst d && okSrc a && okSrc b && distinctChannels [a, b]
  | .fsub g _ d a b => g.wf && okDst d && okSrc a && okSrc b && distinctChannels [a, b]
  | .fmul g _ d a b => g.wf && okDst d && okSrc a && okSrc b && distinctChannels [a, b]
  | .ffma g _ d a b c => g.wf && okDst d && okSrc a && okSrc b && okSrc c && distinctChannels [a, b, c]
  | .ffms g _ d a b c => g.wf && okDst d && okSrc a && okSrc b && okSrc c && distinctChannels [a, b, c]
  | .fnma g _ d a b c => g.wf && okDst d && okSrc a && okSrc b && okSrc c && distinctChannels [a, b, c]
  | .fnms g _ d a b c => g.wf && okDst d && okSrc a && okSrc b && okSrc c && distinctChannels [a, b, c]
  | .fmin g d a b => g.wf && okDst d && okSrc a && okSrc b && distinctChannels [a, b]
  | .fmax g d a b => g.wf && okDst d && okSrc a && okSrc b && distinctChannels [a, b]
  | .fminp g d a b => g.wf && okDst d && okSrc a && okSrc b && distinctChannels [a, b]
  | .fmaxp g d a b => g.wf && okDst d && okSrc a && okSrc b && distinctChannels [a, b]
  | .fcmp g _ comb pred d a b c => g.wf && okSrc a && okSrc b && ((if pred then decide (d.toNat < 32) && decide (c.toNat < 32) else okDst d && okSrc c) && (comb != .none || c == 0)) && distinctChannels [a, b, c]
  | .frcp g d a => g.wf && okDst d && okSrc a
  | .frsq g d a => g.wf && okDst d && okSrc a
  | .fsqrt g d a => g.wf && okDst d && okSrc a
  | .fex2 g d a => g.wf && okDst d && okSrc a
  | .flg2 g d a => g.wf && okDst d && okSrc a
  | .fsinp g d a => g.wf && okDst d && okSrc a
  | .fcosp g d a => g.wf && okDst d && okSrc a
  | .ftanh g d a => g.wf && okDst d && okSrc a
  | .fdiv g d a b => g.wf && okDst d && okSrc a && okSrc b && distinctChannels [a, b]
  | .fcls g d a => g.wf && okDst d && okSrc a
  | .fscl g d a b => g.wf && okDst d && okSrc a && okSrc b && distinctChannels [a, b]
  | .frint g _ d a => g.wf && okDst d && okSrc a
  | .ffrac g d a => g.wf && okDst d && okSrc a
  | .fcpsgn g d a b => g.wf && okDst d && okSrc a && okSrc b && distinctChannels [a, b]
  | .hadd g _ d a b => g.wf && okDst d && okSrc a && okSrc b && distinctChannels [a, b]
  | .hsub g _ d a b => g.wf && okDst d && okSrc a && okSrc b && distinctChannels [a, b]
  | .hmul g _ d a b => g.wf && okDst d && okSrc a && okSrc b && distinctChannels [a, b]
  | .hfma g _ d a b c => g.wf && okDst d && okSrc a && okSrc b && okSrc c && distinctChannels [a, b, c]
  | .hmin g _ d a b => g.wf && okDst d && okSrc a && okSrc b && distinctChannels [a, b]
  | .hmax g _ d a b => g.wf && okDst d && okSrc a && okSrc b && distinctChannels [a, b]
  | .dot g _ d a b c => g.wf && okDst d && okSrc a && okSrc b && okSrc c && distinctChannels [a, b, c]
  | .cvt g code idx d a b => g.wf && okDst d && okSrc a && (decide (code.toNat ≤ 26) && (code == 26 || idx == 0) && (if code == 8 || code == 9 then okSrc b else b == 0)) && distinctChannels [a, b]
  | .qpk g fmt d a b => g.wf && okDst d && okSrc b && okGroup fmt.count a && distinctChannels [a, b]
  | .qupk g fmt d a b => g.wf && okSrc a && okSrc b && okGroup fmt.count d && distinctChannels [a, b]
  | .mxsc g fmt d a => g.wf && okDst d && okSrc a && fmt != .i8
  | .shfl g _ width _ d a b => g.wf && okDst d && okSrc a && okSrc b && (decide (width.toNat ≤ 5)) && distinctChannels [a, b]
  | .voteAny g d a => g.wf && okDst d && okSrc a
  | .voteAll g d a => g.wf && okDst d && okSrc a
  | .voteUni g d a => g.wf && okDst d && okSrc a
  | .ballot g d a => g.wf && okDst d && okSrc a
  | .matchLanes g d a => g.wf && okDst d && okSrc a
  | .lred g _ d a => g.wf && okDst d && okSrc a
  | .lscan g _ _ d a => g.wf && okDst d && okSrc a
  | .lmask g d => g.wf && okDst d
  | .lbelow g d => g.wf && okDst d
  | .lcnt g d => g.wf && okDst d
  | .lfirst g d => g.wf && okDst d
  | .elect g d => g.wf && okDst d
  | .ld g sz _ d a => g.wf && okMSrc a && okVGroup sz.regs d
  | .st g sz _ a b => g.wf && okMSrc a && okMData sz.regs b
  | .ldk g sz _ d a => g.wf && okMSrc a && okVGroup sz.regs d
  | .ldix g sz _ d a b => g.wf && okMSrc a && okMSrc b && okVGroup sz.regs d
  | .atl g aop _ _ d a b => g.wf && okLink d && okMSrc a && (decide (aop.code ≤ 10) && okMData (if aop == .cas then 2 else 1) b)
  | .atm g sz aop _ _ d a b => g.wf && okPair a && okAtm sz aop d b
  | .red g sz aop _ _ _ a b => g.wf && okPair a && okRed sz aop b
  | .pst g sz _ a b => g.wf && okPair a && okMData sz.regs b
  | .lease g _ d a => g.wf && okLink d && okPair a
  | .lrel g d => g.wf && okLink d
  | .pub g sz _ a b => g.wf && okPair a && (decide (4 ≤ sz.code) && okMData sz.regs b)
  | .subs g d a => g.wf && okDst d && okSrc a
  | .unsub g d a => g.wf && okDst d && okSrc a
  | .lndInit g _ a b c => g.wf && okSrc a && okSrc b && okSrc c && distinctChannels [a, b, c]
  | .lndArr g d a b => g.wf && okDst d && okSrc a && okSrc b && distinctChannels [a, b]
  | .lndExp g d a b => g.wf && okDst d && okSrc a && okSrc b && distinctChannels [a, b]
  | .lndWait g d a b => g.wf && okDst d && okSrc a && okSrc b && distinctChannels [a, b]
  | .lndTest g d a b => g.wf && okDst d && okSrc a && okSrc b && distinctChannels [a, b]
  | .lndInv g d a => g.wf && okDst d && okSrc a
  | .ringInit g _ a b c => g.wf && okSrc a && okSrc b && okSrc c && distinctChannels [a, b, c]
  | .ringRsv g d a => g.wf && okPair d && okPair a
  | .ringCmt g d a b => g.wf && okDst d && okPair a && okPair b
  | .ringAtt g d a => g.wf && okDst d && okPair a
  | .ringWait g d a b => g.wf && okPair d && okPair a && okSrc b
  | .ringRel g d a b => g.wf && okDst d && okPair a && okSrc b
  | .ringDet g d a b => g.wf && okDst d && okPair a && okSrc b
  | .cntInit g d a b => g.wf && okDst d && okSrc a && okSrc b && distinctChannels [a, b]
  | .cntDec g a b => g.wf && okSrc a && okSrc b && distinctChannels [a, b]
  | .cntRdec g a b => g.wf && okPair a && okSrc b
  | .cntRd g d a => g.wf && okDst d && okSrc a
  | .cp g _ _ d a b c => g.wf && okPair d && okPair a && okPair b && (decide (c.toNat ≤ 318))
  | .cpt g _ d a b c => g.wf && okPair d && okSrc a && okPair b && okPair c
  | .cpg g sz d a b c => g.wf && okPair d && okPair a && okPair b && okSrc c && sz != 3
  | .collAllred g d a => g.wf && okPair d && okSrc a
  | .collRedsct g d a => g.wf && okPair d && okSrc a
  | .collAllgat g d a => g.wf && okPair d && okSrc a
  | .collBcast g d a => g.wf && okPair d && okSrc a
  | .cpqSt g d => g.wf && okDst d
  | .cpqCnl g d a => g.wf && okDst d && okPair a
  | .cpqFr g _ d a => g.wf && okGroup 4 d && okSrc a
  | .twait g d a b c => g.wf && okDst d && okPair a && okPair b && okSrc c
  | .barSync a b => okSrc a && okSrc b && distinctChannels [a, b]
  | .barArr d a b => okDst d && okSrc a && okSrc b && distinctChannels [a, b]
  | .barWait a b => okSrc a && okSrc b && distinctChannels [a, b]
  | .cbarSync g scope d => g.wf && okDst d && (decide (3 ≤ scope.toNat) && decide (scope.toNat ≤ 5))
  | .cbarMax g scope d a => g.wf && okDst d && okSrc a && (decide (3 ≤ scope.toNat) && decide (scope.toNat ≤ 5))
  | .cbarMaxn g scope d a => g.wf && okDst d && okSrc a && (decide (3 ≤ scope.toNat) && decide (scope.toNat ≤ 5))
  | .cbarAdd g scope d a => g.wf && okDst d && okSrc a && (decide (3 ≤ scope.toNat) && decide (scope.toNat ≤ 5))
  | .cbarMin g scope d a => g.wf && okDst d && okSrc a && (decide (3 ≤ scope.toNat) && decide (scope.toNat ≤ 5))
  | .acq g _ d a b => g.wf && okDst d && okPair a && okSrc b
  | .rel g _ d a => g.wf && okDst d && okPair a
  | .bind g d a b c => g.wf && okDst d && okPair a && okPair b && okSrc c
  | .fence g mask _ => g.wf && mask != 0
  | .slpUntil g a => g.wf && okPair a
  | .slpFor g a => g.wf && okSrc a
  | .yield g => g.wf
  | .mxal g a => g.wf && okSrc a
  | .mxfr g => g.wf
  | .mxl g latch transp esz a b => g.wf && okSrc a && okMxl latch transp esz b && distinctChannels [a, b]
  | .mxg g _ a b => g.wf && okSrc a && okSrc b && distinctChannels [a, b]
  | .mma g _ _ _ _ half nc a b => g.wf && okSrc a && okSrc b && ((half || !nc)) && distinctChannels [a, b]
  | .mxs g ty a b c => g.wf && okSrc a && okSrc b && (decide (ty.toNat ≤ 5) && decide (c.toNat ≤ 318)) && distinctChannels [a, b, c]
  | .mxr g d b c => g.wf && okGroup 8 d && okSrc b && okSrc c && distinctChannels [b, c]
  | .mxw g a b c => g.wf && okGroup 8 a && okSrc b && okSrc c && distinctChannels [b, c]
  | .mxz g b => g.wf && okSrc b
  | .turnTake g => g.wf
  | .turnGive g => g.wf
  | .turnWho g d => g.wf && okDst d
  | .climb g d a b c => g.wf && okDst d && okGroup 8 a && okSrc b && okPair c
  | .nbox g _ => g.wf
  | .ntri g _ => g.wf
  | .nlink g => g.wf
  | .hop g a => g.wf && okSrc a
  | .cand g => g.wf
  | .rsync g => g.wf
  | .fin g => g.wf
  | .emit g d a b => g.wf && okDst d && okSrc a && okGroup 4 b
  | .emith g d a b c => g.wf && okDst d && okSrc a && okGroup 4 b && okSrc c && distinctChannels [a, c]
  | .graphRsv g here d a b c => g.wf && okDst d && okSrc a && okSrc b && ((if here then okSrc c else c == 0)) && distinctChannels [a, b, c]
  | .gdone g a => g.wf && okSrc a
  | .take g d => g.wf && okGroup 4 d
  | .lnch g d a => g.wf && okDst d && okPair a
  | .lnchw g d a => g.wf && okDst d && okPair a
  | .pair g d a => g.wf && okDst d && okSrc a
  | .unpair g d => g.wf && okDst d
  | .fpck g d => g.wf && okPair d
  | .br g _ _ _ => g.wf
  | .call g _ _ _ d => g.wf && okLink d
  | .jmpi g _ a => g.wf && okV a
  | .ret g _ a => g.wf && okV a
  | .join _ => true
  | .exit g => g.wf
  | .trap g _ => g.wf
  | .brk g _ => g.wf
  | .eret => true
  | .nop g => g.wf
  | .csrRd g csr d => g.wf && okDst d && isCsr csr
  | .csrWr g csr d a => g.wf && okDst d && okSrc a && csrWritable csr
  | .csrSet g csr d a => g.wf && okDst d && okSrc a && csrWritable csr
  | .csrClr g csr d a => g.wf && okDst d && okSrc a && csrWritable csr
  | .mark g _ => g.wf
  | .tlbi g _ d a => g.wf && okLink d && okGroup 4 a
  | .ctxsv g d a => g.wf && okLink d && okGroup 4 a
  | .ctxld g d a => g.wf && okLink d && okGroup 4 a
  | .halt g => g.wf
  | .haltAll g => g.wf
  | .dfr0Clear => true
  | .sampctlWrite => true
  | .cregWrite => true
  | .ifwIfhWrite => true
  | .tvecWrite => true
  | .xbndWrite => true
  | .leasemaxWrite => true
  | .fpintWrite => true
  | .csrPlainWrite => true
  | .splitMerge => true
  | .joinTimeout => true
  | .sleepExpiry => true
  | .promiseExpiry => true
  | .issueSelect => true
  | .fetchBlock => true
  | .lsPoisonSeal => true
  | .supervisorPlace => true
  | .launchEndOnFault => true
  | .accGrant => true
  | .turnGrant => true
  | .mmaExecution => true
  | .leaseAbortPoint => true
  | .leaseDeadline => true
  | .leaseRequest => true
  | .leaseGrant => true
  | .leaseCommit => true
  | .leaseAnswer => true
  | .leaseAbort => true
  | .undeliverableNotice => true
  | .preemptionSealFrameCommand => true
  | .postedStore => true
  | .atomicRequest => true
  | .canopyUpdate => true
  | .reductionDevice => true
  | .publishWrite => true
  | .copyReadRequest => true
  | .copyLineWrite => true
  | .subscriptionControl => true
  | .homeFillWriteback => true
  | .graphMessage => true
  | .atomicResult => true
  | .lineData => true
  | .subscriptionUpdate => true
  | .writeAcknowledgement => true
  | .faultReply => true
  | .channelWord => true
  | .channelCreditReturn => true
  | .ray => true
  | .anyHitCandidate => true
  | .hitMinimum => true
  | .counterDecrement => true
  | .lsReductionAtomic => true
  | .pendingCountEnd => true
  | .raySpillWrite => true
  | .raySpillReload => true
  | .treeletPageInFill => true
  | .preemptionSaveRestoreLine => true
  | .malformedMessage => true
  | .watch => true
  | .watchRetry => true
  | .creditRetry => true
  | .cbarArrival => true
  | .copyAccept => true
  | .copyLineTransfer => true
  | .pageWalk => true
  | .shootdownComplete => true
  | .patrolScrub => true
  | .poolLinkLoss => true
  | .backInvalidationSnoop => true
  | .hostCxlMemWrite => true
  | .hostCxlMemRead => true
  | .hostCxlCacheSnoop => true
  | .hostRingCommit => true
  | .launchSubmit => true
  | .gangPlace => true
  | .gangPreempt => true
  | .groupResume => true
  | .launchCompletion => true
  | .pageMoveCopyDone => true
  | .climberContextEntry => true
  | .climberIssue => true
  | .climberSlotFree => true
  | .canopyLookup => true
  | .pageInComplete => true
  | .pagingReread => true
  | .pagingWaiterTimeout => true
  | .replicationThreshold => true
  | .visitCountClear => true
  | .takeCoaltExpiry => true
  | .pairIntervalClose => true
  | .pairTimeout => true
  | .sampleInstant => true
  | .clockAlignmentExchange => true
  | .flightLinkLoss => true
  | .flightFlitReplay => true
  | .memberRemoval => true
  | .collCommit => true
  | .powerControlTick => true
  | .junctionThrottle => true
  | .thermalHalt => true
  | .startup => true
  | .startupWatchdog => true
  | .identify => true
  | .getStatus => true
  | .stageFirmware => true
  | .reset => true
  | .clearStartFailures => true
  | .setContextRoot => true
  | .loadKeySlot => true
  | .writePoolRegionEntry => true
  | .biasFlip => true
  | .movePage => true
  | .hostShootdown => true
  | .configureHostLaunchRing => true
  | .writeGraphTableSlot => true
  | .setSpillAreas => true
  | .writeMembershipTable => true
  | .removeMember => true
  | .readCounters => true
  | .readFaultReports => true
  | .haltOrResume => true
  | .readback => true
  | .setPowerCap => true
  | .setDomainConfiguration => true
  | .unsupportedOpcode => true
  | .getVersion => true
  | .getCapabilities => true
  | .negotiateAlgorithms => true
  | .getDigests => true
  | .getCertificate => true
  | .challenge => true
  | .getMeasurements => true
  | .keyExchange => true
  | .finish => true
  | .endSession => true
  | .heartbeat => true
  | .jtagIdcode => true
  | .jtagBypass => true
  | .jtagSamplePreload => true
  | .jtagExtest => true
  | .jtagRbaddrRbdata => true
  | .linkActiveStateChange => true
  | .ieee11491Resume => true
  | .signedDebugUnlock => true
  | .softError => true

end Sys2Proof
end

