-- ==== Sys2Proof/WellFormed.lean ====
section
/-! DEFINITION. Well-formed instructions: the checks of R34, step 2, on the fields of a word. -/

namespace Sys2Proof

/-- The instruction's fields have a form the spec allows (R18, R23, R25-R32). -/
def Instr.wf (i : Instr) : Bool := i.formOk

end Sys2Proof
end

