-- ==== Sys2Proof/Decode.lean ====
section
/-! DEFINITION. The decoder, total on any bytes, and the encoder, both from R15-R31 and the entries.
A word is read as a number. The decoder picks the constructor by MAJ and SUB, fills its fields, and accepts the word
only where the fields have their form and the encoder gives the word back: a nonzero reserved bit, an unassigned SUB or
a nonzero unused field (R18, R30) gives a different word and is rejected. -/

namespace Sys2Proof

/-- Why a word is rejected (R34, step 2). -/
inductive DecodeError where
  | illegalInstr
  | illegalPair
  deriving DecidableEq, Repr

/-- A single word from its upper fields and its low 32 bits (R16). -/
def single (maj : Nat) (g : Guard) (d a low : Nat) : Nat :=
  maj * 2 ^ 56 + g.bits * 2 ^ 50 + d * 2 ^ 41 + a * 2 ^ 32 + low

/-- Format RRR (R17). -/
def rrrWord (maj : Nat) (g : Guard) (d a b c sub mod : Nat) : Nat :=
  single maj g d a (b * 2 ^ 23 + c * 2 ^ 14 + sub * 2 ^ 8 + mod)

/-- Format M with SCOPE zero (R17). -/
def mWord (maj : Nat) (g : Guard) (d a b sz off : Nat) : Nat :=
  single maj g d a (b * 2 ^ 23 + sz * 2 ^ 16 + off)

/-- Format M, atomic (R17). -/
def atWord (maj : Nat) (g : Guard) (d a b scope sz aop ord off : Nat) : Nat :=
  single maj g d a (b * 2 ^ 23 + scope * 2 ^ 20 + sz * 2 ^ 16 + aop * 2 ^ 12 + ord * 2 ^ 10 + off)

/-- Format C (R17). -/
def cWord (maj : Nat) (g : Guard) (d a disp mod : Nat) : Nat :=
  single maj g d a (disp * 2 ^ 8 + mod)

/-- The 25 significant bits of a slot: POP, D, B, I (R21). -/
def slotBits (s : PairSlot) : Nat :=
  s.op.code * 2 ^ 19 + s.d.toNat * 2 ^ 10 + s.b.toNat * 2 + s.imm.toNat

/-- A pair word (R21). -/
def pairBits (x : PairSlot) (y : Option PairSlot) : Nat :=
  2 ^ 63 + slotBits x * 2 ^ 38 + (match y with | none => 0 | some y => 2 ^ 31 + slotBits y * 2 ^ 6)

/-- The word of an instruction, as a number; events have none. -/
def Instr.encodeNat : Instr → Option Nat
  | .add g d a b => some (rrrWord 0x1 g d.toNat a.toNat b.toNat 0 (0) (0))
  | .sub g d a b => some (rrrWord 0x1 g d.toNat a.toNat b.toNat 0 (1) (0))
  | .addSatI32 g d a b => some (rrrWord 0x1 g d.toNat a.toNat b.toNat 0 (2) (0))
  | .subSatI32 g d a b => some (rrrWord 0x1 g d.toNat a.toNat b.toNat 0 (3) (0))
  | .addSatN32 g d a b => some (rrrWord 0x1 g d.toNat a.toNat b.toNat 0 (4) (0))
  | .subSatN32 g d a b => some (rrrWord 0x1 g d.toNat a.toNat b.toNat 0 (5) (0))
  | .addCy g d a b c => some (rrrWord 0x1 g d.toNat a.toNat b.toNat c.toNat (6) (0))
  | .cy g d a b c => some (rrrWord 0x1 g d.toNat a.toNat b.toNat c.toNat (7) (0))
  | .add64 g d a b => some (rrrWord 0x1 g d.toNat a.toNat b.toNat 0 (8) (0))
  | .sub64 g d a b => some (rrrWord 0x1 g d.toNat a.toNat b.toNat 0 (9) (0))
  | .mul g d a b => some (rrrWord 0x2 g d.toNat a.toNat b.toNat 0 (0) (0))
  | .mulhI32 g d a b => some (rrrWord 0x2 g d.toNat a.toNat b.toNat 0 (1) (0))
  | .mulhN32 g d a b => some (rrrWord 0x2 g d.toNat a.toNat b.toNat 0 (2) (0))
  | .mad g d a b c => some (rrrWord 0x2 g d.toNat a.toNat b.toNat c.toNat (3) (0))
  | .mulwI32 g d a b => some (rrrWord 0x2 g d.toNat a.toNat b.toNat 0 (4) (0))
  | .mulwN32 g d a b => some (rrrWord 0x2 g d.toNat a.toNat b.toNat 0 (5) (0))
  | .madwN32 g d a b c => some (rrrWord 0x2 g d.toNat a.toNat b.toNat c.toNat (6) (0))
  | .madwI32 g d a b c => some (rrrWord 0x2 g d.toNat a.toNat b.toNat c.toNat (7) (0))
  | .minI32 g d a b => some (rrrWord 0x3 g d.toNat a.toNat b.toNat 0 (0) (0))
  | .maxI32 g d a b => some (rrrWord 0x3 g d.toNat a.toNat b.toNat 0 (1) (0))
  | .minN32 g d a b => some (rrrWord 0x3 g d.toNat a.toNat b.toNat 0 (2) (0))
  | .maxN32 g d a b => some (rrrWord 0x3 g d.toNat a.toNat b.toNat 0 (3) (0))
  | .abs g d a => some (rrrWord 0x3 g d.toNat a.toNat 0 0 (4) (0))
  | .neg g d a => some (rrrWord 0x3 g d.toNat a.toNat 0 0 (5) (0))
  | .sad g d a b c => some (rrrWord 0x3 g d.toNat a.toNat b.toNat c.toNat (6) (0))
  | .sadN32 g d a b c => some (rrrWord 0x3 g d.toNat a.toNat b.toNat c.toNat (7) (0))
  | .and g d a b => some (rrrWord 0x4 g d.toNat a.toNat b.toNat 0 (0) (0))
  | .or g d a b => some (rrrWord 0x4 g d.toNat a.toNat b.toNat 0 (1) (0))
  | .xor g d a b => some (rrrWord 0x4 g d.toNat a.toNat b.toNat 0 (2) (0))
  | .andn g d a b => some (rrrWord 0x4 g d.toNat a.toNat b.toNat 0 (3) (0))
  | .orn g d a b => some (rrrWord 0x4 g d.toNat a.toNat b.toNat 0 (4) (0))
  | .lop3 g tt d a b c => some (rrrWord 0x4 g d.toNat a.toNat b.toNat c.toNat (5) (tt.toNat))
  | .shl g d a b => some (rrrWord 0x5 g d.toNat a.toNat b.toNat 0 (0) (0))
  | .shr g d a b => some (rrrWord 0x5 g d.toNat a.toNat b.toNat 0 (1) (0))
  | .sra g d a b => some (rrrWord 0x5 g d.toNat a.toNat b.toNat 0 (2) (0))
  | .rol g d a b => some (rrrWord 0x5 g d.toNat a.toNat b.toNat 0 (3) (0))
  | .ror g d a b => some (rrrWord 0x5 g d.toNat a.toNat b.toNat 0 (4) (0))
  | .fsl g d a b c => some (rrrWord 0x5 g d.toNat a.toNat b.toNat c.toNat (5) (0))
  | .fsr g d a b c => some (rrrWord 0x5 g d.toNat a.toNat b.toNat c.toNat (6) (0))
  | .popc g d a => some (rrrWord 0x6 g d.toNat a.toNat 0 0 (0) (0))
  | .clz g d a => some (rrrWord 0x6 g d.toNat a.toNat 0 0 (1) (0))
  | .ctz g d a => some (rrrWord 0x6 g d.toNat a.toNat 0 0 (2) (0))
  | .brev g d a => some (rrrWord 0x6 g d.toNat a.toNat 0 0 (3) (0))
  | .bfxI32 g d a c => some (rrrWord 0x6 g d.toNat a.toNat 0 c.toNat (4) (0))
  | .bfxN32 g d a c => some (rrrWord 0x6 g d.toNat a.toNat 0 c.toNat (5) (0))
  | .bfi g d a b c => some (rrrWord 0x6 g d.toNat a.toNat b.toNat c.toNat (6) (0))
  | .bil2 g d a b => some (rrrWord 0x6 g d.toNat a.toNat b.toNat 0 (7) (0))
  | .bil3 g d a b c => some (rrrWord 0x6 g d.toNat a.toNat b.toNat c.toNat (8) (0))
  | .bdl3 g d a b => some (rrrWord 0x6 g d.toNat a.toNat b.toNat 0 (9) (0))
  | .bdl2 g d a b => some (rrrWord 0x6 g d.toNat a.toNat b.toNat 0 (10) (0))
  | .icmp g cond comb pred d a b c => some (rrrWord 0x7 g d.toNat a.toNat b.toNat c.toNat (cond.code) ((comb.code + 128 * pred.toNat)))
  | .sel g d a b c => some (rrrWord 0x8 g d.toNat a.toNat b.toNat c.toNat (0) (0))
  | .sxt8 g d a => some (rrrWord 0x9 g d.toNat a.toNat 0 0 (0) (0))
  | .sxt16 g d a => some (rrrWord 0x9 g d.toNat a.toNat 0 0 (1) (0))
  | .zxt8 g d a => some (rrrWord 0x9 g d.toNat a.toNat 0 0 (2) (0))
  | .zxt16 g d a => some (rrrWord 0x9 g d.toNat a.toNat 0 0 (3) (0))
  | .prm g d a b c => some (rrrWord 0x9 g d.toNat a.toNat b.toNat c.toNat (4) (0))
  | .bswp g d a => some (rrrWord 0x9 g d.toNat a.toNat 0 0 (5) (0))
  | .divI32 g d a b => some (rrrWord 0xa g d.toNat a.toNat b.toNat 0 (0) (0))
  | .divN32 g d a b => some (rrrWord 0xa g d.toNat a.toNat b.toNat 0 (1) (0))
  | .remI32 g d a b => some (rrrWord 0xa g d.toNat a.toNat b.toNat 0 (2) (0))
  | .remN32 g d a b => some (rrrWord 0xa g d.toNat a.toNat b.toNat 0 (3) (0))
  | .mov g d a => some (rrrWord 0xb g d.toNat a.toNat 0 0 (0) (0))
  | .mov64 g d a => some (rrrWord 0xb g d.toNat a.toNat 0 0 (1) (0))
  | .mpadd g dig d a b => some (rrrWord 0xc g d.toNat a.toNat b.toNat 0 (0) (dig.toNat))
  | .mpmk g d a b => some (rrrWord 0xc g d.toNat a.toNat b.toNat 0 (1) (0))
  | .mpcore g d a => some (rrrWord 0xc g d.toNat a.toNat 0 0 (2) (0))
  | .mpoff g d a => some (rrrWord 0xc g d.toNat a.toNat 0 0 (3) (0))
  | .mploc g d a => some (rrrWord 0xc g d.toNat a.toNat 0 0 (4) (0))
  | .addi g imm d a => some (single 0x10 g d.toNat a.toNat (imm.toNat))
  | .muli g imm d a => some (single 0x11 g d.toNat a.toNat (imm.toNat))
  | .andi g imm d a => some (single 0x12 g d.toNat a.toNat (imm.toNat))
  | .ori g imm d a => some (single 0x13 g d.toNat a.toNat (imm.toNat))
  | .xori g imm d a => some (single 0x14 g d.toNat a.toNat (imm.toNat))
  | .movi g imm d => some (single 0x15 g d.toNat 384 (imm.toNat))
  | .icmpi g cond imm d a => some (single 0x16 g d.toNat a.toNat ((cond.code * 2 ^ 28 + imm.toNat)))
  | .shli g imm d a => some (single 0x17 g d.toNat a.toNat (imm.toNat))
  | .shri g imm d a => some (single 0x18 g d.toNat a.toNat (imm.toNat))
  | .srai g imm d a => some (single 0x19 g d.toNat a.toNat (imm.toNat))
  | .miniI32 g imm d a => some (single 0x1a g d.toNat a.toNat (imm.toNat))
  | .maxiI32 g imm d a => some (single 0x1b g d.toNat a.toNat (imm.toNat))
  | .addi64 g imm d a => some (single 0x1c g d.toNat a.toNat (imm.toNat))
  | .pairWord x y => some (pairBits x y)
  | .fadd g md d a b => some (rrrWord 0x20 g d.toNat a.toNat b.toNat 0 (0) (md.toNat))
  | .fsub g md d a b => some (rrrWord 0x20 g d.toNat a.toNat b.toNat 0 (1) (md.toNat))
  | .fmul g md d a b => some (rrrWord 0x21 g d.toNat a.toNat b.toNat 0 (0) (md.toNat))
  | .ffma g md d a b c => some (rrrWord 0x22 g d.toNat a.toNat b.toNat c.toNat (0) (md.toNat))
  | .ffms g md d a b c => some (rrrWord 0x22 g d.toNat a.toNat b.toNat c.toNat (1) (md.toNat))
  | .fnma g md d a b c => some (rrrWord 0x22 g d.toNat a.toNat b.toNat c.toNat (2) (md.toNat))
  | .fnms g md d a b c => some (rrrWord 0x22 g d.toNat a.toNat b.toNat c.toNat (3) (md.toNat))
  | .fmin g d a b => some (rrrWord 0x23 g d.toNat a.toNat b.toNat 0 (0) (0))
  | .fmax g d a b => some (rrrWord 0x23 g d.toNat a.toNat b.toNat 0 (1) (0))
  | .fminp g d a b => some (rrrWord 0x23 g d.toNat a.toNat b.toNat 0 (2) (0))
  | .fmaxp g d a b => some (rrrWord 0x23 g d.toNat a.toNat b.toNat 0 (3) (0))
  | .fcmp g cond comb pred d a b c => some (rrrWord 0x24 g d.toNat a.toNat b.toNat c.toNat (cond.code) ((comb.code + 128 * pred.toNat)))
  | .frcp g d a => some (rrrWord 0x25 g d.toNat a.toNat 0 0 (0) (0))
  | .frsq g d a => some (rrrWord 0x25 g d.toNat a.toNat 0 0 (1) (0))
  | .fsqrt g d a => some (rrrWord 0x25 g d.toNat a.toNat 0 0 (2) (0))
  | .fex2 g d a => some (rrrWord 0x25 g d.toNat a.toNat 0 0 (3) (0))
  | .flg2 g d a => some (rrrWord 0x25 g d.toNat a.toNat 0 0 (4) (0))
  | .fsinp g d a => some (rrrWord 0x25 g d.toNat a.toNat 0 0 (5) (0))
  | .fcosp g d a => some (rrrWord 0x25 g d.toNat a.toNat 0 0 (6) (0))
  | .ftanh g d a => some (rrrWord 0x25 g d.toNat a.toNat 0 0 (7) (0))
  | .fdiv g d a b => some (rrrWord 0x26 g d.toNat a.toNat b.toNat 0 (0) (0))
  | .fcls g d a => some (rrrWord 0x27 g d.toNat a.toNat 0 0 (0) (0))
  | .fscl g d a b => some (rrrWord 0x27 g d.toNat a.toNat b.toNat 0 (1) (0))
  | .frint g rm d a => some (rrrWord 0x27 g d.toNat a.toNat 0 0 (2) (rm.toNat))
  | .ffrac g d a => some (rrrWord 0x27 g d.toNat a.toNat 0 0 (3) (0))
  | .fcpsgn g d a b => some (rrrWord 0x27 g d.toNat a.toNat b.toNat 0 (4) (0))
  | .hadd g bf d a b => some (rrrWord 0x28 g d.toNat a.toNat b.toNat 0 ((0 + 6 * bf.toNat)) (0))
  | .hsub g bf d a b => some (rrrWord 0x28 g d.toNat a.toNat b.toNat 0 ((1 + 6 * bf.toNat)) (0))
  | .hmul g bf d a b => some (rrrWord 0x28 g d.toNat a.toNat b.toNat 0 ((2 + 6 * bf.toNat)) (0))
  | .hfma g bf d a b c => some (rrrWord 0x28 g d.toNat a.toNat b.toNat c.toNat ((3 + 6 * bf.toNat)) (0))
  | .hmin g bf d a b => some (rrrWord 0x28 g d.toNat a.toNat b.toNat 0 ((4 + 6 * bf.toNat)) (0))
  | .hmax g bf d a b => some (rrrWord 0x28 g d.toNat a.toNat b.toNat 0 ((5 + 6 * bf.toNat)) (0))
  | .dot g fmt d a b c => some (rrrWord 0x29 g d.toNat a.toNat b.toNat c.toNat (fmt.code) (0))
  | .cvt g code idx d a b => some (rrrWord 0x2a g d.toNat a.toNat b.toNat 0 (code.toNat) (idx.toNat))
  | .qpk g fmt d a b => some (rrrWord 0x2b g d.toNat a.toNat b.toNat 0 (fmt.code) (0))
  | .qupk g fmt d a b => some (rrrWord 0x2c g d.toNat a.toNat b.toNat 0 (fmt.code) (0))
  | .mxsc g fmt d a => some (rrrWord 0x2d g d.toNat a.toNat 0 0 (fmt.code) (0))
  | .shfl g kind width fate d a b => some (rrrWord 0x30 g d.toNat a.toNat b.toNat 0 (kind.code) ((width.toNat * 4 + fate.code)))
  | .voteAny g d a => some (rrrWord 0x31 g d.toNat a.toNat 0 0 (0) (0))
  | .voteAll g d a => some (rrrWord 0x31 g d.toNat a.toNat 0 0 (1) (0))
  | .voteUni g d a => some (rrrWord 0x31 g d.toNat a.toNat 0 0 (2) (0))
  | .ballot g d a => some (rrrWord 0x31 g d.toNat a.toNat 0 0 (3) (0))
  | .matchLanes g d a => some (rrrWord 0x31 g d.toNat a.toNat 0 0 (4) (0))
  | .lred g op d a => some (rrrWord 0x32 g d.toNat a.toNat 0 0 (op.code) (0))
  | .lscan g op ex d a => some (rrrWord 0x33 g d.toNat a.toNat 0 0 (op.code) (ex.toNat))
  | .lmask g d => some (rrrWord 0x34 g d.toNat 0 0 0 (0) (0))
  | .lbelow g d => some (rrrWord 0x34 g d.toNat 0 0 0 (1) (0))
  | .lcnt g d => some (rrrWord 0x34 g d.toNat 0 0 0 (2) (0))
  | .lfirst g d => some (rrrWord 0x34 g d.toNat 0 0 0 (3) (0))
  | .elect g d => some (rrrWord 0x34 g d.toNat 0 0 0 (4) (0))
  | .ld g sz off d a => some (mWord 0x40 g d.toNat a.toNat 0 (sz.code) (off.toNat))
  | .st g sz off a b => some (mWord 0x41 g 0 a.toNat b.toNat (sz.code) (off.toNat))
  | .ldk g sz off d a => some (mWord 0x42 g d.toNat a.toNat 0 (sz.code) (off.toNat))
  | .ldix g sz sh d a b => some (mWord 0x43 g d.toNat a.toNat b.toNat (sz.code) (sh.toNat))
  | .atl g aop scope off d a b => some (atWord 0x44 g d.toNat a.toNat b.toNat scope.toNat (4) aop.code (0) off.toNat)
  | .atm g sz aop scope off d a b => some (atWord 0x45 g d.toNat a.toNat b.toNat scope.toNat (sz.code) aop.code (0) off.toNat)
  | .red g sz aop scope off ord a b => some (atWord 0x46 g 0 a.toNat b.toNat scope.toNat (sz.code) aop.code (ord.toNat) off.toNat)
  | .pst g sz off a b => some (mWord 0x47 g 0 a.toNat b.toNat (sz.code) (off.toNat))
  | .lease g off d a => some (mWord 0x48 g d.toNat a.toNat 0 (0) (off.toNat))
  | .lrel g d => some (mWord 0x49 g d.toNat 0 0 (0) (0))
  | .pub g sz off a b => some (mWord 0x4a g 0 a.toNat b.toNat (sz.code) (off.toNat))
  | .subs g d a => some (rrrWord 0x4b g d.toNat a.toNat 0 0 (0) (0))
  | .unsub g d a => some (rrrWord 0x4c g d.toNat a.toNat 0 0 (0) (0))
  | .lndInit g scope a b c => some (rrrWord 0x50 g 0 a.toNat b.toNat c.toNat (0) (scope.toNat))
  | .lndArr g d a b => some (rrrWord 0x50 g d.toNat a.toNat b.toNat 0 (1) (0))
  | .lndExp g d a b => some (rrrWord 0x50 g d.toNat a.toNat b.toNat 0 (2) (0))
  | .lndWait g d a b => some (rrrWord 0x50 g d.toNat a.toNat b.toNat 0 (3) (0))
  | .lndTest g d a b => some (rrrWord 0x50 g d.toNat a.toNat b.toNat 0 (4) (0))
  | .lndInv g d a => some (rrrWord 0x50 g d.toNat a.toNat 0 0 (5) (0))
  | .ringInit g scope a b c => some (rrrWord 0x51 g 0 a.toNat b.toNat c.toNat (0) (scope.toNat))
  | .ringRsv g d a => some (rrrWord 0x51 g d.toNat a.toNat 0 0 (1) (0))
  | .ringCmt g d a b => some (rrrWord 0x51 g d.toNat a.toNat b.toNat 0 (2) (0))
  | .ringAtt g d a => some (rrrWord 0x51 g d.toNat a.toNat 0 0 (3) (0))
  | .ringWait g d a b => some (rrrWord 0x51 g d.toNat a.toNat b.toNat 0 (4) (0))
  | .ringRel g d a b => some (rrrWord 0x51 g d.toNat a.toNat b.toNat 0 (5) (0))
  | .ringDet g d a b => some (rrrWord 0x51 g d.toNat a.toNat b.toNat 0 (6) (0))
  | .cntInit g d a b => some (rrrWord 0x52 g d.toNat a.toNat b.toNat 0 (0) (0))
  | .cntDec g a b => some (rrrWord 0x52 g 0 a.toNat b.toNat 0 (1) (0))
  | .cntRdec g a b => some (rrrWord 0x52 g 0 a.toNat b.toNat 0 (2) (0))
  | .cntRd g d a => some (rrrWord 0x52 g d.toNat a.toNat 0 0 (3) (0))
  | .cp g ordered ring d a b c => some (rrrWord 0x53 g d.toNat a.toNat b.toNat c.toNat ((ordered.toNat + 2 * ring.toNat)) (0))
  | .cpt g op d a b c => some (rrrWord 0x54 g d.toNat a.toNat b.toNat c.toNat (op.code) (0))
  | .cpg g sz d a b c => some (rrrWord 0x55 g d.toNat a.toNat b.toNat c.toNat (0) (sz.toNat))
  | .collAllred g d a => some (rrrWord 0x56 g d.toNat a.toNat 0 0 (0) (0))
  | .collRedsct g d a => some (rrrWord 0x56 g d.toNat a.toNat 0 0 (1) (0))
  | .collAllgat g d a => some (rrrWord 0x56 g d.toNat a.toNat 0 0 (2) (0))
  | .collBcast g d a => some (rrrWord 0x56 g d.toNat a.toNat 0 0 (3) (0))
  | .cpqSt g d => some (rrrWord 0x57 g d.toNat 0 0 0 (0) (0))
  | .cpqCnl g d a => some (rrrWord 0x57 g d.toNat a.toNat 0 0 (1) (0))
  | .cpqFr g free d a => some (rrrWord 0x57 g d.toNat a.toNat 0 0 (2) (free.toNat))
  | .twait g d a b c => some (rrrWord 0x58 g d.toNat a.toNat b.toNat c.toNat (0) (0))
  | .barSync a b => some (rrrWord 0x59 .none 0 a.toNat b.toNat 0 (0) (2))
  | .barArr d a b => some (rrrWord 0x59 .none d.toNat a.toNat b.toNat 0 (1) (2))
  | .barWait a b => some (rrrWord 0x59 .none 0 a.toNat b.toNat 0 (2) (2))
  | .cbarSync g scope d => some (rrrWord 0x5a g d.toNat 0 0 0 (0) (scope.toNat))
  | .cbarMax g scope d a => some (rrrWord 0x5a g d.toNat a.toNat 0 0 (1) (scope.toNat))
  | .cbarMaxn g scope d a => some (rrrWord 0x5a g d.toNat a.toNat 0 0 (2) (scope.toNat))
  | .cbarAdd g scope d a => some (rrrWord 0x5a g d.toNat a.toNat 0 0 (3) (scope.toNat))
  | .cbarMin g scope d a => some (rrrWord 0x5a g d.toNat a.toNat 0 0 (4) (scope.toNat))
  | .acq g scope d a b => some (rrrWord 0x5b g d.toNat a.toNat b.toNat 0 (0) (scope.toNat))
  | .rel g scope d a => some (rrrWord 0x5c g d.toNat a.toNat 0 0 (0) (scope.toNat))
  | .bind g d a b c => some (rrrWord 0x5d g d.toNat a.toNat b.toNat c.toNat (0) (0))
  | .fence g mask scope => some (rrrWord 0x5e g 0 0 0 0 (mask.toNat) (scope.toNat))
  | .slpUntil g a => some (rrrWord 0x5f g 0 a.toNat 0 0 (0) (0))
  | .slpFor g a => some (rrrWord 0x5f g 0 a.toNat 0 0 (1) (0))
  | .yield g => some (rrrWord 0x5f g 0 0 0 0 (2) (0))
  | .mxal g a => some (rrrWord 0x60 g 0 a.toNat 0 0 (0) (0))
  | .mxfr g => some (rrrWord 0x61 g 0 0 0 0 (0) (0))
  | .mxl g latch transp esz a b => some (rrrWord 0x62 g 0 a.toNat b.toNat 0 (latch.toNat) ((transp.toNat + 2 * esz.toNat)))
  | .mxg g latch a b => some (rrrWord 0x63 g 0 a.toNat b.toNat 0 (latch.toNat) (0))
  | .mma g x y z zi half nc a b => some (rrrWord 0x64 g 0 a.toNat b.toNat 0 ((x.toNat + 4 * y.toNat)) ((z.toNat + 2 * zi.toNat + 4 * half.toNat + 8 * nc.toNat)))
  | .mxs g ty a b c => some (rrrWord 0x65 g 0 a.toNat b.toNat c.toNat (0) (ty.toNat))
  | .mxr g d b c => some (rrrWord 0x65 g d.toNat 0 b.toNat c.toNat (1) (0))
  | .mxw g a b c => some (rrrWord 0x65 g 0 a.toNat b.toNat c.toNat (2) (0))
  | .mxz g b => some (rrrWord 0x65 g 0 0 b.toNat 0 (3) (0))
  | .turnTake g => some (rrrWord 0x66 g 0 0 0 0 (0) (0))
  | .turnGive g => some (rrrWord 0x66 g 0 0 0 0 (1) (0))
  | .turnWho g d => some (rrrWord 0x66 g d.toNat 0 0 0 (2) (0))
  | .climb g d a b c => some (rrrWord 0x67 g d.toNat a.toNat b.toNat c.toNat (0) (0))
  | .nbox g tries => some (rrrWord 0x68 g 0 0 0 0 (0) (tries.toNat))
  | .ntri g tries => some (rrrWord 0x68 g 0 0 0 0 (1) (tries.toNat))
  | .nlink g => some (rrrWord 0x68 g 0 0 0 0 (2) (0))
  | .hop g a => some (rrrWord 0x69 g 0 a.toNat 0 0 (0) (0))
  | .cand g => some (rrrWord 0x6a g 0 0 0 0 (0) (0))
  | .rsync g => some (rrrWord 0x6a g 0 0 0 0 (1) (0))
  | .fin g => some (rrrWord 0x6a g 0 0 0 0 (2) (0))
  | .emit g d a b => some (rrrWord 0x6b g d.toNat a.toNat b.toNat 0 (0) (0))
  | .emith g d a b c => some (rrrWord 0x6b g d.toNat a.toNat b.toNat c.toNat (1) (0))
  | .graphRsv g here d a b c => some (rrrWord 0x6b g d.toNat a.toNat b.toNat c.toNat (2) (here.toNat))
  | .gdone g a => some (rrrWord 0x6b g 0 a.toNat 0 0 (3) (0))
  | .take g d => some (rrrWord 0x6c g d.toNat 0 0 0 (0) (0))
  | .lnch g d a => some (rrrWord 0x6d g d.toNat a.toNat 0 0 (0) (0))
  | .lnchw g d a => some (rrrWord 0x6d g d.toNat a.toNat 0 0 (1) (0))
  | .pair g d a => some (rrrWord 0x6e g d.toNat a.toNat 0 0 (0) (0))
  | .unpair g d => some (rrrWord 0x6e g d.toNat 0 0 0 (1) (0))
  | .fpck g d => some (rrrWord 0x6e g d.toNat 0 0 0 (2) (0))
  | .br g disp tag uni => some (cWord 0x70 g 0 0 (disp.toNat) ((uni.toNat + 16 * tag.toNat)))
  | .call g disp tag uni d => some (cWord 0x71 g d.toNat 0 (disp.toNat) ((uni.toNat + 16 * tag.toNat)))
  | .jmpi g tag a => some (cWord 0x72 g 0 a.toNat (0) ((16 * tag.toNat)))
  | .ret g tag a => some (cWord 0x73 g 0 a.toNat (0) ((16 * tag.toNat)))
  | .join tag => some (cWord 0x74 .none 0 0 (0) ((16 * tag.toNat)))
  | .exit g => some (cWord 0x75 g 0 0 (0) (0))
  | .trap g code => some (cWord 0x76 g 0 0 (code.toNat) (0))
  | .brk g code => some (cWord 0x77 g 0 0 (code.toNat) (0))
  | .eret => some (cWord 0x79 .none 0 0 (0) (0))
  | .nop g => some (cWord 0x7a g 0 0 (0) (0))
  | .csrRd g csr d => some (single 0x78 g d.toNat 0 ((csr.toNat * 2 ^ 20 + 0 * 2 ^ 16)))
  | .csrWr g csr d a => some (single 0x78 g d.toNat a.toNat ((csr.toNat * 2 ^ 20 + 1 * 2 ^ 16)))
  | .csrSet g csr d a => some (single 0x78 g d.toNat a.toNat ((csr.toNat * 2 ^ 20 + 2 * 2 ^ 16)))
  | .csrClr g csr d a => some (single 0x78 g d.toNat a.toNat ((csr.toNat * 2 ^ 20 + 3 * 2 ^ 16)))
  | .mark g code => some (cWord 0x7b g 0 0 (code.toNat) (0))
  | .tlbi g dom d a => some (cWord 0x7c g d.toNat a.toNat (0) (dom.toNat))
  | .ctxsv g d a => some (cWord 0x7d g d.toNat a.toNat (0) (0))
  | .ctxld g d a => some (cWord 0x7d g d.toNat a.toNat (0) (1))
  | .halt g => some (cWord 0x7e g 0 0 (0) (0))
  | .haltAll g => some (cWord 0x7e g 0 0 (0) (1))
  | .dfr0Clear => none
  | .sampctlWrite => none
  | .cregWrite => none
  | .ifwIfhWrite => none
  | .tvecWrite => none
  | .xbndWrite => none
  | .leasemaxWrite => none
  | .fpintWrite => none
  | .csrPlainWrite => none
  | .splitMerge => none
  | .joinTimeout => none
  | .sleepExpiry => none
  | .promiseExpiry => none
  | .issueSelect => none
  | .fetchBlock => none
  | .lsPoisonSeal => none
  | .supervisorPlace => none
  | .launchEndOnFault => none
  | .accGrant => none
  | .turnGrant => none
  | .mmaExecution => none
  | .leaseAbortPoint => none
  | .leaseDeadline => none
  | .leaseRequest => none
  | .leaseGrant => none
  | .leaseCommit => none
  | .leaseAnswer => none
  | .leaseAbort => none
  | .undeliverableNotice => none
  | .preemptionSealFrameCommand => none
  | .postedStore => none
  | .atomicRequest => none
  | .canopyUpdate => none
  | .reductionDevice => none
  | .publishWrite => none
  | .copyReadRequest => none
  | .copyLineWrite => none
  | .subscriptionControl => none
  | .homeFillWriteback => none
  | .graphMessage => none
  | .atomicResult => none
  | .lineData => none
  | .subscriptionUpdate => none
  | .writeAcknowledgement => none
  | .faultReply => none
  | .channelWord => none
  | .channelCreditReturn => none
  | .ray => none
  | .anyHitCandidate => none
  | .hitMinimum => none
  | .counterDecrement => none
  | .lsReductionAtomic => none
  | .pendingCountEnd => none
  | .raySpillWrite => none
  | .raySpillReload => none
  | .treeletPageInFill => none
  | .preemptionSaveRestoreLine => none
  | .malformedMessage => none
  | .watch => none
  | .watchRetry => none
  | .creditRetry => none
  | .cbarArrival => none
  | .copyAccept => none
  | .copyLineTransfer => none
  | .pageWalk => none
  | .shootdownComplete => none
  | .patrolScrub => none
  | .poolLinkLoss => none
  | .backInvalidationSnoop => none
  | .hostCxlMemWrite => none
  | .hostCxlMemRead => none
  | .hostCxlCacheSnoop => none
  | .hostRingCommit => none
  | .launchSubmit => none
  | .gangPlace => none
  | .gangPreempt => none
  | .groupResume => none
  | .launchCompletion => none
  | .pageMoveCopyDone => none
  | .climberContextEntry => none
  | .climberIssue => none
  | .climberSlotFree => none
  | .canopyLookup => none
  | .pageInComplete => none
  | .pagingReread => none
  | .pagingWaiterTimeout => none
  | .replicationThreshold => none
  | .visitCountClear => none
  | .takeCoaltExpiry => none
  | .pairIntervalClose => none
  | .pairTimeout => none
  | .sampleInstant => none
  | .clockAlignmentExchange => none
  | .flightLinkLoss => none
  | .flightFlitReplay => none
  | .memberRemoval => none
  | .collCommit => none
  | .powerControlTick => none
  | .junctionThrottle => none
  | .thermalHalt => none
  | .startup => none
  | .startupWatchdog => none
  | .identify => none
  | .getStatus => none
  | .stageFirmware => none
  | .reset => none
  | .clearStartFailures => none
  | .setContextRoot => none
  | .loadKeySlot => none
  | .writePoolRegionEntry => none
  | .biasFlip => none
  | .movePage => none
  | .hostShootdown => none
  | .configureHostLaunchRing => none
  | .writeGraphTableSlot => none
  | .setSpillAreas => none
  | .writeMembershipTable => none
  | .removeMember => none
  | .readCounters => none
  | .readFaultReports => none
  | .haltOrResume => none
  | .readback => none
  | .setPowerCap => none
  | .setDomainConfiguration => none
  | .unsupportedOpcode => none
  | .getVersion => none
  | .getCapabilities => none
  | .negotiateAlgorithms => none
  | .getDigests => none
  | .getCertificate => none
  | .challenge => none
  | .getMeasurements => none
  | .keyExchange => none
  | .finish => none
  | .endSession => none
  | .heartbeat => none
  | .jtagIdcode => none
  | .jtagBypass => none
  | .jtagSamplePreload => none
  | .jtagExtest => none
  | .jtagRbaddrRbdata => none
  | .linkActiveStateChange => none
  | .ieee11491Resume => none
  | .signedDebugUnlock => none
  | .softError => none

/-- The word of an instruction (R15); events have none. -/
def encode (i : Instr) : Option (BitVec 64) := i.encodeNat.map (BitVec.ofNat 64)

/-- The fields of a single word (R16, R17), each cut from its bits. -/
structure Fields where
  maj : Nat
  guard : Guard
  d : RegNo
  a : RegNo
  b : RegNo
  c : RegNo
  sub : Nat
  mod : Nat
  low : Nat
  off : Nat
  sz : Nat
  scope : Nat
  aop : Nat
  ord : Nat
  disp : Nat

/-- The fields of the single word `w` (R16, R17). -/
def fieldsOf (w : Nat) : Fields :=
  { maj := w / 2 ^ 56 % 2 ^ 7
    guard := ⟨decide (w / 2 ^ 55 % 2 = 1), decide (w / 2 ^ 54 % 2 = 1), BitVec.ofNat 4 (w / 2 ^ 50)⟩
    d := BitVec.ofNat 9 (w / 2 ^ 41)
    a := BitVec.ofNat 9 (w / 2 ^ 32)
    b := BitVec.ofNat 9 (w / 2 ^ 23)
    c := BitVec.ofNat 9 (w / 2 ^ 14)
    sub := w / 2 ^ 8 % 2 ^ 6
    mod := w % 2 ^ 8
    low := w % 2 ^ 32
    off := w % 2 ^ 16
    sz := w / 2 ^ 16 % 2 ^ 4
    scope := w / 2 ^ 20 % 2 ^ 3
    aop := w / 2 ^ 12 % 2 ^ 4
    ord := w / 2 ^ 10 % 2 ^ 2
    disp := w / 2 ^ 8 % 2 ^ 24 }

/-- The instruction that MAJ and SUB name, its fields filled in (R30); none for an illegal MAJ or SUB. -/
def Fields.build (f : Fields) : Option Instr :=
  match f.maj with
  | 0x1 => match f.sub with
    | 0 => some (.add f.guard f.d f.a f.b)
    | 1 => some (.sub f.guard f.d f.a f.b)
    | 2 => some (.addSatI32 f.guard f.d f.a f.b)
    | 3 => some (.subSatI32 f.guard f.d f.a f.b)
    | 4 => some (.addSatN32 f.guard f.d f.a f.b)
    | 5 => some (.subSatN32 f.guard f.d f.a f.b)
    | 6 => some (.addCy f.guard f.d f.a f.b f.c)
    | 7 => some (.cy f.guard f.d f.a f.b f.c)
    | 8 => some (.add64 f.guard f.d f.a f.b)
    | 9 => some (.sub64 f.guard f.d f.a f.b)
    | _ => none
  | 0x2 => match f.sub with
    | 0 => some (.mul f.guard f.d f.a f.b)
    | 1 => some (.mulhI32 f.guard f.d f.a f.b)
    | 2 => some (.mulhN32 f.guard f.d f.a f.b)
    | 3 => some (.mad f.guard f.d f.a f.b f.c)
    | 4 => some (.mulwI32 f.guard f.d f.a f.b)
    | 5 => some (.mulwN32 f.guard f.d f.a f.b)
    | 6 => some (.madwN32 f.guard f.d f.a f.b f.c)
    | 7 => some (.madwI32 f.guard f.d f.a f.b f.c)
    | _ => none
  | 0x3 => match f.sub with
    | 0 => some (.minI32 f.guard f.d f.a f.b)
    | 1 => some (.maxI32 f.guard f.d f.a f.b)
    | 2 => some (.minN32 f.guard f.d f.a f.b)
    | 3 => some (.maxN32 f.guard f.d f.a f.b)
    | 4 => some (.abs f.guard f.d f.a)
    | 5 => some (.neg f.guard f.d f.a)
    | 6 => some (.sad f.guard f.d f.a f.b f.c)
    | 7 => some (.sadN32 f.guard f.d f.a f.b f.c)
    | _ => none
  | 0x4 => match f.sub with
    | 0 => some (.and f.guard f.d f.a f.b)
    | 1 => some (.or f.guard f.d f.a f.b)
    | 2 => some (.xor f.guard f.d f.a f.b)
    | 3 => some (.andn f.guard f.d f.a f.b)
    | 4 => some (.orn f.guard f.d f.a f.b)
    | 5 => some (.lop3 f.guard (BitVec.ofNat 8 f.mod) f.d f.a f.b f.c)
    | _ => none
  | 0x5 => match f.sub with
    | 0 => some (.shl f.guard f.d f.a f.b)
    | 1 => some (.shr f.guard f.d f.a f.b)
    | 2 => some (.sra f.guard f.d f.a f.b)
    | 3 => some (.rol f.guard f.d f.a f.b)
    | 4 => some (.ror f.guard f.d f.a f.b)
    | 5 => some (.fsl f.guard f.d f.a f.b f.c)
    | 6 => some (.fsr f.guard f.d f.a f.b f.c)
    | _ => none
  | 0x6 => match f.sub with
    | 0 => some (.popc f.guard f.d f.a)
    | 1 => some (.clz f.guard f.d f.a)
    | 2 => some (.ctz f.guard f.d f.a)
    | 3 => some (.brev f.guard f.d f.a)
    | 4 => some (.bfxI32 f.guard f.d f.a f.c)
    | 5 => some (.bfxN32 f.guard f.d f.a f.c)
    | 6 => some (.bfi f.guard f.d f.a f.b f.c)
    | 7 => some (.bil2 f.guard f.d f.a f.b)
    | 8 => some (.bil3 f.guard f.d f.a f.b f.c)
    | 9 => some (.bdl3 f.guard f.d f.a f.b)
    | 10 => some (.bdl2 f.guard f.d f.a f.b)
    | _ => none
  | 0x7 => some (.icmp f.guard (Cond.ofCode f.sub) (Comb.ofCode (f.mod % 4)) (decide (f.mod / 128 = 1)) f.d f.a f.b f.c)
  | 0x8 => match f.sub with
    | 0 => some (.sel f.guard f.d f.a f.b f.c)
    | _ => none
  | 0x9 => match f.sub with
    | 0 => some (.sxt8 f.guard f.d f.a)
    | 1 => some (.sxt16 f.guard f.d f.a)
    | 2 => some (.zxt8 f.guard f.d f.a)
    | 3 => some (.zxt16 f.guard f.d f.a)
    | 4 => some (.prm f.guard f.d f.a f.b f.c)
    | 5 => some (.bswp f.guard f.d f.a)
    | _ => none
  | 0xa => match f.sub with
    | 0 => some (.divI32 f.guard f.d f.a f.b)
    | 1 => some (.divN32 f.guard f.d f.a f.b)
    | 2 => some (.remI32 f.guard f.d f.a f.b)
    | 3 => some (.remN32 f.guard f.d f.a f.b)
    | _ => none
  | 0xb => match f.sub with
    | 0 => some (.mov f.guard f.d f.a)
    | 1 => some (.mov64 f.guard f.d f.a)
    | _ => none
  | 0xc => match f.sub with
    | 0 => some (.mpadd f.guard (BitVec.ofNat 5 f.mod) f.d f.a f.b)
    | 1 => some (.mpmk f.guard f.d f.a f.b)
    | 2 => some (.mpcore f.guard f.d f.a)
    | 3 => some (.mpoff f.guard f.d f.a)
    | 4 => some (.mploc f.guard f.d f.a)
    | _ => none
  | 0x10 => some (.addi f.guard (BitVec.ofNat 32 f.low) f.d f.a)
  | 0x11 => some (.muli f.guard (BitVec.ofNat 32 f.low) f.d f.a)
  | 0x12 => some (.andi f.guard (BitVec.ofNat 32 f.low) f.d f.a)
  | 0x13 => some (.ori f.guard (BitVec.ofNat 32 f.low) f.d f.a)
  | 0x14 => some (.xori f.guard (BitVec.ofNat 32 f.low) f.d f.a)
  | 0x15 => some (.movi f.guard (BitVec.ofNat 32 f.low) f.d)
  | 0x16 => some (.icmpi f.guard (Cond.ofCode (f.low / 2 ^ 28)) (BitVec.ofNat 28 f.low) f.d f.a)
  | 0x17 => some (.shli f.guard (BitVec.ofNat 32 f.low) f.d f.a)
  | 0x18 => some (.shri f.guard (BitVec.ofNat 32 f.low) f.d f.a)
  | 0x19 => some (.srai f.guard (BitVec.ofNat 32 f.low) f.d f.a)
  | 0x1a => some (.miniI32 f.guard (BitVec.ofNat 32 f.low) f.d f.a)
  | 0x1b => some (.maxiI32 f.guard (BitVec.ofNat 32 f.low) f.d f.a)
  | 0x1c => some (.addi64 f.guard (BitVec.ofNat 32 f.low) f.d f.a)
  | 0x20 => match f.sub with
    | 0 => some (.fadd f.guard (BitVec.ofNat 8 f.mod) f.d f.a f.b)
    | 1 => some (.fsub f.guard (BitVec.ofNat 8 f.mod) f.d f.a f.b)
    | _ => none
  | 0x21 => match f.sub with
    | 0 => some (.fmul f.guard (BitVec.ofNat 8 f.mod) f.d f.a f.b)
    | _ => none
  | 0x22 => match f.sub with
    | 0 => some (.ffma f.guard (BitVec.ofNat 8 f.mod) f.d f.a f.b f.c)
    | 1 => some (.ffms f.guard (BitVec.ofNat 8 f.mod) f.d f.a f.b f.c)
    | 2 => some (.fnma f.guard (BitVec.ofNat 8 f.mod) f.d f.a f.b f.c)
    | 3 => some (.fnms f.guard (BitVec.ofNat 8 f.mod) f.d f.a f.b f.c)
    | _ => none
  | 0x23 => match f.sub with
    | 0 => some (.fmin f.guard f.d f.a f.b)
    | 1 => some (.fmax f.guard f.d f.a f.b)
    | 2 => some (.fminp f.guard f.d f.a f.b)
    | 3 => some (.fmaxp f.guard f.d f.a f.b)
    | _ => none
  | 0x24 => some (.fcmp f.guard (FCond.ofCode f.sub) (Comb.ofCode (f.mod % 4)) (decide (f.mod / 128 = 1)) f.d f.a f.b f.c)
  | 0x25 => match f.sub with
    | 0 => some (.frcp f.guard f.d f.a)
    | 1 => some (.frsq f.guard f.d f.a)
    | 2 => some (.fsqrt f.guard f.d f.a)
    | 3 => some (.fex2 f.guard f.d f.a)
    | 4 => some (.flg2 f.guard f.d f.a)
    | 5 => some (.fsinp f.guard f.d f.a)
    | 6 => some (.fcosp f.guard f.d f.a)
    | 7 => some (.ftanh f.guard f.d f.a)
    | _ => none
  | 0x26 => match f.sub with
    | 0 => some (.fdiv f.guard f.d f.a f.b)
    | _ => none
  | 0x27 => match f.sub with
    | 0 => some (.fcls f.guard f.d f.a)
    | 1 => some (.fscl f.guard f.d f.a f.b)
    | 2 => some (.frint f.guard (BitVec.ofNat 2 f.mod) f.d f.a)
    | 3 => some (.ffrac f.guard f.d f.a)
    | 4 => some (.fcpsgn f.guard f.d f.a f.b)
    | _ => none
  | 0x28 => match f.sub % 6 with
    | 0 => some (.hadd f.guard (decide (f.sub / 6 = 1)) f.d f.a f.b)
    | 1 => some (.hsub f.guard (decide (f.sub / 6 = 1)) f.d f.a f.b)
    | 2 => some (.hmul f.guard (decide (f.sub / 6 = 1)) f.d f.a f.b)
    | 3 => some (.hfma f.guard (decide (f.sub / 6 = 1)) f.d f.a f.b f.c)
    | 4 => some (.hmin f.guard (decide (f.sub / 6 = 1)) f.d f.a f.b)
    | 5 => some (.hmax f.guard (decide (f.sub / 6 = 1)) f.d f.a f.b)
    | _ => none
  | 0x29 => some (.dot f.guard (DotFmt.ofCode f.sub) f.d f.a f.b f.c)
  | 0x2a => some (.cvt f.guard (BitVec.ofNat 6 f.sub) (BitVec.ofNat 2 f.mod) f.d f.a f.b)
  | 0x2b => some (.qpk f.guard (QFmt.ofCode f.sub) f.d f.a f.b)
  | 0x2c => some (.qupk f.guard (QFmt.ofCode f.sub) f.d f.a f.b)
  | 0x2d => some (.mxsc f.guard (QFmt.ofCode f.sub) f.d f.a)
  | 0x30 => some (.shfl f.guard (ShflKind.ofCode f.sub) (BitVec.ofNat 3 (f.mod / 4)) (ShflFate.ofCode (f.mod % 4)) f.d f.a f.b)
  | 0x31 => match f.sub with
    | 0 => some (.voteAny f.guard f.d f.a)
    | 1 => some (.voteAll f.guard f.d f.a)
    | 2 => some (.voteUni f.guard f.d f.a)
    | 3 => some (.ballot f.guard f.d f.a)
    | 4 => some (.matchLanes f.guard f.d f.a)
    | _ => none
  | 0x32 => some (.lred f.guard (LaneOp.ofCode f.sub) f.d f.a)
  | 0x33 => some (.lscan f.guard (LaneOp.ofCode f.sub) (decide (f.mod = 1)) f.d f.a)
  | 0x34 => match f.sub with
    | 0 => some (.lmask f.guard f.d)
    | 1 => some (.lbelow f.guard f.d)
    | 2 => some (.lcnt f.guard f.d)
    | 3 => some (.lfirst f.guard f.d)
    | 4 => some (.elect f.guard f.d)
    | _ => none
  | 0x40 => some (.ld f.guard (Sz.ofCode f.sz) (BitVec.ofNat 16 f.off) f.d f.a)
  | 0x41 => some (.st f.guard (Sz.ofCode f.sz) (BitVec.ofNat 16 f.off) f.a f.b)
  | 0x42 => some (.ldk f.guard (Sz.ofCode f.sz) (BitVec.ofNat 16 f.off) f.d f.a)
  | 0x43 => some (.ldix f.guard (Sz.ofCode f.sz) (BitVec.ofNat 3 f.off) f.d f.a f.b)
  | 0x44 => some (.atl f.guard (Aop.ofCode f.aop) (BitVec.ofNat 3 f.scope) (BitVec.ofNat 10 f.off) f.d f.a f.b)
  | 0x45 => some (.atm f.guard (Sz.ofCode f.sz) (Aop.ofCode f.aop) (BitVec.ofNat 3 f.scope) (BitVec.ofNat 10 f.off) f.d f.a f.b)
  | 0x46 => some (.red f.guard (Sz.ofCode f.sz) (Aop.ofCode f.aop) (BitVec.ofNat 3 f.scope) (BitVec.ofNat 10 f.off) (decide (f.ord = 1)) f.a f.b)
  | 0x47 => some (.pst f.guard (Sz.ofCode f.sz) (BitVec.ofNat 16 f.off) f.a f.b)
  | 0x48 => some (.lease f.guard (BitVec.ofNat 16 f.off) f.d f.a)
  | 0x49 => some (.lrel f.guard f.d)
  | 0x4a => some (.pub f.guard (Sz.ofCode f.sz) (BitVec.ofNat 16 f.off) f.a f.b)
  | 0x4b => match f.sub with
    | 0 => some (.subs f.guard f.d f.a)
    | _ => none
  | 0x4c => match f.sub with
    | 0 => some (.unsub f.guard f.d f.a)
    | _ => none
  | 0x50 => match f.sub with
    | 0 => some (.lndInit f.guard (BitVec.ofNat 3 f.mod) f.a f.b f.c)
    | 1 => some (.lndArr f.guard f.d f.a f.b)
    | 2 => some (.lndExp f.guard f.d f.a f.b)
    | 3 => some (.lndWait f.guard f.d f.a f.b)
    | 4 => some (.lndTest f.guard f.d f.a f.b)
    | 5 => some (.lndInv f.guard f.d f.a)
    | _ => none
  | 0x51 => match f.sub with
    | 0 => some (.ringInit f.guard (BitVec.ofNat 3 f.mod) f.a f.b f.c)
    | 1 => some (.ringRsv f.guard f.d f.a)
    | 2 => some (.ringCmt f.guard f.d f.a f.b)
    | 3 => some (.ringAtt f.guard f.d f.a)
    | 4 => some (.ringWait f.guard f.d f.a f.b)
    | 5 => some (.ringRel f.guard f.d f.a f.b)
    | 6 => some (.ringDet f.guard f.d f.a f.b)
    | _ => none
  | 0x52 => match f.sub with
    | 0 => some (.cntInit f.guard f.d f.a f.b)
    | 1 => some (.cntDec f.guard f.a f.b)
    | 2 => some (.cntRdec f.guard f.a f.b)
    | 3 => some (.cntRd f.guard f.d f.a)
    | _ => none
  | 0x53 => some (.cp f.guard (decide (f.sub % 2 = 1)) (decide (f.sub / 2 % 2 = 1)) f.d f.a f.b f.c)
  | 0x54 => some (.cpt f.guard (TileOp.ofCode f.sub) f.d f.a f.b f.c)
  | 0x55 => match f.sub with
    | 0 => some (.cpg f.guard (BitVec.ofNat 2 f.mod) f.d f.a f.b f.c)
    | _ => none
  | 0x56 => match f.sub with
    | 0 => some (.collAllred f.guard f.d f.a)
    | 1 => some (.collRedsct f.guard f.d f.a)
    | 2 => some (.collAllgat f.guard f.d f.a)
    | 3 => some (.collBcast f.guard f.d f.a)
    | _ => none
  | 0x57 => match f.sub with
    | 0 => some (.cpqSt f.guard f.d)
    | 1 => some (.cpqCnl f.guard f.d f.a)
    | 2 => some (.cpqFr f.guard (decide (f.mod = 1)) f.d f.a)
    | _ => none
  | 0x58 => match f.sub with
    | 0 => some (.twait f.guard f.d f.a f.b f.c)
    | _ => none
  | 0x59 => match f.sub with
    | 0 => some (.barSync f.a f.b)
    | 1 => some (.barArr f.d f.a f.b)
    | 2 => some (.barWait f.a f.b)
    | _ => none
  | 0x5a => match f.sub with
    | 0 => some (.cbarSync f.guard (BitVec.ofNat 3 f.mod) f.d)
    | 1 => some (.cbarMax f.guard (BitVec.ofNat 3 f.mod) f.d f.a)
    | 2 => some (.cbarMaxn f.guard (BitVec.ofNat 3 f.mod) f.d f.a)
    | 3 => some (.cbarAdd f.guard (BitVec.ofNat 3 f.mod) f.d f.a)
    | 4 => some (.cbarMin f.guard (BitVec.ofNat 3 f.mod) f.d f.a)
    | _ => none
  | 0x5b => match f.sub with
    | 0 => some (.acq f.guard (BitVec.ofNat 3 f.mod) f.d f.a f.b)
    | _ => none
  | 0x5c => match f.sub with
    | 0 => some (.rel f.guard (BitVec.ofNat 3 f.mod) f.d f.a)
    | _ => none
  | 0x5d => match f.sub with
    | 0 => some (.bind f.guard f.d f.a f.b f.c)
    | _ => none
  | 0x5e => some (.fence f.guard (BitVec.ofNat 4 f.sub) (BitVec.ofNat 3 f.mod))
  | 0x5f => match f.sub with
    | 0 => some (.slpUntil f.guard f.a)
    | 1 => some (.slpFor f.guard f.a)
    | 2 => some (.yield f.guard)
    | _ => none
  | 0x60 => match f.sub with
    | 0 => some (.mxal f.guard f.a)
    | _ => none
  | 0x61 => match f.sub with
    | 0 => some (.mxfr f.guard)
    | _ => none
  | 0x62 => some (.mxl f.guard (BitVec.ofNat 3 f.sub) (decide (f.mod % 2 = 1)) (BitVec.ofNat 2 (f.mod / 2)) f.a f.b)
  | 0x63 => some (.mxg f.guard (BitVec.ofNat 1 f.sub) f.a f.b)
  | 0x64 => some (.mma f.guard (decide (f.sub % 4 = 1)) (decide (f.sub / 4 = 1)) (decide (f.mod % 2 = 1)) (decide (f.mod / 2 % 2 = 1)) (decide (f.mod / 4 % 2 = 1)) (decide (f.mod / 8 % 2 = 1)) f.a f.b)
  | 0x65 => match f.sub with
    | 0 => some (.mxs f.guard (BitVec.ofNat 3 f.mod) f.a f.b f.c)
    | 1 => some (.mxr f.guard f.d f.b f.c)
    | 2 => some (.mxw f.guard f.a f.b f.c)
    | 3 => some (.mxz f.guard f.b)
    | _ => none
  | 0x66 => match f.sub with
    | 0 => some (.turnTake f.guard)
    | 1 => some (.turnGive f.guard)
    | 2 => some (.turnWho f.guard f.d)
    | _ => none
  | 0x67 => match f.sub with
    | 0 => some (.climb f.guard f.d f.a f.b f.c)
    | _ => none
  | 0x68 => match f.sub with
    | 0 => some (.nbox f.guard (BitVec.ofNat 4 f.mod))
    | 1 => some (.ntri f.guard (BitVec.ofNat 4 f.mod))
    | 2 => some (.nlink f.guard)
    | _ => none
  | 0x69 => match f.sub with
    | 0 => some (.hop f.guard f.a)
    | _ => none
  | 0x6a => match f.sub with
    | 0 => some (.cand f.guard)
    | 1 => some (.rsync f.guard)
    | 2 => some (.fin f.guard)
    | _ => none
  | 0x6b => match f.sub with
    | 0 => some (.emit f.guard f.d f.a f.b)
    | 1 => some (.emith f.guard f.d f.a f.b f.c)
    | 2 => some (.graphRsv f.guard (decide (f.mod = 1)) f.d f.a f.b f.c)
    | 3 => some (.gdone f.guard f.a)
    | _ => none
  | 0x6c => match f.sub with
    | 0 => some (.take f.guard f.d)
    | _ => none
  | 0x6d => match f.sub with
    | 0 => some (.lnch f.guard f.d f.a)
    | 1 => some (.lnchw f.guard f.d f.a)
    | _ => none
  | 0x6e => match f.sub with
    | 0 => some (.pair f.guard f.d f.a)
    | 1 => some (.unpair f.guard f.d)
    | 2 => some (.fpck f.guard f.d)
    | _ => none
  | 0x70 => some (.br f.guard (BitVec.ofNat 24 f.disp) (BitVec.ofNat 4 (f.mod / 16)) (decide (f.mod % 2 = 1)))
  | 0x71 => some (.call f.guard (BitVec.ofNat 24 f.disp) (BitVec.ofNat 4 (f.mod / 16)) (decide (f.mod % 2 = 1)) f.d)
  | 0x72 => some (.jmpi f.guard (BitVec.ofNat 4 (f.mod / 16)) f.a)
  | 0x73 => some (.ret f.guard (BitVec.ofNat 4 (f.mod / 16)) f.a)
  | 0x74 => some (.join (BitVec.ofNat 4 (f.mod / 16)))
  | 0x75 => some (.exit f.guard)
  | 0x76 => some (.trap f.guard (BitVec.ofNat 16 f.disp))
  | 0x77 => some (.brk f.guard (BitVec.ofNat 16 f.disp))
  | 0x78 => match f.low / 2 ^ 16 % 16 with
    | 0 => some (.csrRd f.guard (BitVec.ofNat 12 (f.low / 2 ^ 20)) f.d)
    | 1 => some (.csrWr f.guard (BitVec.ofNat 12 (f.low / 2 ^ 20)) f.d f.a)
    | 2 => some (.csrSet f.guard (BitVec.ofNat 12 (f.low / 2 ^ 20)) f.d f.a)
    | 3 => some (.csrClr f.guard (BitVec.ofNat 12 (f.low / 2 ^ 20)) f.d f.a)
    | _ => none
  | 0x79 => some (.eret)
  | 0x7a => some (.nop f.guard)
  | 0x7b => some (.mark f.guard (BitVec.ofNat 16 f.disp))
  | 0x7c => some (.tlbi f.guard (decide (f.mod = 1)) f.d f.a)
  | 0x7d => match f.mod with
    | 0 => some (.ctxsv f.guard f.d f.a)
    | 1 => some (.ctxld f.guard f.d f.a)
    | _ => none
  | 0x7e => match f.mod with
    | 0 => some (.halt f.guard)
    | 1 => some (.haltAll f.guard)
    | _ => none
  | _ => none

/-- A slot from its 25 bits (R21). -/
def slotOf (n : Nat) : PairSlot :=
  ⟨PairOp.ofCode (n / 2 ^ 19 % 2 ^ 6), BitVec.ofNat 9 (n / 2 ^ 10), BitVec.ofNat 9 (n / 2), decide (n % 2 = 1)⟩

/-- The pair word `w` read as an instruction (R21). -/
def pairOf (w : Nat) : Instr :=
  .pairWord (slotOf (w / 2 ^ 38 % 2 ^ 25)) (if w / 2 ^ 31 % 2 = 1 then some (slotOf (w / 2 ^ 6 % 2 ^ 25)) else none)

/-- The constructor and fields the word names, before its form is checked. -/
def readWord (w : Nat) : Option Instr :=
  if w / 2 ^ 63 = 1 then some (pairOf w) else (fieldsOf w).build

/-- The error of a rejected word (R34, step 2). -/
def decodeErrorOf (w : Nat) : DecodeError :=
  if w / 2 ^ 63 = 1 then .illegalPair else .illegalInstr

/-- The decoder on a word read as a number below 2^64. -/
def decodeNat (w : Nat) : Except DecodeError Instr :=
  match readWord w with
  | some i => if i.wf && i.encodeNat == some w then .ok i else .error (decodeErrorOf w)
  | none => .error (decodeErrorOf w)

/-- The decoder on a word (R15, R34). -/
def decode (w : BitVec 64) : Except DecodeError Instr := decodeNat w.toNat

/-- The value of little-endian bytes (R1). -/
def bytesToNat : List Byte → Nat
  | [] => 0
  | b :: bs => b.toNat + 256 * bytesToNat bs

/-- The `n` low bytes of a value, lowest address first (R1). -/
def natToBytes : Nat → Nat → List Byte
  | 0, _ => []
  | n + 1, v => BitVec.ofNat 8 v :: natToBytes n (v / 256)

/-- The decoder on the bytes of a word as they stand in local store (R15); fewer than 8 bytes are no word. -/
def decodeBytes (bs : List Byte) : Except DecodeError Instr :=
  if bs.length < 8 then .error .illegalInstr else decodeNat (bytesToNat (bs.take 8))

/-- The instruction the decoder reads from the bits of a row of the opcode table. -/
def decodeTableWord (nbits w : Nat) : Option Instr :=
  (decodeBytes (natToBytes 8 (w % 2 ^ nbits))).toOption

end Sys2Proof
end

