-- ==== Sys2Proof/Machine/Sparse.lean ====
section
/-! DEFINITION. Sparse maps: lists of (key, value) pairs in one canonical form, keys strictly rising and no entry equal
to what an unlisted key reads as. Memory, register files and tables of the device are held so. -/

namespace Sys2Proof.Machine

/-- The value at a key: the listed one, or `d`. -/
def Sparse.get {α : Type} (d : α) : List (Nat × α) → Nat → α
  | [], _ => d
  | (k, v) :: m, a => if a = k then v else if a < k then d else Sparse.get d m a

/-- The map with `v` at `a`, in canonical form: writing `d` removes the entry. -/
def Sparse.set {α : Type} [DecidableEq α] (d : α) : List (Nat × α) → Nat → α → List (Nat × α)
  | [], a, v => if v = d then [] else [(a, v)]
  | (k, w) :: m, a, v =>
    if a = k then (if v = d then m else (k, v) :: m)
    else if a < k then (if v = d then (k, w) :: m else (a, v) :: (k, w) :: m)
    else (k, w) :: Sparse.set d m a v

/-- Every key of the list is above `lo`, keys rise strictly and no value is `d`. -/
def Sparse.above {α : Type} [DecidableEq α] (d : α) : Nat → List (Nat × α) → Bool
  | _, [] => true
  | lo, (k, v) :: m => decide (lo < k) && decide (v ≠ d) && Sparse.above d k m

/-- The canonical form of a sparse map. -/
def Sparse.wf {α : Type} [DecidableEq α] (d : α) : List (Nat × α) → Bool
  | [] => true
  | (k, v) :: m => decide (v ≠ d) && Sparse.above d k m

/-- The map changed at one key by `f`. -/
def Sparse.upd {α : Type} [DecidableEq α] (d : α) (m : List (Nat × α)) (a : Nat) (f : α → α) : List (Nat × α) :=
  Sparse.set d m a (f (Sparse.get d m a))

/-- What a byte of memory that nothing has written reads as (DESIGN CHOICE, log 3). -/
def Memory.unlisted : Byte := 0

/-- The byte at a memory key. -/
def Memory.byte (m : List Host.Cell) (a : Nat) : Byte := Sparse.get Memory.unlisted m a

/-- Memory with one byte written. -/
def Memory.put (m : List Host.Cell) (a : Nat) (b : Byte) : List Host.Cell := Sparse.set Memory.unlisted m a b

/-- The canonical form of memory. -/
def Memory.wf (m : List Host.Cell) : Bool := Sparse.wf Memory.unlisted m

/-- Bytes written one after another from key `a`. -/
def Memory.write (m : List Host.Cell) (a : Nat) : List Byte → List Host.Cell
  | [] => m
  | b :: bs => Memory.write (Memory.put m a b) (a + 1) bs

/-- A list of (key, byte) pairs written in order. -/
def Memory.writeCells (m : List Host.Cell) : List Host.Cell → List Host.Cell
  | [] => m
  | (a, b) :: cs => Memory.writeCells (Memory.put m a b) cs

/-- `n` bytes from key `a`. -/
def Memory.read (m : List Host.Cell) (a : Nat) : Nat → List Byte
  | 0 => []
  | n + 1 => Memory.byte m a :: Memory.read m (a + 1) n

/-- The little-endian value of `n` bytes from key `a`. -/
def Memory.load (m : List Host.Cell) (a n : Nat) : Nat := bytesToNat (Memory.read m a n)

/-- The `n` bytes of a value written from key `a`. -/
def Memory.store (m : List Host.Cell) (a n v : Nat) : List Host.Cell := Memory.write m a (natToBytes n v)

end Sys2Proof.Machine
end

