-- ==== Sys2Proof/Config.lean ====
section
/-! DEFINITION. What a package fixes and the free values of the model. An opaque constant has no body: nothing can be
proved about its value, so a claim about the model holds whatever it is. -/

namespace Sys2Proof

/-- `clk` counts that pass in the step with this number (log 2): how long a step takes is left out as timing. -/
opaque Config.clkAdvance : Nat → Nat

/-- Which of the enabled actions the step with this number takes (log 4). -/
opaque Config.choose : Nat → Nat

/-- A free value of the step with this number, for what the spec leaves open (log 5). -/
opaque Config.freeNat : Nat → Nat

/-- A free 32-bit word of the step with this number (log 5). -/
opaque Config.freeWord : Nat → Word

/-- The hash of DPA[55:7] that gives a hall store's set, modulo 3,072 (R92), which the spec does not give (log 33). -/
opaque Config.hallSet : Nat → Nat

/-- The cores that fail their self-test at the start with this number (R369), an outside condition (log 8). -/
opaque Config.selfTest : Nat → List Nat

/-- The key drawn for slot 0 at the start with this number (R69). -/
opaque Config.randomKey : Nat → BitVec 512

/-- What the pool device holds in a line after a loss (R86), by step number and line (log 7). -/
opaque Config.poolContents : Nat → Nat → BitVec 1024

/-- How the start with this number ends: 0, or the WHY of the failing step (R369), an outside condition (log 8). -/
opaque Config.startOutcome : Nat → Nat

/-- The security version the fuses hold (R369). -/
opaque Config.fusedVersion : Nat

/-- Part and firmware identity that Identify returns (R362). -/
opaque Config.partNumber : Nat

/-- The packages whose links trained with another torus size at the start with this number (R364), an outside condition (log 8). -/
opaque Config.mismatched : Nat → List Nat

/-- The digest of a measurement block (R369, R371) at a firmware version: what is measured is not in the spec (log 14). -/
opaque Config.digest : Nat → Nat → BitVec 512

/-- The bytes of an SPDM response (R371), by step number: fixed by DSP0274 and module secrets, not by the spec (log 9). -/
opaque Config.spdmResponse : Nat → Nat

/-- Cores of a package (R4), as physical (die, x, y). -/
def Config.dies : Nat := 8
def Config.coresX : Nat := 32
def Config.coresY : Nat := 20

/-- The size of local store, and the first byte of its system region (R158, R167). -/
def Config.lsBytes : Nat := 0x300000
def Config.lsData : Nat := 0x2F0000

end Sys2Proof
end

