-- ==== Sys2Proof/Machine/State.lean ====
section
/-! DEFINITION. The state of a package: every register, table, memory and pending work the spec gives it, as plain
data. Values software can read as bits are bit vectors; counts, indices and coordinates are naturals. Tables keyed by a
core, a wave slot, a line and so on are sparse lists (Machine/Sparse.lean); an unlisted key holds the reset value.
Split stacks, trap save areas, climber contexts, lease windows, landings, rings, counters, anchors and subscription
records are bytes of local store, as the spec lays them out, and stand in `mem`. -/

namespace Sys2Proof.Machine

/-- Who runs the instruction being executed (the model's own). A core is its physical core word (R10). -/
inductive Agent where
  | none
  | wave (core slot split : Nat)
  | climber (core slot : Nat)
  deriving DecidableEq, Repr

/-- Where a split stands (R198, R206, R215, R328), and what a blocked one waits for. -/
inductive Park where
  | running
  /-- parked at `join` since this `clk` -/
  | join (since : Nat)
  /-- parked at a barrier of the group -/
  | barrier (b : Nat)
  | sleep (target : Nat)
  /-- `yield`: splits (slot × 4 + split) that must issue first, and the `clk` of the issue -/
  | yield (others : List Nat) (since : Nat)
  /-- in a blocking instruction that tries again; the reason code of R334 -/
  | waiting (why : Nat)
  deriving DecidableEq, Repr

/-- A blocking instruction that has sent its request (R106, R110, R102, R273, R309): what came back, if anything did. -/
inductive Await where
  | none
  | sent (id : Nat)
  /-- a release waiting for the writes that its issue found (R266, R267) -/
  | settling (ids : List Nat)
  /-- a waiter entry of a ring at the NI of a core (R137) -/
  | atRing (core : Nat)
  | answered (id data reason : Nat)
  /-- a `ctxld` whose group takes the matrix turn once that is free (R257) -/
  | resuming
  deriving DecidableEq, Repr

/-- A split of a wave (R198); its stack is in local store (R199). -/
structure Split where
  live : Bool := false
  pc : Word := 0
  mask : Word := 0
  depth : Nat := 0
  park : Park := .running
  await : Await := .none
  /-- fetched blocks (R165): address of the block, its 32 bytes -/
  buf : List (Nat × BitVec 256) := []
  /-- `clk` at the later of its last issue and its becoming ready (R313) -/
  stamp : Nat := 0
  /-- the core's count of issues at its last issue -/
  issued : Nat := 0
  /-- both before the issue under way, which a structural stall gives back (R313) -/
  was : Nat × Nat := (0, 0)
  /-- `clk` at which its blocking instruction first issued -/
  began : Nat := 0
  /-- words that its waiting instruction has consumed from channel registers (R29): register, word -/
  taken : List (Nat × BitVec 1024) := []
  deriving DecidableEq, Repr

/-- An asynchronous operation a wave or climber has issued and not seen complete (R262). -/
structure Op where
  id : Nat
  /-- `fence` class: 0 `.ls` (an `atm` result), 1 `.ps`, 2 `.cp`, 3 `.pb`; 4, of no class, an `emit` or `gdone` (R319) -/
  cls : Nat
  /-- it is complete at every scope up to device -/
  applied : Bool := false
  /-- first byte and length it writes, by VA, for the binding table (R267) -/
  va : Nat := 0
  len : Nat := 0
  /-- first byte and length it writes in a local store, by memory key (R268) -/
  ls : Nat × Nat := (0, 0)
  /-- landing named by a copy, as a pointer (R125) -/
  landing : Option DWord := Option.none
  deriving DecidableEq, Repr

/-- A pending `atm` (R269): registers not yet written, as register × 32 + lane. -/
structure AtmEntry where
  id : Nat
  pending : List Nat
  deriving DecidableEq, Repr

/-- A lease a wave holds (R105-R111). -/
structure Lease where
  id : Nat
  window : Nat
  /-- DPA[55:7] of the line -/
  line : Nat
  key : Nat
  /-- it has not aborted -/
  live : Bool
  dirty : BitVec 128
  deadline : Nat
  abort : Nat
  /-- the line's home (R76) -/
  point : Nat := 0
  deriving DecidableEq, Repr

/-- An entry of a wave's reservation table (R320): the node, the group whose instance it is, the credits. -/
structure Resv where
  node : Nat
  gid : Nat
  credits : Nat
  deriving DecidableEq, Repr

/-- An entry of a group's binding table (R267). -/
structure Binding where
  valid : Bool := false
  obj : DWord := 0
  reg : DWord := 0
  len : Word := 0
  deriving DecidableEq, Repr

/-- An open lease block (R107): its split, the words issued in it, and whether a trap handler opened it. -/
structure Block where
  split : Nat
  count : Nat
  handler : Bool
  deriving DecidableEq, Repr

/-- A wave slot (R198, R330). FAULTPC, FCAUSE, FADDR, FMASK, DFR and DMR are bytes of its save area (R337). -/
structure Wave where
  live : Bool := false
  /-- the group it belongs to -/
  gid : Nat := 0
  /-- `wave`: its index in the group -/
  index : Nat := 0
  launchMask : Word := 0
  exited : Word := 0
  splits : List Split := []
  /-- STATUS.TM (R331) -/
  tm : Bool := false
  /-- splits free at trap entry: those `eret` frees again (R338) -/
  freeAtTrap : List Nat := []
  fstat : Word := 0
  scr : List Word := [0, 0, 0, 0]
  /-- latched `clk`[63:32] (R12) -/
  clkLatch : Option Word := none
  /-- the open lease block (R107) -/
  block : Option Block := none
  /-- leases held, innermost first -/
  leases : List Lease := []
  /-- accumulator banks: first physical bank and length (R240) -/
  acc : Nat × Nat := (0, 0)
  resv : List Resv := []
  ops : List Op := []
  atms : List AtmEntry := []
  /-- registers an `atm` left unwritten by a failure (R81), as register × 32 + lane -/
  failed : List Nat := []
  /-- retired instructions and fingerprint of the pairing interval (R354) -/
  retired : Nat := 0
  fprint : DWord := 0
  /-- stopped at the end of a pairing interval (R354) -/
  stopped : Bool := false
  /-- the wave has issued `pair` in this direction at this `clk`, in these splits (R353) -/
  pairing : Option (Nat × Nat × List Nat) := none
  deriving DecidableEq, Repr

/-- A group barrier (R214). -/
structure Barrier where
  gen : Word := 0
  expect : Nat := 0
  /-- the count operand of the open generation's first arrival -/
  count : Option Nat := none
  /-- waves arrived, by index -/
  arrived : List Nat := []
  /-- arrival masks, by wave index -/
  masks : List (Nat × Word) := []
  deriving DecidableEq, Repr

/-- Where a group stands (R311, R343, R352). -/
inductive GroupPhase where
  | resident
  | saved
  | ended
  deriving DecidableEq, Repr

/-- What a paired group rolls back to (R354, R356). -/
structure Checkpoint where
  waves : List (Nat × Wave)
  regs : List (Nat × List (Nat × Word))
  csrs : List Word
  bars : List (Nat × Barrier)
  binds : List Binding
  /-- stacks and save area of each slot -/
  stackBytes : List (Nat × Nat × Nat)
  /-- bytes of local store before the interval wrote them, newest first -/
  log : List Host.Cell
  deriving DecidableEq, Repr

/-- The pairing of a group (R353-R357). -/
structure Pairing where
  partner : Nat
  dir : Nat
  low : Bool
  matched : Nat
  roll : Bool
  /-- the interval is running again after a mismatch -/
  rerun : Bool
  check : Checkpoint
  /-- operations held until the interval matches, oldest first -/
  held : List Task
  /-- fingerprint of the last matched interval -/
  last : DWord
  /-- the pairing ends when the interval closes: its group leaves (R355) or `unpair` (R357) -/
  leaving : Bool := false
  deriving DecidableEq, Repr

/-- A credit request waiting at an NI (R319): who asked, the credits asked, the operation, the credits granted so far. -/
structure Waiter where
  src : Issuer
  count : Nat
  id : Nat
  got : Nat := 0
  deriving DecidableEq, Repr

/-- The instance of a graph node that a group carries (R317, R319). Its ring is in the group's partition. -/
structure Inst where
  gslot : Nat
  node : Nat
  kind : Nat
  ringa : Nat
  log2n : Nat
  thr : Nat
  prods : Nat
  cred : Nat := 0
  done : Nat := 0
  /-- position of each untaken committed record and `clk` of its commit -/
  commits : List (Nat × Nat) := []
  /-- takes waiting, oldest first, as slot × 4 + split -/
  takers : List Nat := []
  waiters : List Waiter := []
  deriving DecidableEq, Repr

/-- What a placed traversal node sets in an NI (R284, R318). -/
structure Anchors where
  base : Nat
  count : Nat
  ahit : Nat
  shade : Nat
  fault : Nat
  stlen : Nat
  missb : Nat
  vmap : BitVec 4096
  canva : Nat
  canlen : Nat
  arb : Nat
  arl : Nat
  deriving DecidableEq, Repr

/-- A group of a launch (R302-R304, R214, R267, R330). -/
structure Group where
  gid : Nat
  lid : Nat
  /-- its number G in the launch -/
  num : Nat
  core : Nat
  /-- logical core word -/
  lcore : Nat
  phase : GroupPhase := .resident
  slots : List Nat := []
  waves : Nat := 0
  /-- registers per lane -/
  regs : Nat := 0
  pb : Nat := 0
  pl : Nat := 0
  chan : Bool := false
  cslot : Nat := 0
  acch : Nat := 0
  tvec : Word := 0
  cregb : Word := 0
  cregl : Word := 0
  ifw : Word := 0x100
  ifh : Word := 0x100
  coalt : Word := 0
  bars : List (Nat × Barrier) := []
  binds : List Binding := []
  /-- wave index that last held the matrix turn (R245) -/
  lastTurn : Nat := 0
  pair : Option Pairing := none
  /-- order of placement in the package (R307) -/
  placed : Nat := 0
  /-- its instance of a graph node; the anchor table and rings of a traversal node -/
  inst : Option Inst := none
  anchors : Option Anchors := none
  /-- counters armed by `cnt.init`: local address, and the group whose instance gave the credit (R325) -/
  armed : List (Nat × Nat) := []
  deriving DecidableEq, Repr

/-- Where a launch stands (R301-R308, R352). -/
inductive LaunchPhase where
  | pending
  | running
  | ending
  | done
  deriving DecidableEq, Repr

/-- An accepted launch (R300). -/
structure Launch where
  lid : Nat
  record : BitVec 1024
  va : Nat
  /-- effective priority, and system priority (R306) -/
  prio : Nat
  sys : Bool
  ctx : Nat
  /-- place in the order of acceptance -/
  order : Nat
  phase : LaunchPhase := .pending
  /-- groups from this number on have not been placed -/
  next : Nat := 0
  /-- groups of the launch -/
  total : Nat := 0
  /-- where its data image goes and its bytes, as its header gave them at submission (R312) -/
  image : Option (Nat × Nat) := none
  /-- operations its groups had in flight when they exited -/
  ops : List Op := []
  fault : Option EndReq := none
  deriving DecidableEq, Repr

/-- A live subscription entry of an NI (R97, R100). -/
structure Sub where
  record : Nat
  dpa : Nat
  len : Nat
  lsb : Nat
  gid : Nat
  /-- number of the last update applied (R100) -/
  seq : Nat
  deriving DecidableEq, Repr

/-- An accepted `mma` (R252, R253); its slot is 16 once its group has ended (R243). -/
structure Mma where
  slot : Nat
  fw : Word
  /-- physical bank -/
  bank : Nat
  index : Nat
  x : Nat
  y : Nat
  z : Bool
  zi : Bool
  half : Bool
  nc : Bool
  mask : Word
  pc : Word
  deriving DecidableEq, Repr

/-- A climber's state beyond its slot (R275, R287, R12, R390). Its context is in the slot's bytes (R274). -/
structure Climber where
  buf : List (Nat × BitVec 256) := []
  /-- `ntri` latch: t bits, bary, HITW -/
  latch : Option (Word × Word × Word) := none
  clkLatch : Option Word := none
  ops : List Op := []
  atms : List AtmEntry := []
  /-- cause of a failed operation: reason of R298 and cause -/
  failed : Option (Nat × Nat) := none
  await : Await := .none
  /-- a node or triangle record fetched by `nbox` or `ntri`: attempts made, and its 512 bits (R286) -/
  probe : Option (Nat × BitVec 512) := Option.none
  deriving DecidableEq, Repr

/-- One of the two 128-byte words of a channel receive buffer, and the flow control of a channel (R152-R154). -/
structure Channel where
  words : List (BitVec 1024) := []
  credits : Nat := 2
  /-- the neighbour is sealed: reads, writes have trapped once -/
  sealedIn : Bool := false
  readTrapped : Bool := false
  writeTrapped : Bool := false
  deriving DecidableEq, Repr

/-- A saved group (R343-R345). Its registers, accumulators, latches, stacks, save areas and partition are bytes of the image
at `va`; what the spec gives no place in the image stands here. -/
structure Saved where
  gid : Nat
  va : Nat
  ctx : Nat
  group : Group
  waves : List (Nat × Wave)
  /-- the wave slot that held the matrix turn -/
  turn : Option Nat
  /-- climber entries of its image, appended ones among them -/
  nclm : Nat
  bytes : Nat
  clk : Nat
  /-- the arbiter saved it, and resumes it; `ctxsv` otherwise -/
  own : Bool := true
  /-- wave slots that waited for banks, with the number asked, and for the turn (R257) -/
  bankAsks : List (Nat × Nat) := []
  turnAsks : List Nat := []
  deriving DecidableEq, Repr

/-- A physical core (R4, R168, R330 and the chapters named). -/
structure Core where
  sealed : Bool := false
  /-- fused off, or failed at self-test: out of service (R4, R369) -/
  off : Bool := false
  /-- to halt, once its lease blocks are closed; the split (slot × 4 + split) that issued the `halt` (R347) -/
  halted : Bool := false
  haltBy : Option Nat := none
  /-- the wave slot that its die's supervisor occupies, while one is placed (R351) -/
  supervisor : Option Nat := none
  /-- CSRs held by the core (R330) -/
  xbnd : Word := 0x00040000
  leasemax : Word := 256
  fpint : Word := 1024
  pairctl : Word := 0
  mchk : Word := 0
  sampctl : Word := 0
  sampper : Word := 0
  sampbuf : Word := 0
  samplen : Word := 0
  sampdrop : Word := 0
  /-- last wave slot sampled and `clk` of the last sample (R333); slot, split, PC and `clk` of the last issue (R334) -/
  sampled : Nat := 15
  sampledAt : Nat := 0
  lastIssue : Option (Nat × Nat × Nat × Nat) := none
  /-- issues counted, which order the last issues of splits (R313) -/
  cycles : Nat := 0
  /-- fetch requests queued, oldest first: slot, split (4 a climber), block (R165) -/
  fetchQ : List (Nat × Nat × Nat) := []
  /-- lease window pairs: the wave slot holding each, and waves waiting (R105) -/
  pairs : List (Option Nat) := [none, none, none, none]
  pairWait : List Nat := []
  /-- accumulator words, by physical bank × 16384 + row × 256 + column × 4 (R240) -/
  acc : List Host.Cell := []
  /-- runs of waves whose group has ended, held until its accepted `mma` have executed (R243) -/
  freeing : List (Nat × Nat) := []
  /-- operand latches at 4096 × (0-3), scale latches at 16384 + 256 × (0-3) (R236) -/
  latches : List Host.Cell := []
  /-- requests in the allocator: wave slot and banks asked (R241), and grants not yet taken up -/
  accWait : List (Nat × Nat) := []
  /-- the wave slot holding the matrix turn, and the waves asking, oldest first (R245) -/
  turn : Option Nat := none
  turnWait : List Nat := []
  mma : List Mma := []
  channels : List (Nat × Channel) := []
  subs : List Sub := []
  /-- treelets resident: id, SLOT, SIZE (R392) -/
  treelets : List (Nat × Nat × Nat) := []
  /-- records counted by sink nodes (R323) -/
  sunk : Nat := 0
  malformed : Nat := 0
  /-- climber slots in a pipe context, least recently issued first (R275) -/
  active : List Nat := []
  /-- climber slots placed and waiting for a context, oldest first -/
  placedQ : List Nat := []
  /-- spill ring: first entry and launch tags, oldest first (R150, R344) -/
  spillHead : Nat := 0
  spill : List Nat := []
  /-- HBM spill area: base DPA, bytes, first entry, launch tags (R149) -/
  spillBase : Nat := 0
  spillBytes : Nat := 0
  hbmHead : Nat := 0
  hbmSpill : List Nat := []
  /-- rays of a launch sent and received (R343) -/
  raysSent : Nat := 0
  raysReceived : Nat := 0
  /-- end of the copy turns reserved here (R119) -/
  copyTurns : Nat := 0
  deriving DecidableEq, Repr

/-- A leaf translation in a cache (R77). -/
structure Tlb where
  ctx : Nat
  /-- first VA and page bytes -/
  va : Nat
  bytes : Nat
  pte : BitVec 128
  deriving DecidableEq, Repr

/-- A table entry in a walk cache (R77): context, shift of its level's index, the VA above that shift, the entry. -/
structure WalkEntry where
  ctx : Nat
  shift : Nat
  prefix_ : Nat
  pte : BitVec 128
  deriving DecidableEq, Repr

/-- A cached canopy entry (R283) with its visits (R291). -/
structure Canopy where
  lid : Nat
  id : Nat
  /-- line of the entry -/
  line : Nat
  entry : BitVec 128
  visits : Nat := 0
  deriving DecidableEq, Repr

/-- A waiter entry of a hall unit (R291). -/
structure Parked where
  core : Nat
  slot : Nat
  lid : Nat
  id : Nat
  since : Nat
  deriving DecidableEq, Repr

/-- A page-in or replication under way at a hall unit (R291): the core it fills, the entry it began with. -/
structure PageIn where
  lid : Nat
  id : Nat
  core : Nat
  entry : BitVec 128
  /-- bytes already written -/
  done : Nat
  replica : Bool
  deriving DecidableEq, Repr

/-- A hall: its unit and copy engine (R77, R78, R115, R119, R126, R283, R291). -/
structure Hall where
  tlb : List Tlb := []
  walks : List WalkEntry := []
  engineTlb : List Tlb := []
  queue : List CopyCmd := []
  /-- E and G of R119 -/
  eClk : Nat := 0
  gClk : Nat := 0
  /-- fault records in use: index, bits, group -/
  faults : List (Nat × BitVec 128 × Nat) := []
  canopy : List Canopy := []
  parked : List Parked := []
  pageIns : List PageIn := []
  /-- treelets known Paging elsewhere, and `clk` of the last reading -/
  rereads : List (Nat × Nat × Nat) := []
  visitsAt : Nat := 0
  deriving DecidableEq, Repr

/-- State of a line at its home (R94). -/
inductive LineState where
  | invalid
  | filling
  | clean
  | dirty
  | poisoned
  deriving DecidableEq, Repr

/-- A lease as its home holds it (R108-R111). -/
structure HomeLease where
  id : Nat
  src : Issuer
  deadline : Nat
  point : Nat
  deriving DecidableEq, Repr

/-- Replies to an atomic of a pool line, which leave once the line is written to the pool device, and those that leave instead
when the link is lost (R86, R260, R262). -/
structure Owed where
  written : List Task
  lost : List Task
  deriving DecidableEq, Repr

/-- A 128-byte line: its state at the home (R94), the key its stored bytes are encrypted under (R68-R70), its lease and
the requests its home holds, oldest first (R95, R109). -/
structure Line where
  state : LineState := .invalid
  tag : Nat := 0
  /-- the hall that caches it (R92), and the step of its last use (R94) -/
  home : Nat := 0
  used : Nat := 0
  key : Option (BitVec 512) := none
  lease : Option HomeLease := none
  /-- bytes before the lease, which reads by copies are served from, need no copy: a commit is one write -/
  queue : List Task := []
  /-- operations applied here and not yet written to the pool device (R262) -/
  unwritten : List (Issuer × Nat) := []
  owed : List Owed := []
  deriving DecidableEq, Repr

/-- A subscribed range at its home (R99, R100). -/
structure Dir where
  dpa : Nat
  len : Nat
  count : Nat
  /-- exact sharers: core and record address -/
  sharers : List (Nat × Nat)
  coarse : Bool
  /-- grain, the core that owns it, and the record that claims it -/
  owners : List (Nat × Nat × Nat)
  /-- the hall of the die that is home to the range's first line, which holds the entry (log 70) -/
  point : Nat
  deriving DecidableEq, Repr

/-- A watch held at an execution point (R273): word, target, who waits. -/
structure Watch where
  key : Nat
  slot : Nat
  point : Nat
  target : Word
  src : Issuer
  id : Nat
  deriving DecidableEq, Repr

/-- What a shootdown was started by (R82, R88, R89, R348). -/
inductive Shooter where
  | wave (src : Issuer)
  | host
  | flip (page : Nat)
  | move (id : Nat)
  deriving DecidableEq, Repr

/-- A shootdown in progress (R82). -/
structure Shoot where
  id : Nat
  ctx : Nat
  allCtx : Bool
  va : Nat
  /-- 0: the whole context -/
  len : Nat
  why : Shooter
  /-- messages translated before it began -/
  left : List Task
  deriving DecidableEq, Repr

/-- A bias flip or page move in progress (R88-R91). -/
structure PageOp where
  id : Nat
  ctx : Nat
  va : Nat
  bytes : Nat
  /-- DPA of the PTE's line entry, old and new DPA of the page -/
  pte : Nat
  old : Nat
  new : Nat
  /-- a move rather than a flip; a retirement -/
  move : Bool
  retire : Bool
  /-- step of R88 or R89 reached -/
  step : Nat
  /-- operations held for the page, oldest first (R90) -/
  queue : List Task
  deriving DecidableEq, Repr

/-- A combining barrier (R327): its launch, level and unit. -/
structure Cbar where
  lid : Nat
  level : Nat
  unit : Nat
  gen : Word
  expect : Nat
  sub : Nat
  /-- arrivals of the open generation: group, wave index, value -/
  arrived : List (Nat × Nat × Word)
  /-- replies not yet taken up: group, wave index, mismatch, value -/
  replies : List (Nat × Nat × Bool × Word)
  deriving DecidableEq, Repr

/-- An entry of a die's frame table (R9, R345). -/
structure Frame where
  lid : Nat
  logical : Nat
  physical : Nat
  saved : Option Nat := none
  deriving DecidableEq, Repr

/-- A pool port (R84, R86) or a flight link (R365). -/
structure Link where
  active : Bool := true
  /-- `clk` at which it left the active state -/
  downAt : Nat := 0
  lost : Bool := false
  /-- lines discarded at losses (pool), or flits replayed (flight) -/
  count : Nat := 0
  deriving DecidableEq, Repr

/-- A host launch ring (R306, R360): its configuration; its bytes are in `mem`. -/
structure HostRing where
  log2n : Nat := 0
  prio : Nat := 0
  priv : Bool := false
  deriving DecidableEq, Repr

/-- A slot of the graph table (R316). -/
structure GraphSlot where
  va : Nat := 0
  ctx : Nat := 0
  count : Nat := 0
  faultNode : Nat := 0
  /-- faults with no instance to go to (R323) -/
  lost : Nat := 0
  /-- fault counts of its traversal nodes (R297) -/
  faults : List (Nat × Nat) := []
  deriving DecidableEq, Repr

/-- A membership table (R367): its header, and the two bytes of each rank. -/
structure Members where
  header : BitVec 512 := 0
  entries : List (BitVec 16) := []
  deriving DecidableEq, Repr

/-- An island of the package (R11, R373): clock, floor and ceiling in MHz. -/
structure Island where
  mhz : Nat := 2000
  floor : Nat := 1200
  ceiling : Nat := 2400
  deriving DecidableEq, Repr

/-- Staged firmware (R369, R370). -/
structure Firmware where
  valid : Bool
  version : Nat
  deriving DecidableEq, Repr

/-- The CXL return code of a mailbox command (R362). -/
inductive ReturnCode where
  | success
  | backgroundStarted
  | unsupported
  deriving DecidableEq, Repr

/-- The last reply of the mailbox (R362): opcode, status, payload. -/
structure Reply where
  opcode : Nat
  status : Nat
  data : List Nat
  code : ReturnCode
  deriving DecidableEq, Repr

/-- The algorithms of R371. -/
inductive SpdmAlgorithm where
  | ecdsaP521
  | sha512
  | ecdheSecp521r1
  | aes256Gcm
  deriving DecidableEq, Repr

/-- A response of the SPDM responder (R371): what the rule fixes of it; `bytes` is the rest, a free value (log 9). -/
inductive SpdmAnswer where
  | version (major minor : Nat)
  | capabilities (psk mutualAuth provisioning : Bool)
  | algorithms (set : List SpdmAlgorithm)
  | measurements (blocks : List (Nat × BitVec 512))
  | bytes (content : Nat)
  deriving DecidableEq, Repr

/-- The SPDM responder (R371): the negotiation reached, an open secured session, the last response. -/
structure Spdm where
  version : Bool := false
  capable : Bool := false
  negotiated : Bool := false
  exchanging : Bool := false
  session : Bool := false
  response : Option SpdmAnswer := none
  deriving DecidableEq, Repr

/-- The IEEE 1149.1 port (R372). -/
structure Jtag where
  instr : Nat := 0
  rbaddr : DWord := 0
  unlocked : Bool := false
  out : DWord := 0
  deriving DecidableEq, Repr

/-- Why the model stops. -/
inductive Fault where
  /-- `exec` was asked to run an instruction of Epari with no wave or climber issuing it; `step` never does (safe). -/
  | noIssuer
  deriving DecidableEq, Repr

/-- What the model has no meaning for. -/
inductive Refusal where
  /-- `exec`, for an instruction that has no meaning yet (safe). -/
  | notModelled (mnemonic : String)
  deriving DecidableEq, Repr

/-- The state of a package. -/
structure State where
  /-- the model's own: the agent whose instruction is being executed -/
  cur : Agent
  /-- the model's own: the word being executed, which ILLEGAL_INSTR and others give as FADDR (R339) -/
  ir : DWord
  /-- the model's own: number of the step, which the free values are taken at -/
  nonce : Nat
  /-- the model's own: what the event being executed brings -/
  arg : Arg
  /-- messages in flight, engine work and outside inputs, oldest first -/
  agenda : List Task
  /-- numbers given to operations -/
  nextId : Nat
  /-- the chip clock counter, 64 bits (R12) -/
  clk : Nat
  /-- memory: DPAs below 2^56; local stores at their kind-10 pointer value; ring windows from 2^64 (R65, R389, R360) -/
  mem : List Host.Cell
  /-- registers of each wave (core × 16 + slot), by register × 32 + lane (R25) -/
  regs : List (Nat × List (Nat × Word))
  waves : List (Nat × Wave)
  climbers : List (Nat × Climber)
  cores : List (Nat × Core)
  halls : List (Nat × Hall)
  groups : List Group
  launches : List Launch
  saved : List Saved
  /-- launches accepted (R309), groups placed -/
  accepted : Nat
  placements : Nat
  frames : List Frame
  cbars : List Cbar
  /-- lines by DPA[55:7] -/
  lines : List (Nat × Line)
  dirs : List Dir
  watches : List Watch
  shoots : List Shoot
  pageOps : List PageOp
  /-- the line by whose DPA an HDM line was last written, where two regions name one: the tweak it is stored under (R68, R85) -/
  tweaks : List (Nat × Nat)
  /-- the counters behind SSEQ (R147), by source, or by source, target and channel -/
  sseqs : List (Nat × Nat)
  /-- the last answer of each pool port to a back-invalidation snoop: line, and the state it keeps (R84) -/
  birsp : List (Nat × Nat × Nat)
  /-- 64-byte sectors of host-biased lines: 1 host shared, 2 host owned (R96) -/
  sectors : List (Nat × Nat)
  /-- erroneous storage (R166, R67, R254, R349): 1 correctable, 2 uncorrectable, by bank-word key, sector, line, core -/
  badLs : List (Nat × Nat)
  badHbm : List (Nat × Nat)
  badHall : List (Nat × Nat)
  badArray : List (Nat × Nat)
  /-- corrected errors by stack (R67) and the scrubber's next sector -/
  corrected : List (Nat × Nat)
  scrub : Nat
  /-- host CXL.mem and pool state -/
  roots : List (Nat × Nat)
  keys : List (Nat × Option (BitVec 512))
  keyLock : Bool
  /-- end of the copy slots granted by the host link (1) and the pool ports (2 to 5) (R119) -/
  slots : List (Nat × Nat)
  regions : List (Nat × DWord)
  ports : List (Nat × Link)
  flights : List (Nat × Link)
  rings : List (Nat × HostRing)
  /-- the host ring last served, by priority (R307) -/
  ringTurn : List (Nat × Nat)
  graphs : List (Nat × GraphSlot)
  tables : List (Nat × Members)
  imageBase : Nat
  imageBytes : Nat
  /-- scale-up domain (R364) -/
  pkg : Nat
  torusX : Nat
  torusY : Nat
  /-- packages whose links trained with another torus size, and those outside the domain since a `clk` (R364, R368) -/
  mismatched : List Nat
  away : List (Nat × Nat)
  /-- counts that `clk` is behind the reference, and `clk` at the last exchange and at the last correction (R366) -/
  lag : Int
  exchanged : Nat
  slewed : Nat
  /-- power and islands (R373, R374) -/
  cap : Nat
  islands : List (Nat × Island)
  thermal : Bool
  /-- `clk` at the last comparison of power (R373) -/
  powerAt : Nat
  /-- start-up (R330, R369, R370) -/
  fails : Nat
  why : Nat
  min : Bool
  up : Bool
  startedAt : Nat
  firmware : Firmware
  staged : Option Firmware
  /-- measurement blocks extended at the last start (R369, R371) -/
  measured : List (Nat × BitVec 512)
  /-- supervisors placed, by die, and rays they discarded (R350, R351) -/
  supervisors : List (Nat × Option Nat)
  discarded : List (Nat × Nat)
  /-- fault report queue, oldest first, and reports lost (R363) -/
  reports : List (BitVec 512)
  reportsLost : Nat
  /-- MSI-X vectors signalled, oldest first (R361); the background command running, the last reply (R362) -/
  msix : List Nat
  background : Option Nat
  reply : Option Reply
  spdm : Spdm
  jtag : Jtag
  deriving DecidableEq, Repr

/-- The state right after a cold reset, before the start-up of R369: what the spec gives a reset value holds it; the
rest is named in log 10. -/
def State.reset : State :=
  { cur := .none, ir := 0, nonce := 0, arg := .none, agenda := [], nextId := 1, clk := 0, mem := [], regs := [], waves := []
    climbers := [], cores := [], halls := [], groups := [], launches := [], saved := [], accepted := 0
    placements := 0, frames := [], cbars := [], lines := [], dirs := [], watches := [], shoots := [], pageOps := [], tweaks := [], sseqs := [], birsp := []
    sectors := [], badLs := [], badHbm := [], badHall := [], badArray := [], corrected := [], scrub := 0
    roots := [], keys := [], keyLock := false, slots := [], regions := [], ports := [], flights := [], rings := [], ringTurn := []
    graphs := [], tables := [], imageBase := 0, imageBytes := 0
    pkg := 0, torusX := 1, torusY := 1, mismatched := [], away := [], lag := 0, exchanged := 0, slewed := 0, powerAt := 0, measured := [], cap := 5200, islands := [], thermal := false
    fails := 0, why := 0, min := false, up := false, startedAt := 0
    firmware := ⟨true, 0⟩, staged := none
    supervisors := [], discarded := [], reports := [], reportsLost := 0, msix := [], background := none
    reply := none, spdm := {}, jtag := {} }

end Sys2Proof.Machine
end

