-- ==== Sys2Proof/Machine/Ops.lean ====
section
/-! DEFINITION. Named operations on the state: coordinates, tables, registers, local store, split stacks, the trap save
area, taking a trap and returning from one (R336-R338). -/

namespace Sys2Proof.Machine

/-! Coordinates (R8, R10, R11, R389). -/

/-- A core word (R10). -/
def coreWord (pkg die x y : Nat) : Nat := pkg * 8192 + die * 1024 + x * 32 + y

def corePkg (c : Nat) : Nat := c / 8192
def coreDie (c : Nat) : Nat := c / 1024 % 8
def coreX (c : Nat) : Nat := c / 32 % 32
def coreY (c : Nat) : Nat := c % 32

/-- The core word names a core: y is 0-19 (R389). -/
def coreExists (c : Nat) : Bool := decide (coreY c < 20)

/-- The hall of a core within its die (R8). -/
def hallInDie (c : Nat) : Nat := coreY c / 4 * 8 + coreX c / 4

/-- The package number of a core's hall (R8). -/
def hallOf (c : Nat) : Nat := coreDie c * 40 + hallInDie c

/-- The island of a core (R11). -/
def islandOf (c : Nat) : Nat := coreDie c * 2 + coreX c / 16

/-- Package coordinates of a core (R8). -/
def packX (c : Nat) : Nat := 32 * (coreDie c % 2) + coreX c
def packY (c : Nat) : Nat := 20 * (coreDie c / 2) + coreY c

/-- The distance of two naturals. -/
def absDiff (a b : Nat) : Nat := (a - b) + (b - a)

/-- Hops between two cores of a package (R141). -/
def hops (a b : Nat) : Nat := absDiff (packX a) (packX b) + absDiff (packY a) (packY b)

/-- Stair crossings of the route between two cores: die seams crossed (R6). -/
def stairs (a b : Nat) : Nat := absDiff (packX a / 32) (packX b / 32) + absDiff (packY a / 20) (packY b / 20)

/-- The core whose router a hall unit attaches to (R142). -/
def unitCore (s : State) (hall : Nat) : Nat :=
  coreWord s.pkg (hall / 40) (hall % 40 % 8 * 4 + 1) (hall % 40 / 8 * 4 + 1)

/-- Every core of a hall, column by column (R8, R291). -/
def coresOfHall (pkg hall : Nat) : List Nat :=
  (List.range 4).flatMap fun dx => (List.range 4).map fun dy =>
    coreWord pkg (hall / 40) (hall % 40 % 8 * 4 + dx) (hall % 40 / 8 * 4 + dy)

/-- The memory key of a local-store byte: its kind-10 pointer (R389). -/
def lsKey (core off : Nat) : Nat := 2 ^ 63 + core * 2 ^ 35 + off

/-- A memory key is in a local store; its core and offset. -/
def isLsKey (k : Nat) : Bool := decide (2 ^ 63 ≤ k) && decide (k < 2 ^ 64)
def keyCore (k : Nat) : Nat := (k - 2 ^ 63) / 2 ^ 35
def keyOff (k : Nat) : Nat := k % 2 ^ 22

/-- The memory key of a byte of a launch-ring window (R360). -/
def ringKey (ring off : Nat) : Nat := 2 ^ 64 + ring * 65536 + off

/-! Tables. -/

def State.core (s : State) (c : Nat) : Core := Sparse.get {} s.cores c
def State.setCore (s : State) (c : Nat) (v : Core) : State := { s with cores := Sparse.set {} s.cores c v }
def State.updCore (s : State) (c : Nat) (f : Core → Core) : State := s.setCore c (f (s.core c))

/-- XBND of a core as an address. -/
def State.xbnd (s : State) (core : Nat) : Nat := (s.core core).xbnd.toNat

/-- The key of a wave slot of a core in `waves` and `regs`. -/
def waveKey (core slot : Nat) : Nat := core * 16 + slot

def State.wave (s : State) (core slot : Nat) : Wave := Sparse.get {} s.waves (waveKey core slot)
def State.setWave (s : State) (core slot : Nat) (w : Wave) : State :=
  { s with waves := Sparse.set {} s.waves (waveKey core slot) w }
def State.updWave (s : State) (core slot : Nat) (f : Wave → Wave) : State := s.setWave core slot (f (s.wave core slot))

/-- The key of a climber slot of a core in `climbers`. -/
def climberKey (core slot : Nat) : Nat := core * 256 + slot

def State.climber (s : State) (core slot : Nat) : Climber := Sparse.get {} s.climbers (climberKey core slot)
def State.setClimber (s : State) (core slot : Nat) (v : Climber) : State :=
  { s with climbers := Sparse.set {} s.climbers (climberKey core slot) v }
def State.updClimber (s : State) (core slot : Nat) (f : Climber → Climber) : State :=
  s.setClimber core slot (f (s.climber core slot))

def State.hall (s : State) (h : Nat) : Hall := Sparse.get {} s.halls h
def State.setHall (s : State) (h : Nat) (v : Hall) : State := { s with halls := Sparse.set {} s.halls h v }
def State.updHall (s : State) (h : Nat) (f : Hall → Hall) : State := s.setHall h (f (s.hall h))

def State.line (s : State) (l : Nat) : Line := Sparse.get {} s.lines l
def State.setLine (s : State) (l : Nat) (v : Line) : State := { s with lines := Sparse.set {} s.lines l v }
def State.updLine (s : State) (l : Nat) (f : Line → Line) : State := s.setLine l (f (s.line l))

/-- The group with this number. -/
def State.group? (s : State) (gid : Nat) : Option Group := s.groups.find? (fun g => g.gid == gid)
def State.updGroup (s : State) (gid : Nat) (f : Group → Group) : State :=
  { s with groups := s.groups.map fun g => if g.gid == gid then f g else g }

/-- The launch with this id. -/
def State.launch? (s : State) (lid : Nat) : Option Launch := s.launches.find? (fun l => l.lid == lid)
def State.updLaunch (s : State) (lid : Nat) (f : Launch → Launch) : State :=
  { s with launches := s.launches.map fun l => if l.lid == lid then f l else l }

/-- Island clock in MHz (R11). -/
def State.mhz (s : State) (i : Nat) : Nat := (Sparse.get {} s.islands i).mhz

/-- A message, engine step or input added behind the others. -/
def State.post (s : State) (op : Instr) (arg : Arg) : State := { s with agenda := s.agenda ++ [⟨op, arg⟩] }
def State.postAll (s : State) (ts : List Task) : State := { s with agenda := s.agenda ++ ts }

/-- `clk` after `n` counts more: the counter has 64 bits (R2, R12). -/
def State.clkAfter (s : State) (n : Nat) : Nat := (s.clk + n) % 2 ^ 64

/-- The core is out of service: sealed, fused off or failed at self-test (R4, R349, R369). -/
def State.outOfService (s : State) (core : Nat) : Bool := (s.core core).sealed || (s.core core).off

/-- Counts of `clk` since a reading of it. -/
def State.clkSince (s : State) (t : Nat) : Nat := (2 ^ 64 + s.clk - t) % 2 ^ 64

/-- `clk` has reached a time set less than half its range ahead. -/
def State.reached (s : State) (t : Nat) : Bool := decide (s.clkSince t < 2 ^ 63)

/-- A number for an operation. -/
def State.freshId (s : State) : State := { s with nextId := s.nextId + 1 }

/-! The agent whose instruction is being executed. -/

def Agent.core : Agent → Nat
  | .none => 0
  | .wave c _ _ => c
  | .climber c _ => c

def Agent.slot : Agent → Nat
  | .none => 0
  | .wave _ w _ => w
  | .climber _ k => k

def Agent.split : Agent → Nat
  | .wave _ _ p => p
  | _ => 0

def Agent.isClimber : Agent → Bool
  | .climber _ _ => true
  | _ => false

/-- The core the current instruction runs on. -/
def State.curCore (s : State) : Nat := s.cur.core

/-- The issuing wave. -/
def State.curWave (s : State) : Wave := s.wave s.cur.core s.cur.slot

def State.updCurWave (s : State) (f : Wave → Wave) : State := s.updWave s.cur.core s.cur.slot f

/-- The issuing split. -/
def State.curSplit (s : State) : Split := s.curWave.splits.getD s.cur.split {}

/-- The split changed in its wave. -/
def Wave.updSplit (w : Wave) (p : Nat) (f : Split → Split) : Wave :=
  { w with splits := w.splits.set p (f (w.splits.getD p {})) }

def State.updSplit (s : State) (core slot p : Nat) (f : Split → Split) : State :=
  s.updWave core slot fun w => w.updSplit p f

def State.updCurSplit (s : State) (f : Split → Split) : State := s.updSplit s.cur.core s.cur.slot s.cur.split f

/-- The climber being executed. -/
def State.curClimber (s : State) : Climber := s.climber s.cur.core s.cur.slot

def State.updCurClimber (s : State) (f : Climber → Climber) : State := s.updClimber s.cur.core s.cur.slot f

/-! Local store. -/

/-- The little-endian value of `n` bytes of a local store. -/
def State.ls (s : State) (core off n : Nat) : Nat := Memory.load s.mem (lsKey core off) n

/-- The `n` bytes of a value stored in a local store, hardware writing. -/
def State.setLs (s : State) (core off n v : Nat) : State := { s with mem := Memory.store s.mem (lsKey core off) n v }

/-! Climber slots (R144, R274). -/

def climberBase (slot : Nat) : Nat := 0x2F0000 + 128 * slot

/-- Predicate word of a climber. -/
def State.preds (s : State) (core slot : Nat) : Word := BitVec.ofNat 32 (s.ls core (climberBase slot + 4) 4)
def State.setPreds (s : State) (core slot : Nat) (v : Word) : State := s.setLs core (climberBase slot + 4) 4 v.toNat

/-- Register c_k of a climber. -/
def State.creg (s : State) (core slot k : Nat) : Word := BitVec.ofNat 32 (s.ls core (climberBase slot + 8 + 4 * k) 4)
def State.setCreg (s : State) (core slot k : Nat) (v : Word) : State :=
  s.setLs core (climberBase slot + 8 + 4 * k) 4 v.toNat

def State.cpc (s : State) (core slot : Nat) : Word := BitVec.ofNat 32 (s.ls core (climberBase slot) 4)
def State.setCpc (s : State) (core slot : Nat) (v : Word) : State := s.setLs core (climberBase slot) 4 v.toNat

/-- ST of a climber slot: 0 free, 1 placed, 2 active, 3 parked, 4 awaiting a result (R274). -/
def State.cst (s : State) (core slot : Nat) : Nat := s.ls core (climberBase slot + 112) 1 % 8
def State.setCst (s : State) (core slot st : Nat) : State :=
  s.setLs core (climberBase slot + 112) 1 (s.ls core (climberBase slot + 112) 1 / 8 * 8 + st % 8)

/-- LNCH of a climber slot: bits [39:8] of the map at byte 112 (R274). -/
def State.clid (s : State) (core slot : Nat) : Nat := s.ls core (climberBase slot + 113) 4
def State.setClid (s : State) (core slot lid : Nat) : State := s.setLs core (climberBase slot + 113) 4 lid

/-! Registers (R25). -/

/-- The key of a register's lane in a wave's register file. -/
def regKey (r lane : Nat) : Nat := r * 32 + lane

/-- v_r of a lane. -/
def State.vreg (s : State) (core slot r lane : Nat) : Word :=
  Sparse.get 0 (Sparse.get [] s.regs (waveKey core slot)) (regKey r lane)

def State.setVreg (s : State) (core slot r lane : Nat) (v : Word) : State :=
  { s with regs := Sparse.upd [] s.regs (waveKey core slot) fun m => Sparse.set 0 m (regKey r lane) v }

/-- The lanes of a mask, lowest first. -/
def lanesOf (m : Word) : List Nat := (List.range 32).filter fun l => m.getLsbD l

/-- The mask of the lanes below 32 that a test picks. -/
def maskOf (p : Nat → Bool) : Word :=
  BitVec.ofNat 32 ((List.range 32).foldr (fun l acc => (if p l then 1 else 0) * 2 ^ l + acc) 0)

/-! Split stacks (R199). -/

/-- An entry of a reconvergence stack. -/
structure StackEntry where
  mask : Word
  tag : Nat
  /-- rejoin, rather than path -/
  rejoin : Bool
  bar : Bool
  pc : Word
  deriving DecidableEq, Repr

/-- Local address of level `k` of a stack. -/
def stackAddr (slot split k : Nat) : Nat := 0x2FE400 + 256 * slot + 64 * split + 8 * k

def StackEntry.bits (e : StackEntry) : Nat :=
  e.mask.toNat * 2 ^ 32 + e.tag % 16 * 2 ^ 28 + e.rejoin.toNat * 2 ^ 27 + e.bar.toNat * 2 ^ 26 + e.pc.toNat % 2 ^ 22

def StackEntry.ofBits (n : Nat) : StackEntry :=
  { mask := BitVec.ofNat 32 (n / 2 ^ 32), tag := n / 2 ^ 28 % 16, rejoin := decide (n / 2 ^ 27 % 2 = 1),
    bar := decide (n / 2 ^ 26 % 2 = 1), pc := BitVec.ofNat 32 (n % 2 ^ 22) }

def State.stackEntry (s : State) (core slot split k : Nat) : StackEntry :=
  StackEntry.ofBits (s.ls core (stackAddr slot split k) 8)

def State.setStackEntry (s : State) (core slot split k : Nat) (e : StackEntry) : State :=
  s.setLs core (stackAddr slot split k) 8 e.bits

/-- The 64 bytes of a stack copied to another split's. -/
def State.copyStack (s : State) (core slot a b : Nat) : State :=
  s.setLs core (stackAddr slot b 0) 64 (s.ls core (stackAddr slot a 0) 64)

/-! The trap save area (R337). -/

def saveArea (slot : Nat) : Nat := 0x2FF400 + 192 * slot

/-- The deferred-fault record (R341), as its 256 bits. -/
def State.dfr (s : State) (core slot : Nat) : Nat := s.ls core (saveArea slot + 96) 32
def State.setDfr (s : State) (core slot v : Nat) : State := s.setLs core (saveArea slot + 96) 32 v
def State.dfValid (s : State) (core slot : Nat) : Bool := decide (s.dfr core slot % 2 = 1)

/-- The deferred matrix record (R342). -/
def State.dmr (s : State) (core slot : Nat) : Nat := s.ls core (saveArea slot + 128) 8
def State.setDmr (s : State) (core slot v : Nat) : State := s.setLs core (saveArea slot + 128) 8 v
def State.dmValid (s : State) (core slot : Nat) : Bool := decide (s.dmr core slot / 2 ^ 63 = 1)

/-- CAUSE of the deferred-fault record, with its REASON above the eight bits. -/
def dfrCause (v : Nat) : Nat := v / 2 ^ 48 % 256 + 256 * (v / 2 ^ 44 % 16)
/-- ADDR of the deferred-fault record. -/
def dfrAddr (v : Nat) : DWord := BitVec.ofNat 64 (v / 2 ^ 192)
/-- CLASS of the deferred-fault record. -/
def dfrClass (v : Nat) : Nat := v / 2 ^ 40 % 16
/-- MAJ of the deferred-fault record. -/
def dfrMaj (v : Nat) : Nat := v / 2 ^ 56 % 256

/-- A deferred-fault record (R341). -/
def dfrBits (addr data pc maj cause reason cls lane aop sz : Nat) : Nat :=
  addr % 2 ^ 64 * 2 ^ 192 + data % 2 ^ 64 * 2 ^ 128 + pc % 2 ^ 32 * 2 ^ 64 + maj % 256 * 2 ^ 56 + cause % 256 * 2 ^ 48 +
    reason % 16 * 2 ^ 44 + cls % 16 * 2 ^ 40 + lane % 32 * 2 ^ 35 + aop % 16 * 2 ^ 28 + sz % 16 * 2 ^ 24 + 1

/-- The cause that an R80 reason raises. -/
def causeOf (reason : Nat) : Nat := if reason = 6 then 0x11 else 0x10

/-- The same as a precise trap carries it to the fault report of R363: the cause in [7:0], the reason above. -/
def reasonCause (reason : Nat) : Nat := causeOf reason + 256 * reason

/-- A failure recorded for a wave: the first stands, later ones are counted in MORE, saturating (R81, R341). -/
def State.recordFault (s : State) (core slot rec : Nat) : State :=
  let old := s.dfr core slot
  if old % 2 = 1 then
    (if old / 2 ^ 96 % 2 ^ 32 = 2 ^ 32 - 1 then s else s.setDfr core slot (old + 2 ^ 96))
  else s.setDfr core slot rec

/-! Privilege (R329). -/

/-- The group of a wave. -/
def State.groupOf (s : State) (core slot : Nat) : Option Group := s.group? (s.wave core slot).gid

/-- The launch an agent belongs to. -/
def State.launchOf (s : State) : Agent → Option Launch
  | .none => none
  | .wave c w _ => match s.groupOf c w with
    | some g => s.launch? g.lid
    | none => none
  | .climber c k => s.launch? (s.clid c k)

def State.curLaunch (s : State) : Option Launch := s.launchOf s.cur

/-- The group of the issuing wave. -/
def State.curGroup (s : State) : Option Group := s.groupOf s.cur.core s.cur.slot

/-- The current code runs with privilege: its launch was accepted with SYS = 1. -/
def State.privileged (s : State) : Bool :=
  match s.curLaunch with
  | some l => l.sys
  | none => false

/-- The translation context of the current launch (R72). -/
def State.curCtx (s : State) : Nat :=
  match s.curLaunch with
  | some l => l.ctx
  | none => 0

/-- TVEC of the issuing wave's group. -/
def State.tvec (s : State) : Word :=
  match s.curGroup with
  | some g => g.tvec
  | none => 0

/-- The address of the instruction being executed. -/
def State.curPc (s : State) : Word :=
  match s.cur with
  | .climber c k => s.cpc c k
  | _ => s.curSplit.pc

/-! Taking a trap and returning from one (R336, R338). -/

/-- The live leases of a wave abort: an abort message for each, and none is live (R111). A sealed core sends nothing. -/
def abortLeases (core slot : Nat) (s : State) : State :=
  let w := s.wave core slot
  let src : Issuer := { core := core, slot := slot, climber := false, split := 0, lane := 0, pc := 0, maj := 0x48 }
  let aborts := (w.leases.filter (·.live)).map fun l =>
    Task.mk .leaseAbort (.msg { src := src, tgt := l.line * 128, id := l.id, ordered := true, point := l.point })
  (s.updWave core slot fun w => { w with leases := w.leases.map fun l => { l with live := false } }).postAll
    (if (s.core core).sealed then [] else aborts)

/-- The trap frame of R337 as its 256 bits. -/
def trapFrame (pc : Word) (cause : Nat) (faddr : DWord) (mask : Word) (depth split : Nat) : Nat :=
  faddr.toNat * 2 ^ 192 + mask.toNat * 2 ^ 160 + pc.toNat * 2 ^ 128 + cause % 256 * 2 ^ 120 + depth % 16 * 2 ^ 116 +
    split % 4 * 2 ^ 114

/-- The splits of a wave that are free. -/
def freeSplits (w : Wave) : List Nat := (List.range 4).filter fun p => !(w.splits.getD p {}).live

/-- Split `p` of a wave raises a precise cause (R336): its launch is ended when a handler is running or there is none;
otherwise the trap frame and stack are saved, TM is set and the split continues at TVEC. -/
def takeTrap (core slot p : Nat) (tvec : Word) (cause : Nat) (faddr : DWord) (resume : Word) (s : State) : State :=
  let w := s.wave core slot
  let sp := w.splits.getD p {}
  if w.tm || tvec == 0 then
    let lid := match s.group? w.gid with | some g => g.lid | none => 0
    let num := match s.group? w.gid with | some g => g.num | none => 0
    (s.updWave core slot fun w => { w with stopped := true }).post
      .launchEndOnFault (.ending { lid := lid, g := num, core := core, slot := slot, cause := cause % 256, pc := resume.toNat,
                                   faddr := faddr, reason := cause / 256, clk := s.clk })
  else
    let s := s.setLs core (saveArea slot) 32 (trapFrame resume cause faddr sp.mask sp.depth p)
    let s := s.setLs core (saveArea slot + 32) 64 (s.ls core (stackAddr slot p 0) 64)
    let s := s.updWave core slot fun w =>
      { (w.updSplit p fun sp => { sp with pc := tvec, park := .running, await := .none, buf := [] }) with
        tm := true, freeAtTrap := freeSplits w }
    if w.block.isSome then abortLeases core slot s else s

/-- `eret` in a handler (R338): splits created since entry become free, the trapped split takes back its PC, mask, stack
and depth from the save area, and TM is cleared. -/
def returnFromTrap (core slot : Nat) (s : State) : State :=
  let w := s.wave core slot
  let hi := s.ls core (saveArea slot + 14) 1
  let p := hi / 4 % 4
  let depth := hi / 16 % 16
  let pc := BitVec.ofNat 32 (s.ls core (saveArea slot + 16) 4)
  let mask := BitVec.ofNat 32 (s.ls core (saveArea slot + 20) 4)
  let s := s.setLs core (stackAddr slot p 0) 64 (s.ls core (saveArea slot + 32) 64)
  s.setWave core slot
    { ((w.freeAtTrap.foldl (fun w q => if q = p then w else w.updSplit q fun _ => {}) w).updSplit p fun sp =>
        { sp with live := true, pc := pc, mask := mask, depth := depth, park := .running, await := .none, buf := [] }) with
      tm := false, freeAtTrap := [] }

end Sys2Proof.Machine
end

