-- ==== Sys2Proof/Machine/Operands.lean ====
section
/-! DEFINITION. Operands: which registers an instruction names, who may execute it, active lanes, reading sources with
the specials and channels (R19-R29, R32, R152), and writing destinations. -/

namespace Sys2Proof.Machine

/-- What the checks of R34 look at: MAJ, guard, and the register groups read and written, as first register and size. -/
structure Shape where
  maj : Nat
  guard : Guard
  srcs : List (Nat × Nat)
  dsts : List (Nat × Nat)
  deriving DecidableEq, Repr

/-- The sources and destination of a slot of a pair word (R22). -/
def slotSrcs (p : PairSlot) : List (Nat × Nat) :=
  (if p.op = .mov then [] else [(p.d.toNat, 1)]) ++ (if p.imm then [] else [(p.b.toNat, 1)])

/-- The shape of an instruction; an event has none. -/
def shapeOf : Instr → Option Shape
  | .add g d a b => some (Shape.mk 0x1 g [(a.toNat, 1), (b.toNat, 1)] [(d.toNat, 1)])
  | .sub g d a b => some (Shape.mk 0x1 g [(a.toNat, 1), (b.toNat, 1)] [(d.toNat, 1)])
  | .addSatI32 g d a b => some (Shape.mk 0x1 g [(a.toNat, 1), (b.toNat, 1)] [(d.toNat, 1)])
  | .subSatI32 g d a b => some (Shape.mk 0x1 g [(a.toNat, 1), (b.toNat, 1)] [(d.toNat, 1)])
  | .addSatN32 g d a b => some (Shape.mk 0x1 g [(a.toNat, 1), (b.toNat, 1)] [(d.toNat, 1)])
  | .subSatN32 g d a b => some (Shape.mk 0x1 g [(a.toNat, 1), (b.toNat, 1)] [(d.toNat, 1)])
  | .addCy g d a b c => some (Shape.mk 0x1 g [(a.toNat, 1), (b.toNat, 1), (c.toNat, 1)] [(d.toNat, 1)])
  | .cy g d a b c => some (Shape.mk 0x1 g [(a.toNat, 1), (b.toNat, 1), (c.toNat, 1)] [(d.toNat, 1)])
  | .add64 g d a b => some (Shape.mk 0x1 g [(a.toNat, 2), (b.toNat, 2)] [(d.toNat, 2)])
  | .sub64 g d a b => some (Shape.mk 0x1 g [(a.toNat, 2), (b.toNat, 2)] [(d.toNat, 2)])
  | .mul g d a b => some (Shape.mk 0x2 g [(a.toNat, 1), (b.toNat, 1)] [(d.toNat, 1)])
  | .mulhI32 g d a b => some (Shape.mk 0x2 g [(a.toNat, 1), (b.toNat, 1)] [(d.toNat, 1)])
  | .mulhN32 g d a b => some (Shape.mk 0x2 g [(a.toNat, 1), (b.toNat, 1)] [(d.toNat, 1)])
  | .mad g d a b c => some (Shape.mk 0x2 g [(a.toNat, 1), (b.toNat, 1), (c.toNat, 1)] [(d.toNat, 1)])
  | .mulwI32 g d a b => some (Shape.mk 0x2 g [(a.toNat, 1), (b.toNat, 1)] [(d.toNat, 2)])
  | .mulwN32 g d a b => some (Shape.mk 0x2 g [(a.toNat, 1), (b.toNat, 1)] [(d.toNat, 2)])
  | .madwN32 g d a b c => some (Shape.mk 0x2 g [(a.toNat, 1), (b.toNat, 1), (c.toNat, 2)] [(d.toNat, 2)])
  | .madwI32 g d a b c => some (Shape.mk 0x2 g [(a.toNat, 1), (b.toNat, 1), (c.toNat, 2)] [(d.toNat, 2)])
  | .minI32 g d a b => some (Shape.mk 0x3 g [(a.toNat, 1), (b.toNat, 1)] [(d.toNat, 1)])
  | .maxI32 g d a b => some (Shape.mk 0x3 g [(a.toNat, 1), (b.toNat, 1)] [(d.toNat, 1)])
  | .minN32 g d a b => some (Shape.mk 0x3 g [(a.toNat, 1), (b.toNat, 1)] [(d.toNat, 1)])
  | .maxN32 g d a b => some (Shape.mk 0x3 g [(a.toNat, 1), (b.toNat, 1)] [(d.toNat, 1)])
  | .abs g d a => some (Shape.mk 0x3 g [(a.toNat, 1)] [(d.toNat, 1)])
  | .neg g d a => some (Shape.mk 0x3 g [(a.toNat, 1)] [(d.toNat, 1)])
  | .sad g d a b c => some (Shape.mk 0x3 g [(a.toNat, 1), (b.toNat, 1), (c.toNat, 1)] [(d.toNat, 1)])
  | .sadN32 g d a b c => some (Shape.mk 0x3 g [(a.toNat, 1), (b.toNat, 1), (c.toNat, 1)] [(d.toNat, 1)])
  | .and g d a b => some (Shape.mk 0x4 g [(a.toNat, 1), (b.toNat, 1)] [(d.toNat, 1)])
  | .or g d a b => some (Shape.mk 0x4 g [(a.toNat, 1), (b.toNat, 1)] [(d.toNat, 1)])
  | .xor g d a b => some (Shape.mk 0x4 g [(a.toNat, 1), (b.toNat, 1)] [(d.toNat, 1)])
  | .andn g d a b => some (Shape.mk 0x4 g [(a.toNat, 1), (b.toNat, 1)] [(d.toNat, 1)])
  | .orn g d a b => some (Shape.mk 0x4 g [(a.toNat, 1), (b.toNat, 1)] [(d.toNat, 1)])
  | .lop3 g _ d a b c => some (Shape.mk 0x4 g [(a.toNat, 1), (b.toNat, 1), (c.toNat, 1)] [(d.toNat, 1)])
  | .shl g d a b => some (Shape.mk 0x5 g [(a.toNat, 1), (b.toNat, 1)] [(d.toNat, 1)])
  | .shr g d a b => some (Shape.mk 0x5 g [(a.toNat, 1), (b.toNat, 1)] [(d.toNat, 1)])
  | .sra g d a b => some (Shape.mk 0x5 g [(a.toNat, 1), (b.toNat, 1)] [(d.toNat, 1)])
  | .rol g d a b => some (Shape.mk 0x5 g [(a.toNat, 1), (b.toNat, 1)] [(d.toNat, 1)])
  | .ror g d a b => some (Shape.mk 0x5 g [(a.toNat, 1), (b.toNat, 1)] [(d.toNat, 1)])
  | .fsl g d a b c => some (Shape.mk 0x5 g [(a.toNat, 1), (b.toNat, 1), (c.toNat, 1)] [(d.toNat, 1)])
  | .fsr g d a b c => some (Shape.mk 0x5 g [(a.toNat, 1), (b.toNat, 1), (c.toNat, 1)] [(d.toNat, 1)])
  | .popc g d a => some (Shape.mk 0x6 g [(a.toNat, 1)] [(d.toNat, 1)])
  | .clz g d a => some (Shape.mk 0x6 g [(a.toNat, 1)] [(d.toNat, 1)])
  | .ctz g d a => some (Shape.mk 0x6 g [(a.toNat, 1)] [(d.toNat, 1)])
  | .brev g d a => some (Shape.mk 0x6 g [(a.toNat, 1)] [(d.toNat, 1)])
  | .bfxI32 g d a c => some (Shape.mk 0x6 g [(a.toNat, 1), (c.toNat, 1)] [(d.toNat, 1)])
  | .bfxN32 g d a c => some (Shape.mk 0x6 g [(a.toNat, 1), (c.toNat, 1)] [(d.toNat, 1)])
  | .bfi g d a b c => some (Shape.mk 0x6 g [(a.toNat, 1), (b.toNat, 1), (c.toNat, 1)] [(d.toNat, 1)])
  | .bil2 g d a b => some (Shape.mk 0x6 g [(a.toNat, 1), (b.toNat, 1)] [(d.toNat, 1)])
  | .bil3 g d a b c => some (Shape.mk 0x6 g [(a.toNat, 1), (b.toNat, 1), (c.toNat, 1)] [(d.toNat, 1)])
  | .bdl3 g d a b => some (Shape.mk 0x6 g [(a.toNat, 1), (b.toNat, 1)] [(d.toNat, 1)])
  | .bdl2 g d a b => some (Shape.mk 0x6 g [(a.toNat, 1), (b.toNat, 1)] [(d.toNat, 1)])
  | .icmp g _ comb pred d a b c => some (Shape.mk 0x7 g ([(a.toNat, 1)] ++ [(b.toNat, 1)] ++ (if pred || comb == .none then [] else [(c.toNat, 1)])) ((if pred then [] else [(d.toNat, 1)])))
  | .sel g d a b c => some (Shape.mk 0x8 g [(a.toNat, 1), (b.toNat, 1), (c.toNat, 1)] [(d.toNat, 1)])
  | .sxt8 g d a => some (Shape.mk 0x9 g [(a.toNat, 1)] [(d.toNat, 1)])
  | .sxt16 g d a => some (Shape.mk 0x9 g [(a.toNat, 1)] [(d.toNat, 1)])
  | .zxt8 g d a => some (Shape.mk 0x9 g [(a.toNat, 1)] [(d.toNat, 1)])
  | .zxt16 g d a => some (Shape.mk 0x9 g [(a.toNat, 1)] [(d.toNat, 1)])
  | .prm g d a b c => some (Shape.mk 0x9 g [(a.toNat, 1), (b.toNat, 1), (c.toNat, 1)] [(d.toNat, 1)])
  | .bswp g d a => some (Shape.mk 0x9 g [(a.toNat, 1)] [(d.toNat, 1)])
  | .divI32 g d a b => some (Shape.mk 0xa g [(a.toNat, 1), (b.toNat, 1)] [(d.toNat, 1)])
  | .divN32 g d a b => some (Shape.mk 0xa g [(a.toNat, 1), (b.toNat, 1)] [(d.toNat, 1)])
  | .remI32 g d a b => some (Shape.mk 0xa g [(a.toNat, 1), (b.toNat, 1)] [(d.toNat, 1)])
  | .remN32 g d a b => some (Shape.mk 0xa g [(a.toNat, 1), (b.toNat, 1)] [(d.toNat, 1)])
  | .mov g d a => some (Shape.mk 0xb g [(a.toNat, 1)] [(d.toNat, 1)])
  | .mov64 g d a => some (Shape.mk 0xb g [(a.toNat, 2)] [(d.toNat, 2)])
  | .mpadd g _ d a b => some (Shape.mk 0xc g [(a.toNat, 2), (b.toNat, 1)] [(d.toNat, 2)])
  | .mpmk g d a b => some (Shape.mk 0xc g [(a.toNat, 1), (b.toNat, 1)] [(d.toNat, 2)])
  | .mpcore g d a => some (Shape.mk 0xc g [(a.toNat, 2)] [(d.toNat, 1)])
  | .mpoff g d a => some (Shape.mk 0xc g [(a.toNat, 2)] [(d.toNat, 1)])
  | .mploc g d a => some (Shape.mk 0xc g [(a.toNat, 2)] [(d.toNat, 1)])
  | .addi g _ d a => some (Shape.mk 0x10 g [(a.toNat, 1)] [(d.toNat, 1)])
  | .muli g _ d a => some (Shape.mk 0x11 g [(a.toNat, 1)] [(d.toNat, 1)])
  | .andi g _ d a => some (Shape.mk 0x12 g [(a.toNat, 1)] [(d.toNat, 1)])
  | .ori g _ d a => some (Shape.mk 0x13 g [(a.toNat, 1)] [(d.toNat, 1)])
  | .xori g _ d a => some (Shape.mk 0x14 g [(a.toNat, 1)] [(d.toNat, 1)])
  | .movi g _ d => some (Shape.mk 0x15 g [] [(d.toNat, 1)])
  | .icmpi g _ _ d a => some (Shape.mk 0x16 g [(a.toNat, 1)] [(d.toNat, 1)])
  | .shli g _ d a => some (Shape.mk 0x17 g [(a.toNat, 1)] [(d.toNat, 1)])
  | .shri g _ d a => some (Shape.mk 0x18 g [(a.toNat, 1)] [(d.toNat, 1)])
  | .srai g _ d a => some (Shape.mk 0x19 g [(a.toNat, 1)] [(d.toNat, 1)])
  | .miniI32 g _ d a => some (Shape.mk 0x1a g [(a.toNat, 1)] [(d.toNat, 1)])
  | .maxiI32 g _ d a => some (Shape.mk 0x1b g [(a.toNat, 1)] [(d.toNat, 1)])
  | .addi64 g _ d a => some (Shape.mk 0x1c g [(a.toNat, 2)] [(d.toNat, 2)])
  | .pairWord x y => some (Shape.mk 0x80 .none (slotSrcs x ++ (match y with | none => [] | some y => slotSrcs y)) ((x.d.toNat, 1) :: (match y with | none => [] | some y => [(y.d.toNat, 1)])))
  | .fadd g _ d a b => some (Shape.mk 0x20 g [(a.toNat, 1), (b.toNat, 1)] [(d.toNat, 1)])
  | .fsub g _ d a b => some (Shape.mk 0x20 g [(a.toNat, 1), (b.toNat, 1)] [(d.toNat, 1)])
  | .fmul g _ d a b => some (Shape.mk 0x21 g [(a.toNat, 1), (b.toNat, 1)] [(d.toNat, 1)])
  | .ffma g _ d a b c => some (Shape.mk 0x22 g [(a.toNat, 1), (b.toNat, 1), (c.toNat, 1)] [(d.toNat, 1)])
  | .ffms g _ d a b c => some (Shape.mk 0x22 g [(a.toNat, 1), (b.toNat, 1), (c.toNat, 1)] [(d.toNat, 1)])
  | .fnma g _ d a b c => some (Shape.mk 0x22 g [(a.toNat, 1), (b.toNat, 1), (c.toNat, 1)] [(d.toNat, 1)])
  | .fnms g _ d a b c => some (Shape.mk 0x22 g [(a.toNat, 1), (b.toNat, 1), (c.toNat, 1)] [(d.toNat, 1)])
  | .fmin g d a b => some (Shape.mk 0x23 g [(a.toNat, 1), (b.toNat, 1)] [(d.toNat, 1)])
  | .fmax g d a b => some (Shape.mk 0x23 g [(a.toNat, 1), (b.toNat, 1)] [(d.toNat, 1)])
  | .fminp g d a b => some (Shape.mk 0x23 g [(a.toNat, 1), (b.toNat, 1)] [(d.toNat, 1)])
  | .fmaxp g d a b => some (Shape.mk 0x23 g [(a.toNat, 1), (b.toNat, 1)] [(d.toNat, 1)])
  | .fcmp g _ comb pred d a b c => some (Shape.mk 0x24 g ([(a.toNat, 1)] ++ [(b.toNat, 1)] ++ (if pred || comb == .none then [] else [(c.toNat, 1)])) ((if pred then [] else [(d.toNat, 1)])))
  | .frcp g d a => some (Shape.mk 0x25 g [(a.toNat, 1)] [(d.toNat, 1)])
  | .frsq g d a => some (Shape.mk 0x25 g [(a.toNat, 1)] [(d.toNat, 1)])
  | .fsqrt g d a => some (Shape.mk 0x25 g [(a.toNat, 1)] [(d.toNat, 1)])
  | .fex2 g d a => some (Shape.mk 0x25 g [(a.toNat, 1)] [(d.toNat, 1)])
  | .flg2 g d a => some (Shape.mk 0x25 g [(a.toNat, 1)] [(d.toNat, 1)])
  | .fsinp g d a => some (Shape.mk 0x25 g [(a.toNat, 1)] [(d.toNat, 1)])
  | .fcosp g d a => some (Shape.mk 0x25 g [(a.toNat, 1)] [(d.toNat, 1)])
  | .ftanh g d a => some (Shape.mk 0x25 g [(a.toNat, 1)] [(d.toNat, 1)])
  | .fdiv g d a b => some (Shape.mk 0x26 g [(a.toNat, 1), (b.toNat, 1)] [(d.toNat, 1)])
  | .fcls g d a => some (Shape.mk 0x27 g [(a.toNat, 1)] [(d.toNat, 1)])
  | .fscl g d a b => some (Shape.mk 0x27 g [(a.toNat, 1), (b.toNat, 1)] [(d.toNat, 1)])
  | .frint g _ d a => some (Shape.mk 0x27 g [(a.toNat, 1)] [(d.toNat, 1)])
  | .ffrac g d a => some (Shape.mk 0x27 g [(a.toNat, 1)] [(d.toNat, 1)])
  | .fcpsgn g d a b => some (Shape.mk 0x27 g [(a.toNat, 1), (b.toNat, 1)] [(d.toNat, 1)])
  | .hadd g _ d a b => some (Shape.mk 0x28 g [(a.toNat, 1), (b.toNat, 1)] [(d.toNat, 1)])
  | .hsub g _ d a b => some (Shape.mk 0x28 g [(a.toNat, 1), (b.toNat, 1)] [(d.toNat, 1)])
  | .hmul g _ d a b => some (Shape.mk 0x28 g [(a.toNat, 1), (b.toNat, 1)] [(d.toNat, 1)])
  | .hfma g _ d a b c => some (Shape.mk 0x28 g [(a.toNat, 1), (b.toNat, 1), (c.toNat, 1)] [(d.toNat, 1)])
  | .hmin g _ d a b => some (Shape.mk 0x28 g [(a.toNat, 1), (b.toNat, 1)] [(d.toNat, 1)])
  | .hmax g _ d a b => some (Shape.mk 0x28 g [(a.toNat, 1), (b.toNat, 1)] [(d.toNat, 1)])
  | .dot g _ d a b c => some (Shape.mk 0x29 g [(a.toNat, 1), (b.toNat, 1), (c.toNat, 1)] [(d.toNat, 1)])
  | .cvt g code _ d a b => some (Shape.mk 0x2a g ([(a.toNat, 1)] ++ (if code == 8 || code == 9 then [(b.toNat, 1)] else [])) [(d.toNat, 1)])
  | .qpk g fmt d a b => some (Shape.mk 0x2b g [(a.toNat, fmt.count), (b.toNat, 1)] [(d.toNat, 1)])
  | .qupk g fmt d a b => some (Shape.mk 0x2c g [(a.toNat, 1), (b.toNat, 1)] [(d.toNat, fmt.count)])
  | .mxsc g _ d a => some (Shape.mk 0x2d g [(a.toNat, 1)] [(d.toNat, 1)])
  | .shfl g _ _ _ d a b => some (Shape.mk 0x30 g [(a.toNat, 1), (b.toNat, 1)] [(d.toNat, 1)])
  | .voteAny g d a => some (Shape.mk 0x31 g [(a.toNat, 1)] [(d.toNat, 1)])
  | .voteAll g d a => some (Shape.mk 0x31 g [(a.toNat, 1)] [(d.toNat, 1)])
  | .voteUni g d a => some (Shape.mk 0x31 g [(a.toNat, 1)] [(d.toNat, 1)])
  | .ballot g d a => some (Shape.mk 0x31 g [(a.toNat, 1)] [(d.toNat, 1)])
  | .matchLanes g d a => some (Shape.mk 0x31 g [(a.toNat, 1)] [(d.toNat, 1)])
  | .lred g _ d a => some (Shape.mk 0x32 g [(a.toNat, 1)] [(d.toNat, 1)])
  | .lscan g _ _ d a => some (Shape.mk 0x33 g [(a.toNat, 1)] [(d.toNat, 1)])
  | .lmask g d => some (Shape.mk 0x34 g [] [(d.toNat, 1)])
  | .lbelow g d => some (Shape.mk 0x34 g [] [(d.toNat, 1)])
  | .lcnt g d => some (Shape.mk 0x34 g [] [(d.toNat, 1)])
  | .lfirst g d => some (Shape.mk 0x34 g [] [(d.toNat, 1)])
  | .elect g d => some (Shape.mk 0x34 g [] [(d.toNat, 1)])
  | .ld g sz _ d a => some (Shape.mk 0x40 g [(a.toNat, 1)] [(d.toNat, sz.regs)])
  | .st g sz _ a b => some (Shape.mk 0x41 g [(a.toNat, 1), (b.toNat, sz.regs)] [])
  | .ldk g sz _ d a => some (Shape.mk 0x42 g [(a.toNat, 1)] [(d.toNat, sz.regs)])
  | .ldix g sz _ d a b => some (Shape.mk 0x43 g [(a.toNat, 1), (b.toNat, 1)] [(d.toNat, sz.regs)])
  | .atl g aop _ _ d a b => some (Shape.mk 0x44 g [(a.toNat, 1), (b.toNat, if aop == .cas then 2 else 1)] [(d.toNat, 1)])
  | .atm g sz aop _ _ d a b => some (Shape.mk 0x45 g [(a.toNat, 2), (b.toNat, if aop == .cas then 2 * sz.regs else sz.regs)] [(d.toNat, sz.regs)])
  | .red g sz _ _ _ _ a b => some (Shape.mk 0x46 g [(a.toNat, 2), (b.toNat, sz.regs)] [])
  | .pst g sz _ a b => some (Shape.mk 0x47 g [(a.toNat, 2), (b.toNat, sz.regs)] [])
  | .lease g _ d a => some (Shape.mk 0x48 g [(a.toNat, 2)] [(d.toNat, 1)])
  | .lrel g d => some (Shape.mk 0x49 g [] [(d.toNat, 1)])
  | .pub g sz _ a b => some (Shape.mk 0x4a g [(a.toNat, 2), (b.toNat, sz.regs)] [])
  | .subs g d a => some (Shape.mk 0x4b g [(a.toNat, 1)] [(d.toNat, 1)])
  | .unsub g d a => some (Shape.mk 0x4c g [(a.toNat, 1)] [(d.toNat, 1)])
  | .lndInit g _ a b c => some (Shape.mk 0x50 g [(a.toNat, 1), (b.toNat, 1), (c.toNat, 1)] [])
  | .lndArr g d a b => some (Shape.mk 0x50 g [(a.toNat, 1), (b.toNat, 1)] [(d.toNat, 1)])
  | .lndExp g d a b => some (Shape.mk 0x50 g [(a.toNat, 1), (b.toNat, 1)] [(d.toNat, 1)])
  | .lndWait g d a b => some (Shape.mk 0x50 g [(a.toNat, 1), (b.toNat, 1)] [(d.toNat, 1)])
  | .lndTest g d a b => some (Shape.mk 0x50 g [(a.toNat, 1), (b.toNat, 1)] [(d.toNat, 1)])
  | .lndInv g d a => some (Shape.mk 0x50 g [(a.toNat, 1)] [(d.toNat, 1)])
  | .ringInit g _ a b c => some (Shape.mk 0x51 g [(a.toNat, 1), (b.toNat, 1), (c.toNat, 1)] [])
  | .ringRsv g d a => some (Shape.mk 0x51 g [(a.toNat, 2)] [(d.toNat, 2)])
  | .ringCmt g d a b => some (Shape.mk 0x51 g [(a.toNat, 2), (b.toNat, 2)] [(d.toNat, 1)])
  | .ringAtt g d a => some (Shape.mk 0x51 g [(a.toNat, 2)] [(d.toNat, 1)])
  | .ringWait g d a b => some (Shape.mk 0x51 g [(a.toNat, 2), (b.toNat, 1)] [(d.toNat, 2)])
  | .ringRel g d a b => some (Shape.mk 0x51 g [(a.toNat, 2), (b.toNat, 1)] [(d.toNat, 1)])
  | .ringDet g d a b => some (Shape.mk 0x51 g [(a.toNat, 2), (b.toNat, 1)] [(d.toNat, 1)])
  | .cntInit g d a b => some (Shape.mk 0x52 g [(a.toNat, 1), (b.toNat, 1)] [(d.toNat, 1)])
  | .cntDec g a b => some (Shape.mk 0x52 g [(a.toNat, 1), (b.toNat, 1)] [])
  | .cntRdec g a b => some (Shape.mk 0x52 g [(a.toNat, 2), (b.toNat, 1)] [])
  | .cntRd g d a => some (Shape.mk 0x52 g [(a.toNat, 1)] [(d.toNat, 1)])
  | .cp g _ _ d a b c => some (Shape.mk 0x53 g [(a.toNat, 2), (b.toNat, 2), (c.toNat, 2)] [(d.toNat, 2)])
  | .cpt g _ d a b c => some (Shape.mk 0x54 g [(a.toNat, 1), (b.toNat, 2), (c.toNat, 2)] [(d.toNat, 2)])
  | .cpg g _ d a b c => some (Shape.mk 0x55 g [(a.toNat, 2), (b.toNat, 2), (c.toNat, 1)] [(d.toNat, 2)])
  | .collAllred g d a => some (Shape.mk 0x56 g [(a.toNat, 1)] [(d.toNat, 2)])
  | .collRedsct g d a => some (Shape.mk 0x56 g [(a.toNat, 1)] [(d.toNat, 2)])
  | .collAllgat g d a => some (Shape.mk 0x56 g [(a.toNat, 1)] [(d.toNat, 2)])
  | .collBcast g d a => some (Shape.mk 0x56 g [(a.toNat, 1)] [(d.toNat, 2)])
  | .cpqSt g d => some (Shape.mk 0x57 g [] [(d.toNat, 1)])
  | .cpqCnl g d a => some (Shape.mk 0x57 g [(a.toNat, 2)] [(d.toNat, 1)])
  | .cpqFr g _ d a => some (Shape.mk 0x57 g [(a.toNat, 1)] [(d.toNat, 4)])
  | .twait g d a b c => some (Shape.mk 0x58 g [(a.toNat, 2), (b.toNat, 2), (c.toNat, 1)] [(d.toNat, 1)])
  | .barSync a b => some (Shape.mk 0x59 .none [(a.toNat, 1), (b.toNat, 1)] [])
  | .barArr d a b => some (Shape.mk 0x59 .none [(a.toNat, 1), (b.toNat, 1)] [(d.toNat, 1)])
  | .barWait a b => some (Shape.mk 0x59 .none [(a.toNat, 1), (b.toNat, 1)] [])
  | .cbarSync g _ d => some (Shape.mk 0x5a g [] [(d.toNat, 1)])
  | .cbarMax g _ d a => some (Shape.mk 0x5a g [(a.toNat, 1)] [(d.toNat, 1)])
  | .cbarMaxn g _ d a => some (Shape.mk 0x5a g [(a.toNat, 1)] [(d.toNat, 1)])
  | .cbarAdd g _ d a => some (Shape.mk 0x5a g [(a.toNat, 1)] [(d.toNat, 1)])
  | .cbarMin g _ d a => some (Shape.mk 0x5a g [(a.toNat, 1)] [(d.toNat, 1)])
  | .acq g _ d a b => some (Shape.mk 0x5b g [(a.toNat, 2), (b.toNat, 1)] [(d.toNat, 1)])
  | .rel g _ d a => some (Shape.mk 0x5c g [(a.toNat, 2)] [(d.toNat, 1)])
  | .bind g d a b c => some (Shape.mk 0x5d g [(a.toNat, 2), (b.toNat, 2), (c.toNat, 1)] [(d.toNat, 1)])
  | .fence g _ _ => some (Shape.mk 0x5e g [] [])
  | .slpUntil g a => some (Shape.mk 0x5f g [(a.toNat, 2)] [])
  | .slpFor g a => some (Shape.mk 0x5f g [(a.toNat, 1)] [])
  | .yield g => some (Shape.mk 0x5f g [] [])
  | .mxal g a => some (Shape.mk 0x60 g [(a.toNat, 1)] [])
  | .mxfr g => some (Shape.mk 0x61 g [] [])
  | .mxl g latch _ _ a b => some (Shape.mk 0x62 g ([(a.toNat, 1)] ++ (if latch.toNat < 4 then [(b.toNat, 1)] else [])) [])
  | .mxg g _ a b => some (Shape.mk 0x63 g [(a.toNat, 1), (b.toNat, 1)] [])
  | .mma g _ _ _ _ _ _ a b => some (Shape.mk 0x64 g [(a.toNat, 1), (b.toNat, 1)] [])
  | .mxs g _ a b c => some (Shape.mk 0x65 g [(a.toNat, 1), (b.toNat, 1), (c.toNat, 2)] [])
  | .mxr g d b c => some (Shape.mk 0x65 g [(b.toNat, 1), (c.toNat, 1)] [(d.toNat, 8)])
  | .mxw g a b c => some (Shape.mk 0x65 g [(a.toNat, 8), (b.toNat, 1), (c.toNat, 1)] [])
  | .mxz g b => some (Shape.mk 0x65 g [(b.toNat, 1)] [])
  | .turnTake g => some (Shape.mk 0x66 g [] [])
  | .turnGive g => some (Shape.mk 0x66 g [] [])
  | .turnWho g d => some (Shape.mk 0x66 g [] [(d.toNat, 1)])
  | .climb g d a b c => some (Shape.mk 0x67 g [(a.toNat, 8), (b.toNat, 1), (c.toNat, 2)] [(d.toNat, 1)])
  | .nbox g _ => some (Shape.mk 0x68 g [] [])
  | .ntri g _ => some (Shape.mk 0x68 g [] [])
  | .nlink g => some (Shape.mk 0x68 g [] [])
  | .hop g a => some (Shape.mk 0x69 g [(a.toNat, 1)] [])
  | .cand g => some (Shape.mk 0x6a g [] [])
  | .rsync g => some (Shape.mk 0x6a g [] [])
  | .fin g => some (Shape.mk 0x6a g [] [])
  | .emit g d a b => some (Shape.mk 0x6b g [(a.toNat, 1), (b.toNat, 4)] [(d.toNat, 1)])
  | .emith g d a b c => some (Shape.mk 0x6b g [(a.toNat, 1), (b.toNat, 4), (c.toNat, 1)] [(d.toNat, 1)])
  | .graphRsv g here d a b c => some (Shape.mk 0x6b g ([(a.toNat, 1)] ++ [(b.toNat, 1)] ++ (if here then [(c.toNat, 1)] else [])) [(d.toNat, 1)])
  | .gdone g a => some (Shape.mk 0x6b g [(a.toNat, 1)] [])
  | .take g d => some (Shape.mk 0x6c g [] [(d.toNat, 4)])
  | .lnch g d a => some (Shape.mk 0x6d g [(a.toNat, 2)] [(d.toNat, 1)])
  | .lnchw g d a => some (Shape.mk 0x6d g [(a.toNat, 2)] [(d.toNat, 1)])
  | .pair g d a => some (Shape.mk 0x6e g [(a.toNat, 1)] [(d.toNat, 1)])
  | .unpair g d => some (Shape.mk 0x6e g [] [(d.toNat, 1)])
  | .fpck g d => some (Shape.mk 0x6e g [] [(d.toNat, 2)])
  | .br g _ _ _ => some (Shape.mk 0x70 g [] [])
  | .call g _ _ _ d => some (Shape.mk 0x71 g [] [(d.toNat, 1)])
  | .jmpi g _ a => some (Shape.mk 0x72 g [(a.toNat, 1)] [])
  | .ret g _ a => some (Shape.mk 0x73 g [(a.toNat, 1)] [])
  | .join _ => some (Shape.mk 0x74 .none [] [])
  | .exit g => some (Shape.mk 0x75 g [] [])
  | .trap g _ => some (Shape.mk 0x76 g [] [])
  | .brk g _ => some (Shape.mk 0x77 g [] [])
  | .eret => some (Shape.mk 0x79 .none [] [])
  | .nop g => some (Shape.mk 0x7a g [] [])
  | .csrRd g _ d => some (Shape.mk 0x78 g [] [(d.toNat, 1)])
  | .csrWr g _ d a => some (Shape.mk 0x78 g [(a.toNat, 1)] [(d.toNat, 1)])
  | .csrSet g _ d a => some (Shape.mk 0x78 g [(a.toNat, 1)] [(d.toNat, 1)])
  | .csrClr g _ d a => some (Shape.mk 0x78 g [(a.toNat, 1)] [(d.toNat, 1)])
  | .mark g _ => some (Shape.mk 0x7b g [] [])
  | .tlbi g _ d a => some (Shape.mk 0x7c g [(a.toNat, 4)] [(d.toNat, 1)])
  | .ctxsv g d a => some (Shape.mk 0x7d g [(a.toNat, 4)] [(d.toNat, 1)])
  | .ctxld g d a => some (Shape.mk 0x7d g [(a.toNat, 4)] [(d.toNat, 1)])
  | .halt g => some (Shape.mk 0x7e g [] [])
  | .haltAll g => some (Shape.mk 0x7e g [] [])
  | .dfr0Clear => none
  | .sampctlWrite => none
  | .cregWrite => none
  | .ifwIfhWrite => none
  | .tvecWrite => none
  | .xbndWrite => none
  | .leasemaxWrite => none
  | .fpintWrite => none
  | .csrPlainWrite => none
  | .splitMerge => none
  | .joinTimeout => none
  | .sleepExpiry => none
  | .promiseExpiry => none
  | .issueSelect => none
  | .fetchBlock => none
  | .lsPoisonSeal => none
  | .supervisorPlace => none
  | .launchEndOnFault => none
  | .accGrant => none
  | .turnGrant => none
  | .mmaExecution => none
  | .leaseAbortPoint => none
  | .leaseDeadline => none
  | .leaseRequest => none
  | .leaseGrant => none
  | .leaseCommit => none
  | .leaseAnswer => none
  | .leaseAbort => none
  | .undeliverableNotice => none
  | .preemptionSealFrameCommand => none
  | .postedStore => none
  | .atomicRequest => none
  | .canopyUpdate => none
  | .reductionDevice => none
  | .publishWrite => none
  | .copyReadRequest => none
  | .copyLineWrite => none
  | .subscriptionControl => none
  | .homeFillWriteback => none
  | .graphMessage => none
  | .atomicResult => none
  | .lineData => none
  | .subscriptionUpdate => none
  | .writeAcknowledgement => none
  | .faultReply => none
  | .channelWord => none
  | .channelCreditReturn => none
  | .ray => none
  | .anyHitCandidate => none
  | .hitMinimum => none
  | .counterDecrement => none
  | .lsReductionAtomic => none
  | .pendingCountEnd => none
  | .raySpillWrite => none
  | .raySpillReload => none
  | .treeletPageInFill => none
  | .preemptionSaveRestoreLine => none
  | .malformedMessage => none
  | .watch => none
  | .watchRetry => none
  | .creditRetry => none
  | .cbarArrival => none
  | .copyAccept => none
  | .copyLineTransfer => none
  | .pageWalk => none
  | .shootdownComplete => none
  | .patrolScrub => none
  | .poolLinkLoss => none
  | .backInvalidationSnoop => none
  | .hostCxlMemWrite => none
  | .hostCxlMemRead => none
  | .hostCxlCacheSnoop => none
  | .hostRingCommit => none
  | .launchSubmit => none
  | .gangPlace => none
  | .gangPreempt => none
  | .groupResume => none
  | .launchCompletion => none
  | .pageMoveCopyDone => none
  | .climberContextEntry => none
  | .climberIssue => none
  | .climberSlotFree => none
  | .canopyLookup => none
  | .pageInComplete => none
  | .pagingReread => none
  | .pagingWaiterTimeout => none
  | .replicationThreshold => none
  | .visitCountClear => none
  | .takeCoaltExpiry => none
  | .pairIntervalClose => none
  | .pairTimeout => none
  | .sampleInstant => none
  | .clockAlignmentExchange => none
  | .flightLinkLoss => none
  | .flightFlitReplay => none
  | .memberRemoval => none
  | .collCommit => none
  | .powerControlTick => none
  | .junctionThrottle => none
  | .thermalHalt => none
  | .startup => none
  | .startupWatchdog => none
  | .identify => none
  | .getStatus => none
  | .stageFirmware => none
  | .reset => none
  | .clearStartFailures => none
  | .setContextRoot => none
  | .loadKeySlot => none
  | .writePoolRegionEntry => none
  | .biasFlip => none
  | .movePage => none
  | .hostShootdown => none
  | .configureHostLaunchRing => none
  | .writeGraphTableSlot => none
  | .setSpillAreas => none
  | .writeMembershipTable => none
  | .removeMember => none
  | .readCounters => none
  | .readFaultReports => none
  | .haltOrResume => none
  | .readback => none
  | .setPowerCap => none
  | .setDomainConfiguration => none
  | .unsupportedOpcode => none
  | .getVersion => none
  | .getCapabilities => none
  | .negotiateAlgorithms => none
  | .getDigests => none
  | .getCertificate => none
  | .challenge => none
  | .getMeasurements => none
  | .keyExchange => none
  | .finish => none
  | .endSession => none
  | .heartbeat => none
  | .jtagIdcode => none
  | .jtagBypass => none
  | .jtagSamplePreload => none
  | .jtagExtest => none
  | .jtagRbaddrRbdata => none
  | .linkActiveStateChange => none
  | .ieee11491Resume => none
  | .signedDebugUnlock => none
  | .softError => none

/-- Climbers may execute the major opcode (R32); 0x80 stands for pair words. -/
def climberMay (m : Nat) : Bool :=
  (decide (0x01 ≤ m) && decide (m ≤ 0x2D)) || (decide (0x40 ≤ m) && decide (m ≤ 0x47)) || m == 0x52 || m == 0x5E ||
  (decide (0x68 ≤ m) && decide (m ≤ 0x6A)) || (decide (0x70 ≤ m) && decide (m ≤ 0x73)) || m == 0x76 || m == 0x77 ||
  m == 0x7A || m == 0x7B || m == 0x80

/-- Waves may execute the major opcode (R32). -/
def waveMay (m : Nat) : Bool := !(decide (0x68 ≤ m) && decide (m ≤ 0x6A))

/-- ICMP and FCMP with MOD[7] = 1 write a predicate bit, in climbers alone (R32). -/
def writesPredicate : Instr → Bool
  | .icmp _ _ _ p _ _ _ _ => p
  | .fcmp _ _ _ p _ _ _ _ => p
  | _ => false

/-- The forms a lease block forbids whatever their operands (R107). -/
def blockForbids (i : Instr) (m : Nat) : Bool :=
  match i with
  | .lndWait .. => true
  | .ringRsv .. => true
  | .ringWait .. => true
  | .cntInit .. => true
  | _ =>
    m == 0x71 || m == 0x72 || m == 0x73 || m == 0x74 || m == 0x75 ||
    m == 0x58 || m == 0x59 || m == 0x5A || m == 0x5F || m == 0x6C || m == 0x4B || m == 0x4C ||
    m == 0x5E || m == 0x5B || m == 0x5C || m == 0x5D || m == 0x6B ||
    m == 0x53 || m == 0x54 || m == 0x55 || m == 0x56 || m == 0x57 || (decide (0x60 ≤ m) && decide (m ≤ 0x67)) ||
    m == 0x6D || m == 0x6E || m == 0x7C || m == 0x7D || m == 0x7E

/-- The control forms, which read their guard themselves (R203). -/
def isControl (m : Nat) : Bool :=
  m == 0x70 || m == 0x71 || m == 0x72 || m == 0x73 || m == 0x74 || m == 0x75

/-! Launch records and the specials (R26, R300-R304). -/

/-- Bits [lo + n − 1 : lo] of a number. -/
def bitsAt (v lo n : Nat) : Nat := v / 2 ^ lo % 2 ^ n

/-- Extent and scope of level `k` of a launch record (R300). -/
def levExt (rec : BitVec 1024) (k : Nat) : Nat := bitsAt rec.toNat (512 + 64 * k) 24
def levScope (rec : BitVec 1024) (k : Nat) : Nat := bitsAt rec.toNat (536 + 64 * k) 3
def recLevels (rec : BitVec 1024) : Nat := bitsAt rec.toNat 8 8
def recWaves (rec : BitVec 1024) : Nat := bitsAt rec.toNat 184 8
/-- Registers per lane. -/
def recRegs (rec : BitVec 1024) : Nat := bitsAt rec.toNat 176 8 * 8

/-- Groups of a level-2 unit (R302). -/
def recQ (rec : BitVec 1024) : Nat := levExt rec 1 / recWaves rec

/-- The product of the extents of levels `lo` to `lo + n − 1`. -/
def extProd (rec : BitVec 1024) (lo : Nat) : Nat → Nat
  | 0 => 1
  | n + 1 => levExt rec (lo + n) * extProd rec lo n

/-- `lix`k of group G and wave index w (R303). -/
def lix (rec : BitVec 1024) (g w lane k : Nat) : Nat :=
  if k = 0 then lane
  else if recLevels rec ≤ k then 0
  else if k = 1 then g % recQ rec * recWaves rec + w
  else if k + 1 = recLevels rec then g / recQ rec / extProd rec 2 (k - 2)
  else g / recQ rec / extProd rec 2 (k - 2) % levExt rec k

/-- `lext`k (R303). -/
def lext (rec : BitVec 1024) (k : Nat) : Nat :=
  if k = 0 then 32 else if recLevels rec ≤ k then 1 else levExt rec k

/-- The logical core of a launch that a physical core is: that of its group there, or else the one its frame last gave the core
(R8-R10). -/
def State.logicalOn (s : State) (lid core : Nat) : Nat :=
  match s.groups.find? (fun g => g.lid == lid && g.core == core) with
  | some g => g.lcore
  | none => match s.frames.reverse.find? (fun f => f.lid == lid && f.physical == core && f.saved.isNone) with
    | some f => f.logical
    | none => core

/-- The frame core word of an agent: its group's logical core, or, for a climber, the logical core that its launch has where it
runs (R8, R10). -/
def State.logicalCore (s : State) : Nat :=
  match s.cur with
  | .climber c k => s.logicalOn (s.clid c k) c
  | _ => match s.curGroup with
    | some g => g.lcore
    | none => s.curCore

/-- The latched high word of `clk` (R12). -/
def State.curLatch (s : State) : Option Word :=
  if s.cur.isClimber then s.curClimber.clkLatch else s.curWave.clkLatch

/-- A special register of a lane (R26). -/
def special (s : State) (r lane : Nat) : Word :=
  let lc := s.logicalCore
  BitVec.ofNat 32 <|
    match r with
    | 352 => lane
    | 353 => s.curWave.index
    | 354 => s.cur.split
    | 355 => lc
    | 356 => hallInDie lc
    | 357 => coreDie lc
    | 358 => corePkg lc
    | 359 => s.clk
    | 360 => match s.curLatch with
      | some h => h.toNat
      | none => s.clk / 2 ^ 32
    | _ =>
      match s.curGroup, s.curLaunch with
      | some g, some l =>
        if r = 377 then g.waves
        else if r = 378 then (if l.sys then 16 else l.prio)
        else if 369 ≤ r then lext l.record (r - 369)
        else lix l.record g.num s.curWave.index lane (r - 361)
      | _, _ => 0

/-! Channels (R25, R152-R154). -/

/-- The key of a channel of a core in its table. -/
def State.chan (s : State) (core ch : Nat) : Channel := Sparse.get {} (s.core core).channels ch
def State.setChan (s : State) (core ch : Nat) (v : Channel) : State :=
  s.updCore core fun c => { c with channels := Sparse.set {} c.channels ch v }

/-- The frame neighbour of a logical core in direction 0 north, 1 east, 2 south, 3 west (R25), within the package. -/
def neighbourOf (lc d : Nat) : Option Nat :=
  let x := packX lc
  let y := packY lc
  let at' (x y : Nat) := coreWord (corePkg lc) (y / 20 * 2 + x / 32) (x % 32) (y % 20)
  match d with
  | 0 => if y = 0 then none else some (at' x (y - 1))
  | 1 => if x = 63 then none else some (at' (x + 1) y)
  | 2 => if y = 79 then none else some (at' x (y + 1))
  | _ => if x = 0 then none else some (at' (x - 1) y)

/-- The physical core that a launch's frame gives a logical one (R9). -/
def State.frameOf (s : State) (lid lc : Nat) : Option Nat :=
  (s.frames.find? fun f => f.lid == lid && f.logical == lc).map (·.physical)

/-- The launch id of the current agent. -/
def State.curLid (s : State) : Nat := match s.curLaunch with | some l => l.lid | none => 0

/-- The physical neighbour a channel register reaches, if it lies in the frame. -/
def channelPeer (s : State) (r : Nat) : Option Nat :=
  match neighbourOf s.logicalCore ((r - 320) / 4) with
  | none => none
  | some n => s.frameOf s.curLid n

/-- The channel of the same link at the far end: the opposite direction. -/
def oppositeChannel (ch : Nat) : Nat := (ch + 8) % 16

/-- The word a waiting instruction of the issuing split has consumed from a channel register (R29). -/
def takenWord? (s : State) (r : Nat) : Option (BitVec 1024) := (s.curSplit.taken.find? fun q => q.1 == r).map (·.2)

/-- What lane `l` receives from channel register `r`: the word consumed, the oldest word, or the poison word of R154. -/
def channelRead (s : State) (r lane : Nat) : Word :=
  match (takenWord? s r).or (s.chan s.curCore (r - 320)).words.head? with
  | some w => (w >>> (32 * lane)).setWidth 32
  | none => BitVec.ofNat 32 (0xDEAD0000 + (r - 320))

/-! Reading and writing operands. -/

/-- The 32-bit value of a source field for a lane; a climber has one lane, 0. -/
def src (s : State) (r : Nat) (lane : Nat) : Word :=
  if r = 384 then 0
  else if 352 ≤ r then special s r lane
  else match s.cur with
    | .climber c k => s.creg c k r
    | .wave c w _ => if 320 ≤ r then channelRead s r lane else s.vreg c w r lane
    | .none => 0

/-- The 64-bit value of a register pair for a lane (R1). -/
def src64 (s : State) (r : Nat) (lane : Nat) : DWord := src s (r + 1) lane ++ src s r lane

/-- Lane `l` of the issuing split passes the guard (R19). -/
def passes (s : State) (g : Guard) (lane : Nat) : Bool :=
  if g.en then
    match s.cur with
    | .climber c k => (s.preds c k).getLsbD g.reg.toNat != g.neg
    | _ => (src s g.reg.toNat lane != 0) != g.neg
  else true

/-- The mask of lanes an agent's instruction may act on: its split's, or lane 0 for a climber. -/
def State.curMask (s : State) : Word := if s.cur.isClimber then 1 else s.curSplit.mask

/-- The mask of active lanes (R3, R19). -/
def activeMask (s : State) (g : Guard) : Word :=
  maskOf fun l => s.curMask.getLsbD l && passes s g l

/-- The active lanes, lowest first. -/
def active (s : State) (g : Guard) : List Nat := lanesOf (activeMask s g)

/-- The lowest active lane: the one whose operands a once-per-wave instruction takes (R20). -/
def firstLane (s : State) (g : Guard) : Nat := (active s g).headD 0

/-- One step of CRC-64 ECMA-182 (R354), a bit at a time from the top. -/
def crcBit (crc : DWord) (b : Bool) : DWord :=
  let out := crc.msb != b
  if out then (crc <<< 1) ^^^ 0x42F0E1EBA9EA3693 else crc <<< 1

/-- CRC-64 over the 32 bits of a value, most significant first. -/
def crcWord (crc : DWord) (v : Word) : DWord :=
  (List.range 32).foldl (fun c i => crcBit c (v.getLsbD (31 - i))) crc

/-- A value of an active lane enters the wave's fingerprint while its group is paired (R354). -/
def fingerprint (s : State) (v : Word) : State :=
  match s.cur with
  | .wave _ _ _ => match s.curGroup with
    | some g => if g.pair.isSome then s.updCurWave fun w => { w with fprint := crcWord w.fprint v } else s
    | none => s
  | _ => s

/-- A register that is written again holds no missing `atm` result (R81). -/
def clearFailed (r lane : Nat) (s : State) : State :=
  if s.curWave.failed.isEmpty then s
  else s.updCurWave fun w => { w with failed := w.failed.filter (· != regKey r lane) }

/-- One lane of a destination register written; `zero` discards (R25). -/
def putLane (s : State) (r lane : Nat) (v : Word) : State :=
  match s.cur with
  | .climber c k => if r < 24 then s.setCreg c k r v else s
  | .wave c w _ => if r < 320 then fingerprint (clearFailed r lane (s.setVreg c w r lane v)) v else s
  | .none => s

/-- The 128-byte word whose lane `l` holds `f l` for active lanes and zero for others (R29). -/
def channelWordOf (lanes : List Nat) (f : Nat → Word) : BitVec 1024 :=
  BitVec.ofNat 1024 (lanes.foldl (fun acc l => acc + (f l).toNat * 2 ^ (32 * l)) 0)

/-- A channel destination sends one word to the neighbour and uses one credit; toward a sealed neighbour it is
discarded (R29, R152, R154). -/
def channelSend (s : State) (r : Nat) (w : BitVec 1024) : State :=
  let ch := r - 320
  let c := s.chan s.curCore ch
  match channelPeer s r with
  | none => s
  | some peer =>
    if (s.core peer).sealed then s
    else
      (s.setChan s.curCore ch { c with credits := c.credits - 1 }).post .channelWord
        (.msg { src := { Issuer.device with core := s.curCore, slot := s.cur.slot }, tgt := lsKey peer 0, ordered := true,
                kind := oppositeChannel ch, bytes := (List.range 128).map fun i => (i, (w >>> (8 * i)).setWidth 8) })

/-- A 32-bit destination: `f l` into register `r` of each of the lanes (R3, R25, R29). -/
def putLanes (s : State) (lanes : List Nat) (r : Nat) (f : Nat → Word) : State :=
  if 320 ≤ r then (if 336 ≤ r then s else channelSend s r (channelWordOf lanes f))
  else lanes.foldl (fun s l => putLane s r l (f l)) s

/-- A pair: the low word into the even register (R1). -/
def putLanes64 (s : State) (lanes : List Nat) (r : Nat) (f : Nat → DWord) : State :=
  putLanes (putLanes s lanes r fun l => (f l).setWidth 32) lanes (r + 1) fun l => (f l >>> 32).setWidth 32

/-- A group of registers, `f l k` into register `r + k`. -/
def putGroup (s : State) (lanes : List Nat) (r n : Nat) (f : Nat → Nat → Word) : State :=
  (List.range n).foldl (fun s k => putLanes s lanes (r + k) fun l => f l k) s

/-- A predicate bit of the climber (R32). -/
def putPred (s : State) (k : Nat) (b : Bool) : State :=
  match s.cur with
  | .climber c n =>
    s.setPreds c n (if b then s.preds c n ||| BitVec.ofNat 32 (2 ^ k) else s.preds c n &&& ~~~(BitVec.ofNat 32 (2 ^ k)))
  | _ => s

def predBit (s : State) (k : Nat) : Bool :=
  match s.cur with
  | .climber c n => (s.preds c n).getLsbD k
  | _ => false

/-! The checks of R34 on register numbers (R25, R27, R152). -/

/-- Registers of a group below 320, as one run of numbers. -/
def groupIn (limit : Nat) (rn : Nat × Nat) : Bool := decide (320 ≤ rn.1) || decide (rn.1 + rn.2 ≤ limit)

def isChannelNo (r : Nat) : Bool := decide (320 ≤ r) && decide (r < 336)

/-- The registers of a wave's instruction suit its allocation and its launch (R27, R152). -/
def waveRegsOk (regs : Nat) (chan : Bool) (sh : Shape) : Bool :=
  (sh.srcs ++ sh.dsts).all (fun rn => groupIn regs rn && (chan || !isChannelNo rn.1)) &&
  (!sh.guard.en || decide (sh.guard.reg.toNat < regs))

/-- The registers of a climber's instruction (R25). -/
def climberRegsOk (sh : Shape) : Bool :=
  (sh.srcs ++ sh.dsts).all fun rn =>
    decide (rn.1 + rn.2 ≤ 24) || rn.1 == 384 || (decide (355 ≤ rn.1) && decide (rn.1 ≤ 360))

/-- Registers named, each with its lanes' keys, for the scoreboard (R269). -/
def namesReg (sh : Shape) (key : Nat) : Bool :=
  (sh.srcs ++ sh.dsts).any (fun rn => decide (rn.1 ≤ key / 32) && decide (key / 32 < rn.1 + rn.2)) ||
  (sh.guard.en && sh.guard.reg.toNat == key / 32)

def readsReg (sh : Shape) (key : Nat) : Bool :=
  sh.srcs.any (fun rn => decide (rn.1 ≤ key / 32) && decide (key / 32 < rn.1 + rn.2)) ||
  (sh.guard.en && sh.guard.reg.toNat == key / 32)

end Sys2Proof.Machine
end

