-- ==== Sys2Proof/Machine/Flags.lean ====
section
/-! DEFINITION. The status flags of FSTAT (R63, R64), as the bits an operation raises. -/

namespace Sys2Proof.Machine

/-- Flags raised, as bits of FSTAT (R63). -/
abbrev Flags := BitVec 7

def Flags.nv : Flags := 1
def Flags.dz : Flags := 2
def Flags.ovf : Flags := 4
def Flags.uf : Flags := 8
def Flags.nx : Flags := 16
def Flags.sat : Flags := 32
def Flags.nanz : Flags := 64

/-- A flag where a condition holds. -/
def Flags.on (b : Bool) (f : Flags) : Flags := if b then f else 0

/-- Flags of several elements or lanes together. -/
def Flags.all (fs : List Flags) : Flags := fs.foldl (· ||| ·) 0

/-- The flags of the active lanes enter the wave's FSTAT; a climber's are discarded (R64). -/
def raise (s : State) (f : Flags) : State :=
  match s.cur with
  | .wave c w _ => s.updWave c w fun v => { v with fstat := v.fstat ||| f.setWidth 32 }
  | _ => s

end Sys2Proof.Machine
end

