-- ==== Sys2Proof/Machine/Float.lean ====
section
/-! DEFINITION. Floating-point formats, exact values and rounding (R43-R57, R59, R62). A finite value is a sign, a
magnitude `m` and an exponent `e`: (−1)^sign × m × 2^e, exact. -/

namespace Sys2Proof.Machine

/-- Rounding modes (R49). -/
inductive RMode where
  | rn | rz | rd | ru
  deriving DecidableEq, Repr

def RMode.ofCode : Nat → RMode
  | 1 => .rz | 2 => .rd | 3 => .ru | _ => .rn

/-- A format (R43, R44): exponent and mantissa bits, bias, whether it has an infinity, the encoding of its largest
finite magnitude, and its canonical NaN. -/
structure FFmt where
  eb : Nat
  mb : Nat
  bias : Nat
  hasInf : Bool
  maxMag : Nat
  nan : Nat
  deriving DecidableEq, Repr

def FFmt.f32 : FFmt := ⟨8, 23, 127, true, 0x7F7FFFFF, 0x7FC00000⟩
def FFmt.f16 : FFmt := ⟨5, 10, 15, true, 0x7BFF, 0x7E00⟩
def FFmt.bf16 : FFmt := ⟨8, 7, 127, true, 0x7F7F, 0x7FC0⟩
def FFmt.e4m3 : FFmt := ⟨4, 3, 7, false, 0x7E, 0x7F⟩
def FFmt.e5m2 : FFmt := ⟨5, 2, 15, true, 0x7B, 0x7E⟩
/-- E2M1 has no NaN; its `nan` is the zero of R55, step 1. -/
def FFmt.e2m1 : FFmt := ⟨2, 1, 1, false, 0x7, 0⟩

/-- The bit that holds the sign. -/
def FFmt.signBit (f : FFmt) : Nat := 2 ^ (f.eb + f.mb)
/-- The encoding of infinity. -/
def FFmt.inf (f : FFmt) : Nat := f.maxMag + 1

/-- The exponent of the unit of the subnormal grid. -/
def FFmt.minExp (f : FFmt) : Int := 1 - (f.bias : Int) - (f.mb : Int)

/-- A value of a floating-point format. -/
inductive FVal where
  | nan
  | inf (neg : Bool)
  | fin (neg : Bool) (m : Nat) (e : Int)
  deriving DecidableEq, Repr

/-- The value of an encoding (R43, R44). -/
def FFmt.val (f : FFmt) (bits : Nat) : FVal :=
  let neg := decide (bits / f.signBit % 2 = 1)
  let mag := bits % f.signBit
  if mag ≤ f.maxMag then
    let e := mag / 2 ^ f.mb
    let m := mag % 2 ^ f.mb
    if e = 0 then .fin neg m f.minExp else .fin neg (2 ^ f.mb + m) (f.minExp + ((e : Int) - 1))
  else if f.hasInf && mag == f.inf then .inf neg
  else .nan

/-- The value with its sign flipped. -/
def FVal.negate : FVal → FVal
  | .nan => .nan
  | .inf n => .inf (!n)
  | .fin n m e => .fin (!n) m e

def FVal.isNan : FVal → Bool
  | .nan => true
  | _ => false

def FVal.isZero : FVal → Bool
  | .fin _ 0 _ => true
  | _ => false

/-- Magnitude scaled by a power of two, to exponent `e - k` for `k ≥ 0`. -/
def shiftUp (m : Nat) (k : Int) : Nat := m * 2 ^ k.toNat

/-- `m` divided by 2^k and rounded in a mode, with `sticky` for a value a little above; and whether it was inexact. -/
def roundShift (mode : RMode) (neg : Bool) (m : Nat) (k : Int) (sticky : Bool) : Nat × Bool :=
  if k ≤ 0 then (shiftUp m (-k), sticky)
  else
    let d := 2 ^ k.toNat
    let q := m / d
    let r := m % d
    let inexact := decide (r ≠ 0) || sticky
    let up := match mode with
      | .rn => decide (2 * r > d) || (decide (2 * r = d) && (sticky || decide (q % 2 = 1)))
      | .rz => false
      | .rd => neg && inexact
      | .ru => !neg && inexact
    (if up then q + 1 else q, inexact)

/-- A magnitude rounded to a format. -/
structure Rounded where
  /-- encoding of the magnitude, the largest finite one or infinity on overflow -/
  mag : Nat
  inexact : Bool
  tiny : Bool
  overflowed : Bool
  deriving DecidableEq, Repr

/-- The encoding of q × 2^x, where it is representable: its exponent field and mantissa. -/
def FFmt.encodeMag (f : FFmt) (q : Nat) (x : Int) : Nat :=
  if q = 0 then 0
  else
    let top := x + (Nat.log2 q : Int)
    if top < f.minExp + (f.mb : Int) then shiftUp q (x - f.minExp)
    else
      let m := if (f.mb : Int) ≤ (Nat.log2 q : Int) then q / 2 ^ (Nat.log2 q - f.mb) else q * 2 ^ (f.mb - Nat.log2 q)
      ((top - f.minExp - (f.mb : Int) + 1).toNat) * 2 ^ f.mb + (m - 2 ^ f.mb)

/-- `a × 2^x` is below `2^y`. -/
def belowPow (a : Nat) (x y : Int) : Bool := if a = 0 then true else decide (x + (Nat.log2 a : Int) < y)

/-- `a × 2^x > b × 2^y`, exactly. -/
def dyadicGt (a : Nat) (x : Int) (b : Nat) (y : Int) : Bool :=
  if x ≤ y then decide (a > b * 2 ^ (y - x).toNat) else decide (a * 2 ^ (x - y).toNat > b)

/-- The exact positive magnitude m × 2^e (a little above with `sticky`) rounded to a format (R49, R50). -/
def FFmt.round (f : FFmt) (mode : RMode) (neg : Bool) (m : Nat) (e : Int) (sticky : Bool) : Rounded :=
  let lead := e + (Nat.log2 m : Int)
  let unit := lead - (f.mb : Int)
  let (q, ix) := roundShift mode neg m (unit - e) sticky
  let normal := f.minExp + (f.mb : Int)
  if belowPow q unit normal then
    let (q, ix) := roundShift mode neg m (f.minExp - e) sticky
    ⟨f.encodeMag q f.minExp, ix, true, false⟩
  else
    let maxQ := 2 ^ f.mb + f.maxMag % 2 ^ f.mb
    let maxX := f.minExp + ((f.maxMag / 2 ^ f.mb : Nat) : Int) - 1
    if dyadicGt q unit maxQ maxX then ⟨f.inf, true, false, true⟩
    else ⟨f.encodeMag q unit, ix, false, false⟩

/-- Flags of an arithmetic result (R63). -/
def Rounded.flags (r : Rounded) : Flags :=
  Flags.on r.overflowed .ovf ||| Flags.on (r.tiny && r.inexact) .uf ||| Flags.on r.inexact .nx

/-- A sign put on a magnitude. -/
def FFmt.sign (f : FFmt) (neg : Bool) (mag : Nat) : Nat := if neg then f.signBit + mag else mag

/-- The overflow result of a mode (R49). -/
def FFmt.overflow (f : FFmt) (mode : RMode) (neg : Bool) : Nat :=
  let toInf := match mode with
    | .rn => true
    | .rz => false
    | .rd => neg
    | .ru => !neg
  f.sign neg (if toInf then f.inf else f.maxMag)

/-- A finite nonzero value rounded by arithmetic (R49, R50), with its flags. -/
def FFmt.arith (f : FFmt) (mode : RMode) (neg : Bool) (m : Nat) (e : Int) (sticky : Bool) : Nat × Flags :=
  let r := f.round mode neg m e sticky
  (if r.overflowed then f.overflow mode neg else f.sign neg r.mag, r.flags)

/-- An exact value with what made it NaN: `nv` for an invalid operation on operands that are not NaN. -/
structure Exact where
  val : FVal
  nv : Bool
  deriving DecidableEq, Repr

/-- The exact product (R47, R48). -/
def FVal.mul (a b : FVal) : Exact :=
  match a, b with
  | .nan, _ => ⟨.nan, false⟩
  | _, .nan => ⟨.nan, false⟩
  | .inf x, .inf y => ⟨.inf (x != y), false⟩
  | .inf x, .fin y m _ => if m = 0 then ⟨.nan, true⟩ else ⟨.inf (x != y), false⟩
  | .fin y m _, .inf x => if m = 0 then ⟨.nan, true⟩ else ⟨.inf (x != y), false⟩
  | .fin x m e, .fin y n k => ⟨.fin (x != y) (m * n) (e + k), false⟩

/-- The signed magnitude of a finite value at exponent `x`, at or below its own. -/
def FVal.at (v : FVal) (x : Int) : Int :=
  match v with
  | .fin n m e => let k := shiftUp m (e - x); if n then -(k : Int) else (k : Int)
  | _ => 0

/-- The least exponent of finite values. -/
def leastExp (vs : List FVal) (x : Int) : Int :=
  vs.foldl (fun x v => match v with | .fin _ m e => if m = 0 then x else min x e | _ => x) x

/-- The exact sum of values (R47, R48). -/
def FVal.sum (mode : RMode) (vs : List FVal) : Exact :=
  if vs.any FVal.isNan then ⟨.nan, false⟩
  else
    let pos := vs.any (· == .inf false)
    let neg := vs.any (· == .inf true)
    if pos && neg then ⟨.nan, true⟩
    else if pos then ⟨.inf false, false⟩
    else if neg then ⟨.inf true, false⟩
    else
      let x := leastExp vs 1000000
      let t := vs.foldl (fun acc v => acc + (if v.isZero then 0 else v.at x)) (0 : Int)
      if t = 0 then
        let allNeg := vs.all fun v => match v with | .fin n m _ => n && m == 0 | _ => false
        ⟨.fin (allNeg || mode == .rd) 0 0, false⟩
      else ⟨.fin (decide (t < 0)) t.natAbs x, false⟩

/-- An exact value rounded by arithmetic to a format (R47-R50), with its flags. -/
def FFmt.finish (f : FFmt) (mode : RMode) (v : Exact) : Nat × Flags :=
  match v.val with
  | .nan => (f.nan, Flags.on v.nv .nv)
  | .inf n => (f.sign n f.inf, 0)
  | .fin n m e => if m = 0 then (f.sign n 0, 0) else f.arith mode n m e false

/-- A subnormal encoding read as a zero of its sign (R51). -/
def FFmt.flush (f : FFmt) (bits : Nat) : Nat :=
  if bits % f.signBit < 2 ^ f.mb then bits / f.signBit * f.signBit else bits

/-- A value converted to a narrower format (R55). -/
def FFmt.convert (f : FFmt) (v : FVal) : Nat × Flags :=
  match v with
  | .nan => (f.nan, Flags.on (f == .e2m1) (Flags.nanz ||| Flags.nv))
  | .inf n => if f.hasInf then (f.sign n f.inf, 0) else (f.sign n f.maxMag, .sat)
  | .fin n m e =>
    if m = 0 then (f.sign n 0, 0)
    else
      let r := f.round .rn n m e false
      if r.overflowed then (f.sign n f.maxMag, Flags.sat ||| Flags.nx)
      else (f.sign n r.mag, Flags.on r.inexact .nx ||| Flags.on (r.tiny && r.inexact) .uf)

/-- A value rounded to an integer in a mode, and whether it was inexact. -/
def FVal.toInt (mode : RMode) (neg : Bool) (m : Nat) (e : Int) : Int × Bool :=
  let (q, ix) := roundShift mode neg m (-e) false
  (if neg then -(q : Int) else (q : Int), ix)

/-- A value converted to an integer range (R57). -/
def FVal.clampInt (mode : RMode) (lo hi : Int) (v : FVal) : Int × Flags :=
  match v with
  | .nan => (0, Flags.nanz ||| Flags.nv)
  | .inf n => (if n then lo else hi, Flags.sat ||| Flags.nv)
  | .fin n m e =>
    let (t, ix) := FVal.toInt mode n m e
    if t < lo then (lo, Flags.sat ||| Flags.nv)
    else if hi < t then (hi, Flags.sat ||| Flags.nv)
    else (t, Flags.on ix .nx)

/-- An integer as a value. -/
def FVal.ofInt (i : Int) : FVal := .fin (decide (i < 0)) i.natAbs 0

/-- An integer converted to f32 (R56). -/
def f32OfInt (i : Int) : Nat × Flags := FFmt.f32.finish .rn ⟨.ofInt i, false⟩

/-- An encoding widened to f32 (R56); it is exact. -/
def widen (f : FFmt) (bits : Nat) : Word := BitVec.ofNat 32 (FFmt.f32.finish .rn ⟨f.val bits, false⟩).1

/-! f32 operations on words. -/

def f32 (w : Word) : FVal := FFmt.f32.val w.toNat

/-- Ordering of two values that are not NaN, −0 below +0 (R59, R223). -/
def FVal.key (v : FVal) : Int × Int :=
  match v with
  | .inf n => if n then (-1, 0) else (1, 0)
  | _ => (0, 0)

/-- `a < b` as numbers; zeros are equal. -/
def FVal.lt (a b : FVal) : Bool :=
  match a, b with
  | .nan, _ => false
  | _, .nan => false
  | .inf x, .inf y => x && !y
  | .inf x, .fin .. => x
  | .fin .., .inf y => !y
  | .fin x m e, .fin y n k =>
    let z := min e k
    decide ((FVal.fin x m e).at z < (FVal.fin y n k).at z)

def FVal.eq (a b : FVal) : Bool := !a.isNan && !b.isNan && !a.lt b && !b.lt a

/-- The sign of a value. -/
def FVal.neg : FVal → Bool
  | .nan => false
  | .inf n => n
  | .fin n _ _ => n

/-- `a` is the lesser, with −0.0 below +0.0 (R223). -/
def FVal.lesser (a b : FVal) : Bool := a.lt b || (a.eq b && a.neg && !b.neg)

/-- minimumNumber and maximumNumber of encodings (R223): one operand unchanged, or the canonical NaN. -/
def FFmt.minNum (f : FFmt) (a b : Nat) : Nat :=
  match (f.val a).isNan, (f.val b).isNan with
  | true, true => f.nan
  | true, false => b
  | false, true => a
  | false, false => if (f.val b).lesser (f.val a) then b else a

def FFmt.maxNum (f : FFmt) (a b : Nat) : Nat :=
  match (f.val a).isNan, (f.val b).isNan with
  | true, true => f.nan
  | true, false => b
  | false, true => a
  | false, false => if (f.val a).lesser (f.val b) then b else a

/-- One f32 addition, rounded to nearest even, no flush. -/
def f32Add (a b : Word) : Word × Flags :=
  let r := FFmt.f32.finish .rn (FVal.sum .rn [f32 a, f32 b])
  (BitVec.ofNat 32 r.1, r.2)

/-- Addition in the format of the stored elements (R62): rounded to nearest even, no flags. -/
def FFmt.add (f : FFmt) (a b : Nat) : Nat := (f.finish .rn (FVal.sum .rn [f.val a, f.val b])).1
def FFmt.sub (f : FFmt) (a b : Nat) : Nat := (f.finish .rn (FVal.sum .rn [f.val a, (f.val b).negate])).1
def FFmt.mul (f : FFmt) (a b : Nat) : Nat := (f.finish .rn ((f.val a).mul (f.val b))).1

/-- Division rounded once to nearest even (R225), with its flags: 64 quotient bits past the mantissa and a sticky bit. -/
def FFmt.quotient (f : FFmt) (mode : RMode) (neg : Bool) (m : Nat) (e : Int) (n : Nat) (k : Int) : Nat × Flags :=
  let up := 64 + f.mb + Nat.log2 n
  let t := m * 2 ^ up
  f.arith mode neg (t / n) (e - k - (up : Int)) (decide (t % n ≠ 0))

def FFmt.div (f : FFmt) (a b : Nat) : Nat × Flags :=
  match f.val a, f.val b with
  | .nan, _ => (f.nan, 0)
  | _, .nan => (f.nan, 0)
  | .inf _, .inf _ => (f.nan, .nv)
  | .inf x, .fin y _ _ => (f.sign (x != y) f.inf, 0)
  | .fin x _ _, .inf y => (f.sign (x != y) 0, 0)
  | .fin x m e, .fin y n k =>
    if n = 0 then (if m = 0 then (f.nan, .nv) else (f.sign (x != y) f.inf, .dz))
    else if m = 0 then (f.sign (x != y) 0, 0)
    else f.quotient .rn (x != y) m e n k

/-- The integer square root, by bits from the top. -/
def isqrtGo (n : Nat) : Nat → Nat → Nat
  | 0, r => r
  | b + 1, r => if (r + 2 ^ b) * (r + 2 ^ b) ≤ n then isqrtGo n b (r + 2 ^ b) else isqrtGo n b r

def isqrt (n : Nat) : Nat := isqrtGo n (Nat.log2 n / 2 + 1) 0

/-! The special functions (R226), in fixed point with 420 fraction bits; every value that is not exact by rule is
irrational, so the sticky bit is set. -/

/-- Fraction bits. -/
def fxBits : Nat := 420
def fxOne : Nat := 2 ^ 420
def fxMul (a b : Nat) : Nat := a * b / 2 ^ 420
def fxDiv (a b : Nat) : Nat := a * 2 ^ 420 / b

/-- Σ t × z2^k / (2k + 1), with the sign of each term given by `alt`; `n` terms. -/
def oddSum (alt : Bool) (z2 : Nat) : Nat → Nat → Nat → Int → Int
  | 0, _, _, acc => acc
  | n + 1, t, k, acc =>
    oddSum alt z2 n (fxMul t z2) (k + 1)
      (if alt && k % 2 == 1 then acc - ((t / (2 * k + 1) : Nat) : Int) else acc + ((t / (2 * k + 1) : Nat) : Int))

/-- ln of m / 2^p for 1 ≤ m / 2^p < 2: twice the inverse hyperbolic tangent of (x − 1) / (x + 1). -/
def fxLn (m p : Nat) : Nat :=
  let z := fxDiv (m - 2 ^ p) (m + 2 ^ p)
  2 * (oddSum false (fxMul z z) 140 z 0 0).toNat

/-- ln 2. -/
def fxLn2 : Nat := 2 * (oddSum false (fxDiv 1 9) 140 (fxDiv 1 3) 0 0).toNat

/-- The inverse tangent of 1 / n. -/
def fxAtanInv (n : Nat) : Nat := (oddSum true (fxDiv 1 (n * n)) 95 (fxDiv 1 n) 0 0).toNat

/-- π, by Machin's formula. -/
def fxPi : Nat := 16 * fxAtanInv 5 - 4 * fxAtanInv 239

/-- Σ y^k / k! from the term `t` numbered `k`. -/
def expSum (y : Nat) : Nat → Nat → Nat → Nat → Nat
  | 0, _, _, acc => acc
  | n + 1, t, k, acc => expSum y n (fxMul t y / (k + 1)) (k + 1) (acc + t)

/-- e^y for y below 32. -/
def fxExp (y : Nat) : Nat := expSum y 260 fxOne 0 0

/-- Σ (−1)^k y^(2k+i) / (2k+i)! from the term `t` with index `i`. -/
def trigSum (y2 : Nat) : Nat → Nat → Nat → Bool → Int → Int
  | 0, _, _, _, acc => acc
  | n + 1, t, i, neg, acc =>
    trigSum y2 n (fxMul t y2 / ((i + 1) * (i + 2))) (i + 2) (!neg) (if neg then acc - (t : Int) else acc + (t : Int))

/-- sin and cos of y below 2. -/
def fxSin (y : Nat) : Nat := (trigSum (fxMul y y) 60 y 1 false 0).toNat
def fxCos (y : Nat) : Nat := (trigSum (fxMul y y) 60 fxOne 0 false 0).toNat

/-- A fixed-point result rounded to f32 with the flags of R226: OF for a result past the range, UF for a tiny and inexact
one, as R63 defines it. -/
def specRound (neg : Bool) (m : Nat) (e : Int) (sticky : Bool) : Nat × Flags :=
  let r := FFmt.f32.round .rn neg m e sticky
  (FFmt.f32.sign neg r.mag, Flags.on r.overflowed .ovf ||| Flags.on (r.tiny && r.inexact) .uf)

def specNan : Nat × Flags := (0x7FC00000, 0)
def specInvalid : Nat × Flags := (0x7FC00000, .nv)

/-- `frcp` (R226). -/
def specRcp (a : Nat) : Nat × Flags :=
  match FFmt.f32.val a with
  | .nan => specNan
  | .inf n => (FFmt.f32.sign n 0, 0)
  | .fin n m e =>
    if m = 0 then (FFmt.f32.sign n 0x7F800000, .dz)
    else
      let t := 2 ^ 128
      specRound n (t / m) (-e - 128) (decide (t % m ≠ 0))

/-- √(m × 2^e) as a magnitude with 64 further bits, its exponent, and whether it is inexact. -/
def rootOf (m : Nat) (e : Int) : Nat × Int × Bool :=
  let odd := decide (e % 2 ≠ 0)
  let m' := (if odd then 2 * m else m) * 2 ^ 128
  let e' := (if odd then e - 1 else e) - 128
  let r := isqrt m'
  (r, e' / 2, decide (r * r ≠ m'))

/-- `fsqrt` (R226), with NX, UF and OF as R63. -/
def specSqrt (a : Nat) : Nat × Flags :=
  match FFmt.f32.val a with
  | .nan => specNan
  | .inf n => if n then specInvalid else (0x7F800000, 0)
  | .fin n m e =>
    if m = 0 then (a, 0)
    else if n then specInvalid
    else
      let (r, x, ix) := rootOf m e
      FFmt.f32.arith .rn false r x ix

/-- `frsq` (R226): the root of 1 ÷ A carried to 128 bits. -/
def specRsq (a : Nat) : Nat × Flags :=
  match FFmt.f32.val a with
  | .nan => specNan
  | .inf n => if n then specInvalid else (0, 0)
  | .fin n m e =>
    if m = 0 then (FFmt.f32.sign n 0x7F800000, .dz)
    else if n then specInvalid
    else
      -- 1/√(m·2^e) = √(2^(k−e)/m)·2^(−k/2) with k − e even
      let odd := decide (e % 2 ≠ 0)
      let up := 2 ^ (if odd then 257 else 256)
      let e' := if odd then e + 1 else e
      let q := up / m
      let r := isqrt q
      specRound false r (-(e' / 2) - 128) (decide (r * r ≠ q) || decide (up % m ≠ 0))

/-- `fex2` (R226). -/
def specEx2 (a : Nat) : Nat × Flags :=
  match FFmt.f32.val a with
  | .nan => specNan
  | .inf n => if n then (0, 0) else (0x7F800000, 0)
  | .fin n m e =>
    if m = 0 then (0x3F800000, 0)
    else if !n && !belowPow m e 7 then (0x7F800000, .ovf)
    else if n && !belowPow m e 8 then specRound false 1 (-300) true
    else
      -- A = i + f with 0 ≤ f < 1
      let fx := if e ≤ -420 then 0 else m * 2 ^ (e + 420).toNat
      let i : Int := if n then -(((fx + fxOne - 1) / fxOne : Nat) : Int) else ((fx / fxOne : Nat) : Int)
      let f := if n then ((fxOne - fx % fxOne) % fxOne) else fx % fxOne
      if f = 0 then specRound false 1 i false
      else specRound false (fxExp (fxMul f fxLn2)) (i - 420) true

/-- `flg2` (R226). -/
def specLg2 (a : Nat) : Nat × Flags :=
  match FFmt.f32.val a with
  | .nan => specNan
  | .inf n => if n then specInvalid else (0x7F800000, 0)
  | .fin n m e =>
    if m = 0 then (0xFF800000, .dz)
    else if n then specInvalid
    else
      let p := Nat.log2 m
      let i := e + (p : Int)
      if m = 2 ^ p then ((FFmt.f32.finish .rn ⟨.ofInt i, false⟩).1, 0)
      else
        let frac := fxDiv (fxLn m p) fxLn2
        let t : Int := i * (fxOne : Int) + (frac : Int)
        specRound (decide (t < 0)) t.natAbs (-420) true

/-- The fraction of |A| modulo 2, in fixed point, for |A| below 2^22. -/
def mod2 (m : Nat) (e : Int) : Nat := (if e ≤ -420 then 0 else m * 2 ^ (e + 420).toNat) % (2 * fxOne)

/-- `fsinp` (R226). -/
def specSinp (a : Nat) : Nat × Flags :=
  match FFmt.f32.val a with
  | .nan => specNan
  | .inf _ => specInvalid
  | .fin n m e =>
    let r := mod2 m e
    let q := r % fxOne
    if m = 0 || q = 0 then (FFmt.f32.sign n 0, 0)
    else
      let neg := n != decide (fxOne ≤ r)
      if 2 * q = fxOne then (FFmt.f32.sign neg 0x3F800000, 0)
      else
        let d := if 2 * q < fxOne then q else fxOne - q
        specRound neg (if 4 * d ≤ fxOne then fxSin (fxMul fxPi d) else fxCos (fxMul fxPi (fxOne / 2 - d))) (-420) true

/-- `fcosp` (R226). -/
def specCosp (a : Nat) : Nat × Flags :=
  match FFmt.f32.val a with
  | .nan => specNan
  | .inf _ => specInvalid
  | .fin _ m e =>
    let r := mod2 m e
    if m = 0 || r = 0 then (0x3F800000, 0)
    else if r = fxOne then (0xBF800000, 0)
    else
      let d := if fxOne < r then 2 * fxOne - r else r
      if 2 * d = fxOne then (0, 0)
      else
        let neg := decide (fxOne < 2 * d)
        let d := if neg then fxOne - d else d
        specRound neg (if 4 * d ≤ fxOne then fxCos (fxMul fxPi d) else fxSin (fxMul fxPi (fxOne / 2 - d))) (-420) true

/-- `ftanh` (R226): below 2^-13 the value lies within half a unit below A, above 10 within half a unit below 1. -/
def specTanh (a : Nat) : Nat × Flags :=
  match FFmt.f32.val a with
  | .nan => specNan
  | .inf n => (FFmt.f32.sign n 0x3F800000, 0)
  | .fin n m e =>
    if m = 0 then (a, 0)
    else if belowPow m e (-13) then (a, Flags.on (belowPow m e (-126)) .uf)
    else if !belowPow m e 4 then (FFmt.f32.sign n 0x3F800000, 0)
    else
      let x := fxExp (2 * (m * 2 ^ (e + 420).toNat))
      specRound n (fxDiv (x - fxOne) (x + fxOne)) (-420) true

end Sys2Proof.Machine
end

