-- ==== Sys2Proof/Machine/Aes.lean ====
section
/-! DEFINITION. AES-XTS-256, with which the HBM controllers and pool ports store lines (R68). The spec names the cipher, its key,
its tweak and its data unit; the cipher itself is that of FIPS 197 and IEEE 1619 (log 6). -/

namespace Sys2Proof.Machine

/-! The field of 256 elements. -/

/-- Twice a byte. -/
def gfDouble (a : Nat) : Nat := (2 * a % 256) ^^^ (if 128 ≤ a then 0x1B else 0)

/-- A product of bytes: the bits of `b`, lowest first. -/
def gfMulGo : Nat → Nat → Nat → Nat
  | 0, _, _ => 0
  | n + 1, a, b => (if b % 2 = 1 then a else 0) ^^^ gfMulGo n (gfDouble a) (b / 2)

def gfMul (a b : Nat) : Nat := gfMulGo 8 a b

/-- The inverse of a byte, 0 of 0: its 254th power, a product of the powers 2 to 128. -/
def gfInv (a : Nat) : Nat :=
  let sq (x : Nat) : Nat := gfMul x x
  let x2 := sq a
  let x4 := sq x2
  let x8 := sq x4
  let x16 := sq x8
  let x32 := sq x16
  let x64 := sq x32
  let x128 := sq x64
  gfMul x2 (gfMul x4 (gfMul x8 (gfMul x16 (gfMul x32 (gfMul x64 x128)))))

def rotByte (a k : Nat) : Nat := a * 2 ^ k % 256 + a / 2 ^ (8 - k)

def subByte (a : Nat) : Nat :=
  let x := gfInv a
  x ^^^ rotByte x 1 ^^^ rotByte x 2 ^^^ rotByte x 3 ^^^ rotByte x 4 ^^^ 0x63

def unsubByte (a : Nat) : Nat := gfInv (rotByte a 1 ^^^ rotByte a 3 ^^^ rotByte a 6 ^^^ 5)

/-! AES-256. A block is 16 bytes, column by column. -/

def byteAt (v : List Nat) (k : Nat) : Nat := v.getD k 0
def xorBytes (a b : List Nat) : List Nat := List.zipWith (· ^^^ ·) a b

/-- The key schedule: words of four bytes, newest first. -/
def keyWords : Nat → Nat → List (List Nat) → List (List Nat)
  | 0, _, ws => ws
  | n + 1, rcon, ws =>
    let last := ws.headD []
    let i := ws.length
    let t := if i % 8 = 0 then (match last.map subByte with
        | a :: b :: rest => (b ^^^ rcon) :: (rest ++ [a])
        | v => v)
      else if i % 8 = 4 then last.map subByte
      else last
    keyWords n (if i % 8 = 0 then gfDouble rcon else rcon) (xorBytes t (ws.getD 7 []) :: ws)

/-- The 15 round keys of a 32-byte key. -/
def roundKeys (key : List Nat) : List (List Nat) :=
  let ws := (keyWords 52 1 ((List.range 8).map fun i => (key.drop (4 * i)).take 4).reverse).reverse
  (List.range 15).map fun r => ((ws.drop (4 * r)).take 4).flatten

def shiftRows (v : List Nat) : List Nat := (List.range 16).map fun k => byteAt v ((k + 4 * (k % 4)) % 16)
def unshiftRows (v : List Nat) : List Nat := (List.range 16).map fun k => byteAt v ((k + 16 - 4 * (k % 4)) % 16)

/-- Each column multiplied by the circulant matrix of four coefficients. -/
def mixWith (c : List Nat) (v : List Nat) : List Nat :=
  (List.range 16).map fun k =>
    (List.range 4).foldl (fun acc j => acc ^^^ gfMul (byteAt c ((j + 4 - k % 4) % 4)) (byteAt v (k / 4 * 4 + j))) 0

def encryptRounds : List (List Nat) → List Nat → List Nat
  | [], v => v
  | [k], v => xorBytes (shiftRows (v.map subByte)) k
  | k :: ks, v => encryptRounds ks (xorBytes (mixWith [2, 3, 1, 1] (shiftRows (v.map subByte))) k)

def decryptRounds : List (List Nat) → List Nat → List Nat
  | [], v => v
  | [k], v => xorBytes ((unshiftRows v).map unsubByte) k
  | k :: ks, v => decryptRounds ks (mixWith [14, 11, 13, 9] (xorBytes ((unshiftRows v).map unsubByte) k))

def aesEncrypt (ks : List (List Nat)) (v : List Nat) : List Nat := encryptRounds ks.tail (xorBytes v (ks.headD []))
def aesDecrypt (ks : List (List Nat)) (v : List Nat) : List Nat :=
  decryptRounds ks.reverse.tail (xorBytes v (ks.reverse.headD []))

/-! XTS over a line of 128 bytes. -/

def leBytes (n v : Nat) : List Nat := (List.range n).map fun i => v / 256 ^ i % 256
def leNat (v : List Nat) : Nat := v.foldr (fun b acc => b + 256 * acc) 0

/-- The tweak of the next block. -/
def nextTweak (t : Nat) : Nat := (2 * t % 2 ^ 128) ^^^ (if 2 ^ 127 ≤ t then 0x87 else 0)

/-- Blocks of a line through a cipher, each under its tweak. -/
def xtsGo (f : List Nat → List Nat) : Nat → Nat → Nat → Nat
  | 0, _, _ => 0
  | n + 1, t, v =>
    let b := v % 2 ^ 128
    (leNat (f (leBytes 16 (b ^^^ t))) ^^^ t) + 2 ^ 128 * xtsGo f n (nextTweak t) (v / 2 ^ 128)

/-- The data key is bits [255:0] of a slot and the tweak key bits [511:256], each little-endian. -/
def dataKeys (k : BitVec 512) : List (List Nat) := roundKeys (leBytes 32 (k.toNat % 2 ^ 256))
def lineTweak (k : BitVec 512) (line : Nat) : Nat :=
  leNat (aesEncrypt (roundKeys (leBytes 32 (k.toNat / 2 ^ 256))) (leBytes 16 line))

/-- A line, DPA[55:7], encrypted and decrypted under a key (R68). -/
def xtsEncrypt (k : BitVec 512) (line : Nat) (v : BitVec 1024) : BitVec 1024 :=
  let ks := dataKeys k
  BitVec.ofNat 1024 (xtsGo (aesEncrypt ks) 8 (lineTweak k line) v.toNat)

def xtsDecrypt (k : BitVec 512) (line : Nat) (v : BitVec 1024) : BitVec 1024 :=
  let ks := dataKeys k
  BitVec.ofNat 1024 (xtsGo (aesDecrypt ks) 8 (lineTweak k line) v.toNat)

end Sys2Proof.Machine
end

