-- ==== Sys2Proof/Machine/Device.lean ====
section
/-! DEFINITION. Device memory: DPAs, page tables, translation and its caches, keys, lines at their homes, and the writes a
home applies (R65-R91, R92-R96, R99, R100). -/

namespace Sys2Proof.Machine

/-! Device physical addresses (R65, R66, R76). -/

/-- The space of a DPA: 0 HBM, 1 host, 2 pool, 3 reserved. -/
def dpaSpace (a : Nat) : Nat := a / 2 ^ 54 % 4
def dpaPkg (a : Nat) : Nat := a / 2 ^ 40 % 2 ^ 14
def poolRegion (a : Nat) : Nat := a / 2 ^ 30 % 2 ^ 12
/-- The 128-byte line of a DPA, DPA[55:7]. -/
def lineOf (a : Nat) : Nat := a / 128

/-- The stack that holds an HBM offset (R66). -/
def stackOf (a : Nat) : Nat := (a / 2 ^ 8 % 16) ^^^ (a / 2 ^ 36 % 16)

/-- The stack offset, 36 bits: P[39:12] above P[7:0] (R66). -/
def stackOffset (a : Nat) : Nat := a / 2 ^ 12 % 2 ^ 28 * 2 ^ 8 + a % 2 ^ 8

/-- The pseudo-channel, P[17:12] (R66). -/
def pseudoChannel (a : Nat) : Nat := a / 2 ^ 12 % 64

/-- The HBM offset at a stack and stack offset: the mapping is a bijection (R66). -/
def hbmOffset (stack off : Nat) : Nat :=
  off / 2 ^ 8 % 2 ^ 28 * 2 ^ 12 + (stack ^^^ (off / 2 ^ 32 % 16)) * 2 ^ 8 + off % 2 ^ 8

/-- The die of a stack, and whether it stands at the east edge (R5, R66). -/
def stackDie (k : Nat) : Nat := k / 2
def stackEast (k : Nat) : Bool := decide (k % 2 = 1)

/-- The routers of a stack's HBM controller: those of the hall units in hall column 0 or 7 of its die (R5, R142). -/
def stackRouters (s : State) (k : Nat) : List Nat :=
  (List.range 5).map fun row => unitCore s (stackDie k * 40 + row * 8 + (if stackEast k then 7 else 0))

/-! Flight links (R5, R146, R365): link 4 × direction + k, the directions 0 west, 1 east, 2 north, 3 south. The numbering is the
model's (log 83). -/

/-- The die a flight link leaves from (R5). -/
def flightDie (l : Nat) : Nat := match l / 4 with
  | 0 => 2 * (l % 4)
  | 1 => 2 * (l % 4) + 1
  | 2 => l % 4 / 2
  | _ => 6 + l % 4 / 2

/-- Where a flight link is attached: package coordinates X and Y of its router (R146). -/
def flightAt (l : Nat) : Nat × Nat := match l / 4 with
  | 0 => (0, 20 * (l % 4) + 10)
  | 1 => (63, 20 * (l % 4) + 10)
  | 2 => (16 * (l % 4) + 8, 0)
  | _ => (16 * (l % 4) + 8, 79)

/-- The flight link has not been lost (R365). -/
def flightLive (s : State) (l : Nat) : Bool := !(Sparse.get {} s.flights l).lost

/-- The lowest-numbered live link of a direction, the substitute of its lost ones (R365). -/
def flightSubstitute (s : State) (dir : Nat) : Option Nat := ((List.range 4).map (4 * dir + ·)).find? (flightLive s)

/-- The other direction of a dimension. -/
def flightBack (dir : Nat) : Nat := if dir % 2 = 0 then dir + 1 else dir - 1

/-- The shorter direction from one torus coordinate to another, of a dimension of `w` packages: the first of the pair given for
the falling one; a tie goes to the rising one, east or south (R146). -/
def shorter (falling w here there : Nat) : Nat := if 2 * ((there + w - here) % w) ≤ w then falling + 1 else falling

/-- The direction in which the ordered class leaves for a package: X first, then Y, the other way where every link of the shorter
one is lost (R146, R365). -/
def flightDir (s : State) (p : Nat) : Nat :=
  let d := if p % 128 ≠ s.pkg % 128 then shorter 0 s.torusX (s.pkg % 128) (p % 128)
    else shorter 2 s.torusY (s.pkg / 128) (p / 128)
  if (flightSubstitute s d).isSome then d else flightBack d

/-- The flight link that the ordered class takes from a router at package coordinates x and y toward a package (R146, R365). -/
def flightOf (s : State) (x y p : Nat) : Option Nat :=
  let d := flightDir s p
  let l := 4 * d + (if d < 2 then y / 20 else x / 16)
  if flightLive s l then some l else flightSubstitute s d

/-- A dimension's links reach its other packages: some link of one of its directions lives (R365). -/
def dimensionLive (s : State) (falling : Nat) : Bool :=
  (flightSubstitute s falling).isSome || (flightSubstitute s (falling + 1)).isSome

/-! Membership tables (R367). -/

def Members.epoch (t : Members) : Nat := bitsAt t.header.toNat 32 32
def Members.livec (t : Members) : Nat := bitsAt t.header.toNat 16 16
def Members.size (t : Members) : Nat := bitsAt t.header.toNat 0 16
/-- Package and LIVE of each rank. -/
def Members.ranks (t : Members) : List (Nat × Bool) := t.entries.map fun e => (bitsAt e.toNat 0 14, e.getLsbD 15)
/-- The table of an epoch and its ranks. -/
def Members.of (epoch : Nat) (ranks : List (Nat × Bool)) : Members where
  header := BitVec.ofNat 512 (ranks.length % 2 ^ 16 + (ranks.filter (·.2)).length % 2 ^ 16 * 2 ^ 16 + epoch % 2 ^ 32 * 2 ^ 32)
  entries := ranks.map fun r => BitVec.ofNat 16 (r.1 % 2 ^ 14 + r.2.toNat * 2 ^ 15)

/-- A package id lies in the scale-up domain: this package, or a coordinate of the torus while links of every dimension to cross
live, whose links trained with the same size (R364, R365). -/
def State.inDomain (s : State) (p : Nat) : Bool :=
  p == s.pkg ||
  (!s.mismatched.contains p && decide (p % 128 < s.torusX) && decide (p / 128 < s.torusY) &&
    (p % 128 == s.pkg % 128 || dimensionLive s 0) && (p / 128 == s.pkg / 128 || dimensionLive s 2))

/-- The pool region entry is online (R85). -/
def State.regionOnline (s : State) (r : Nat) : Bool :=
  let e := (Sparse.get 0 s.regions r).toNat
  e / 2 ^ 62 == 1 && e / 2 ^ 52 % 256 == 0 && e % 2 ^ 30 == 0

def State.regionPort (s : State) (r : Nat) : Nat := (Sparse.get 0 s.regions r).toNat / 2 ^ 60 % 4

/-- BASE of a region, in GiB: HDM address bits [51:30] (R85). -/
def State.regionBase (s : State) (r : Nat) : Nat := (Sparse.get 0 s.regions r).toNat / 2 ^ 30 % 2 ^ 22

/-- Where a byte of a key stands in `mem`: a byte of the pool at the HDM address of its port, from 2^65 on (R85), another at
its key. -/
def State.place (s : State) (k : Nat) : Nat :=
  if 2 ^ 56 ≤ k || dpaSpace k ≠ 2 then k
  else 2 ^ 65 + s.regionPort (poolRegion k) * 2 ^ 52 + s.regionBase (poolRegion k) * 2 ^ 30 + k % 2 ^ 30

/-! Page tables (R71-R74). -/

/-- The root-table pointer of a context; at cold reset it names the reserved space (R72). -/
def State.root (s : State) (ctx : Nat) : Nat := Sparse.get 0xC0000000000000 s.roots ctx

/-- Fields of a PTE (R73). -/
def ptePa (e : Nat) : Nat := e / 2 ^ 16 % 2 ^ 40 * 2 ^ 16
def pteKey (e : Nat) : Nat := e / 2 ^ 10 % 64
def pteHs (e : Nat) : Nat := e / 2 ^ 8 % 4
def pteHome (e : Nat) : Nat := e / 2 ^ 64 % 512
def pteBit (e k : Nat) : Bool := decide (e / 2 ^ k % 2 = 1)

/-- Permission bits that an operation needs (R75): RD 4, WR 8, EX 16. -/
def pteGrants (e need : Nat) : Bool := decide (e % 32 / 4 * 4 &&& need = need)

/-- A leaf at a level with page size 2^p is well formed (R73, R74). -/
def leafOk (e p : Nat) : Bool :=
  let home := match pteHs e with
    | 0 => pteHome e == 0
    | 1 => decide (pteHome e < 8)
    | 2 => decide (pteHome e < 320)
    | _ => false
  home && ptePa e % 2 ^ p == 0 &&
  (match dpaSpace (ptePa e) with
    | 0 => true
    | 1 => pteBit e 7 && pteKey e == 0
    | 2 => !pteBit e 7 && ptePa e / 2 ^ 42 % 2 ^ 12 == 0
    | _ => false)

/-- A table entry is well formed, its table aligned to 2^n bytes (R74). -/
def tableOk (e n : Nat) : Bool :=
  e / 4 % 2 ^ 14 == 0 && pteHome e == 0 && ptePa e % 2 ^ n == 0 && dpaSpace (ptePa e) == 0

/-! Keys and stored bytes (R68-R70). -/

/-- The key in a slot. -/
def State.keyOf (s : State) (slot : Nat) : Option (BitVec 512) := Sparse.get none s.keys slot

/-- A line that this package encrypts: not in the host space, and not in another package's HBM, whose slots are that
package's (R68, R69). -/
def State.ownKeys (s : State) (l : Nat) : Bool :=
  dpaSpace (l * 128) == 2 || (dpaSpace (l * 128) == 0 && dpaPkg (l * 128) == s.pkg)

/-- The 1,024 bits of a line as they were written. -/
def State.rawLine (s : State) (l : Nat) : Nat := Memory.load s.mem (s.place (l * 128)) 128

/-- The line by whose DPA the bytes at a line's place were last written: another one where two regions of the pool name one HDM
line (R68, R85). -/
def State.writer (s : State) (l : Nat) : Nat := match Sparse.get 0 s.tweaks (s.place (l * 128) / 128) with
  | 0 => l
  | w + 1 => w

/-- A line of the pool is written by its own DPA. -/
def State.noteWriter (s : State) (l : Nat) : State :=
  if dpaSpace (l * 128) ≠ 2 then s else { s with tweaks := Sparse.set 0 s.tweaks (s.place (l * 128) / 128) (l + 1) }

/-- A line stands in a hall store with its data. -/
def State.holdsData (s : State) (l : Nat) : Bool := (s.line l).state == .clean || (s.line l).state == .dirty

/-- The 1,024 bits of a line read under a key slot: those of the hall store where it holds the line under that slot, else the bytes
written, or, under another key or by another DPA, the decryption of what is stored (R68-R70). -/
def State.lineUnder (s : State) (l slot : Nat) : Nat :=
  if s.holdsData l && (s.line l).tag == slot then s.rawLine l
  else match (s.line (s.writer l)).key, s.keyOf slot with
    | some k0, some k1 =>
      if (k0 = k1 && s.writer l = l) || !s.ownKeys l then s.rawLine l
      else (xtsDecrypt k1 l (xtsEncrypt k0 (s.writer l) (BitVec.ofNat 1024 (s.rawLine l)))).toNat
    | _, _ => s.rawLine l

/-- The bytes of a line stored. -/
def State.setLineBytes (s : State) (l v : Nat) : State :=
  { s with mem := Memory.store s.mem (s.place (l * 128)) 128 v }.noteWriter l

/-- `n` bytes of device memory within one line, as a number, read under a key slot. -/
def State.devRead (s : State) (a n slot : Nat) : Nat :=
  s.lineUnder (lineOf a) slot / 2 ^ (8 * (a % 128)) % 2 ^ (8 * n)

/-- The key slot of an access to this package's memory is empty (R69). -/
def emptySlot (s : State) (a slot : Nat) : Bool := s.ownKeys (lineOf a) && (s.keyOf slot).isNone

/-- Why a line cannot be reached with a key slot, if it cannot (R65, R69, R80, R86): what a request meets on its way or at
the line's home. -/
def lineFault (s : State) (a slot : Nat) : Option Nat :=
  match dpaSpace a with
  | 0 => if !s.inDomain (dpaPkg a) then some 7 else if emptySlot s a slot then some 4 else none
  | 1 => none
  | 2 => if !s.regionOnline (poolRegion a) then some 6 else if emptySlot s a slot then some 4 else none
  | _ => some 3

/-- A sector of a line is uncorrectable in its stack. -/
def badSectors (s : State) (l : Nat) : Bool := Sparse.get 0 s.badHbm (2 * l) == 2 || Sparse.get 0 s.badHbm (2 * l + 1) == 2

/-- A line returns no data (R67, R94, R349): it is Poisoned, its copy in the hall store is uncorrectable, or it is not
cached and a sector of it is. -/
def poisonedLine (s : State) (l : Nat) : Bool :=
  (s.line l).state == .poisoned || Sparse.get 0 s.badHall l == 2 ||
    (((s.line l).state == .invalid || (s.line l).state == .filling) && badSectors s l)

/-- The same with poison, for a read (R67). -/
def readFault (s : State) (a slot : Nat) : Option Nat :=
  match lineFault s a slot with
  | some r => some r
  | none => if poisonedLine s (lineOf a) then some 5 else none

/-- One level of a walk: shift and width of its index, page bits of a leaf (0: never a leaf), alignment of the next
table in bits (0: there is none). -/
structure Level where
  shift : Nat
  bits : Nat
  page : Nat
  next : Nat

def walkLevels : List Level := [⟨43, 14, 0, 17⟩, ⟨30, 13, 30, 13⟩, ⟨21, 9, 21, 9⟩, ⟨16, 5, 16, 0⟩]

/-- A leaf found: the PTE, its address, the page size in bits, and the table entries on the way to it, by shift. -/
structure Leaf where
  pte : Nat
  at_ : Nat
  page : Nat
  tables : List (Nat × Nat)
  deriving DecidableEq, Repr

/-- The entry of a level: from the walk cache, or read (R77, R78). -/
def levelEntry (s : State) (wc : List WalkEntry) (ctx va : Nat) (l : Level) (table : Nat) : Except Nat Nat :=
  match wc.find? fun w => w.ctx == ctx && w.shift == l.shift && w.prefix_ == va / 2 ^ l.shift with
  | some w => .ok w.pte.toNat
  | none =>
    let a := table + 16 * (va / 2 ^ l.shift % 2 ^ l.bits)
    match readFault s a 0 with
    | some r => .error r
    | none => .ok (s.devRead a 16 0)

/-- The walk from a table (R72-R74), reading each PTE through its home with key slot 0 (log 11). -/
def walkFrom (s : State) (wc : List WalkEntry) (ctx va : Nat) : List Level → Nat → Except Nat Leaf
  | [], _ => .error 3
  | l :: ls, table =>
    match levelEntry s wc ctx va l table with
    | .error r => .error r
    | .ok e =>
      if !pteBit e 0 then .error 1
      else if e / 2 ^ 73 ≠ 0 || e / 2 ^ 56 % 256 ≠ 0 then .error 3
      else if pteBit e 1 then
        (if l.page = 0 || !leafOk e l.page then .error 3
         else .ok ⟨e, table + 16 * (va / 2 ^ l.shift % 2 ^ l.bits), l.page, []⟩)
      else if l.next = 0 || !tableOk e l.next then .error 3
      else match walkFrom s wc ctx va ls (ptePa e) with
        | .error r => .error r
        | .ok f => .ok { f with tables := (l.shift, e) :: f.tables }

/-- A walk in a context (R72), helped by a walk cache. -/
def walkWith (s : State) (wc : List WalkEntry) (ctx va : Nat) : Except Nat Leaf :=
  let root := s.root ctx
  if dpaSpace root ≠ 0 || root % 2 ^ 18 ≠ 0 || 2 ^ 56 ≤ root then .error 3
  else walkFrom s wc ctx va walkLevels root

/-- A walk that reads every entry. -/
def walk (s : State) (ctx va : Nat) : Except Nat Leaf := walkWith s [] ctx va

/-- The entries a walk reads in memory, by DPA (R78). -/
def walkReads (s : State) (wc : List WalkEntry) (ctx va : Nat) : List Level → Nat → List Nat
  | [], _ => []
  | l :: ls, table =>
    let at_ := table + 16 * (va / 2 ^ l.shift % 2 ^ l.bits)
    let here := if (wc.any fun w => w.ctx == ctx && w.shift == l.shift && w.prefix_ == va / 2 ^ l.shift) then [] else [at_]
    match levelEntry s wc ctx va l table with
    | .error _ => here
    | .ok e => if pteBit e 0 && !pteBit e 1 then here ++ walkReads s wc ctx va ls (ptePa e) else here

/-- A translation: the DPA, the PTE, the page's first VA and size in bytes. -/
structure Trans where
  dpa : Nat
  pte : Nat
  page : Nat
  bytes : Nat
  deriving DecidableEq, Repr

def transOf (va pte page bytes : Nat) : Trans := ⟨ptePa pte / bytes * bytes + (va - page), pte, page, bytes⟩

/-- The cached leaf of a hall unit that covers a VA (R77). -/
def cached (h : Hall) (ctx va : Nat) : Option Tlb :=
  h.tlb.find? fun t => t.ctx == ctx && decide (t.va ≤ va) && decide (va < t.va + t.bytes)

/-- The caches with a leaf and the tables on its way added; 2,048 leaves and 256 table entries are kept (R77). The spec gives no
replacement policy: the oldest leaves, which is the model's choice (log 71). -/
def cacheLeaf (h : Hall) (ctx va : Nat) (f : Leaf) : Hall :=
  let seen := f.tables.map fun (e : Nat × Nat) => WalkEntry.mk ctx e.1 (va / 2 ^ e.1) (BitVec.ofNat 128 e.2)
  { h with tlb := (⟨ctx, va / 2 ^ f.page * 2 ^ f.page, 2 ^ f.page, BitVec.ofNat 128 f.pte⟩ :: h.tlb).take 2048
           walks := (seen ++ h.walks.filter fun w => !seen.contains w).take 256 }


def needRead : Nat := 4
def needWrite : Nat := 8
def needBoth : Nat := 12
def needFill : Nat := 20

/-! Homes (R76, R95). -/

/-- The home hall of an HBM line with device bias (R76). -/
def homeHall (dpa pte : Nat) : Nat :=
  let l := dpa / 128 % 2 ^ 33
  match pteHs pte with
  | 0 => ((l % 8) ^^^ (l / 2 ^ 10 % 8)) * 40 + l / 8 % 40
  | 1 => pteHome pte % 8 * 40 + l % 40
  | _ => pteHome pte

/-- The execution point of a key (R76, R260): a hall; 320 the fabric port; 321 + p pool port p; 400 + core an NI. -/
def pointOf (s : State) (k pte : Nat) : Nat :=
  if isLsKey k then 400 + keyCore k
  else match dpaSpace k with
    | 0 => if pteBit pte 7 then 320 else homeHall k pte
    | 1 => 320
    | _ => 321 + s.regionPort (poolRegion k)

/-! The hall store (R92, R94). -/

/-- The home hall of the package-span row of R76 for L. -/
def packageHall (l : Nat) : Nat := ((l % 8) ^^^ (l / 2 ^ 10 % 8)) * 40 + l / 8 % 40

/-- The hall whose store caches a line served at an execution point: the home hall, or the proxy hall of a pool line. -/
def storeHall (l point : Nat) : Nat := if point < 320 then point else packageHall (l % 2 ^ 35)

/-- Lines that the hall stores cache: not those of the host space or of host-biased pages, nor another package's. -/
def cachable (s : State) (l point : Nat) : Bool := decide (dpaSpace (l * 128) ≠ 1) && decide (point ≠ 320) && s.ownKeys l

def hallSetOf (l : Nat) : Nat := Config.hallSet l % 3072

/-- The lines whose places a directory entry and its grain-owner array of 2 bytes a grain take (R92, R99). -/
def Dir.ways (d : Dir) : List Nat := (List.range (1 + (d.len / 512 * 2 + 127) / 128)).map (lineOf d.dpa + ·)

/-- The lines in a hall's store, and those whose places directory entries take. -/
def linesIn (s : State) (h : Nat) : List Nat := (s.lines.filter fun p => p.2.state != .invalid && p.2.home == h).map (·.1)
def dirWays (s : State) (h : Nat) : List Nat := ((s.dirs.filter fun d => d.point == h).map Dir.ways).flatten

/-- The lines whose pinned places the host launch ring of a hall takes: hall 5i has ring i (R306, R360). -/
def ringWays (s : State) (h : Nat) : List Nat :=
  if h % 5 ≠ 0 then []
  else match s.rings.find? fun r => r.1 == h / 5 with
    | none => []
    | some (i, r) => (List.range (64 + 2 ^ r.log2n)).map (lineOf (2 ^ 64 + 65536 * i) + ·)

/-- The places taken in a hall's store. -/
def placesIn (s : State) (h : Nat) : List Nat := linesIn s h ++ dirWays s h ++ ringWays s h

/-- The places taken in the set of a line. -/
def setTaken (s : State) (h l : Nat) : Nat := ((placesIn s h).filter fun k => hallSetOf k == hallSetOf l).length

/-- The link behind a line is up: lines of HBM have none (R86). -/
def linkUp (s : State) (l : Nat) : Bool :=
  dpaSpace (l * 128) != 2 || (Sparse.get ({} : Link) s.ports (s.regionPort (poolRegion (l * 128)))).active

/-- A line eviction may choose (R94): not Filling, not Leased, and not one that its link's absence keeps from being written back
(R86). -/
def evictable (s : State) (k : Nat) : Bool :=
  (s.line k).state != .filling && (s.line k).lease.isNone && ((s.line k).state != .dirty || linkUp s k)

/-- The least recently used line of the set of `l` that may go. -/
def victimLine (s : State) (h l : Nat) : Option Nat :=
  ((linesIn s h).filter fun k => hallSetOf k == hallSetOf l && evictable s k).foldl (fun best k => match best with
    | none => some k
    | some b => if (s.line k).used < (s.line b).used then some k else some b) none

/-- A way is free for a line, or can be made so. Sixteen lines and entries never fill a set. -/
def hasRoom (s : State) (h l : Nat) : Bool :=
  decide ((placesIn s h).length < 16) || decide (setTaken s h l < 16) || (victimLine s h l).isSome

/-- A line that an access brings into a hall store has a way there (R94). -/
def roomFor (s : State) (l point : Nat) : Bool :=
  !(cachable s l point && (s.line l).state == .invalid) || hasRoom s (storeHall l point) l

/-- A Dirty line under another key index than an access's cannot be written back while its link is away (R70, R86). -/
def tagWaits (s : State) (l slot : Nat) : Bool :=
  (s.line l).state == .dirty && !linkUp s l && (s.line l).tag != slot

/-! Replies of homes. -/

/-- The issuer is a wave or a climber, not a unit of the device. -/
def isAgent (i : Issuer) : Bool := i.climber || decide (i.slot < 16)

/-- An acknowledgement (R391): form 0 at every scope, 1 up to device scope alone. -/
def ackMsg (m : Msg) (partly : Bool) : Task :=
  ⟨.writeAcknowledgement, .msg { src := m.src, tgt := m.tgt, point := m.point, sseq := m.sseq, id := m.id, kind := partly.toNat }⟩

/-! Fills, write-backs and eviction. -/

/-- Sectors of a line read from its stack: corrected errors are repaired and counted (R67). -/
def repairLine (l : Nat) (s : State) : State :=
  let bad (k : Nat) : Nat := Sparse.get 0 s.badHbm k
  let n := (if bad (2 * l) = 1 then 1 else 0) + (if bad (2 * l + 1) = 1 then 1 else 0)
  let fix (m : List (Nat × Nat)) (k : Nat) : List (Nat × Nat) := if bad k = 1 then Sparse.set 0 m k 0 else m
  { s with badHbm := fix (fix s.badHbm (2 * l)) (2 * l + 1)
           corrected := if n = 0 then s.corrected else Sparse.upd 0 s.corrected (stackOf (l * 128)) (· + n) }

/-- No key index: the tag of a line filled and not yet read. -/
def noTag : Nat := 64

/-- A line is filled (R67, R94): corrected errors are repaired and counted, an uncorrectable sector poisons the line. Its tag is that
of the access that it is filled for, which takes it next. -/
def fillLine (l : Nat) (s : State) : State :=
  (repairLine l s).updLine l fun x => { x with state := if badSectors s l then .poisoned else .clean, tag := noTag }

/-- Copies in an engine's queue are not settled by a line. -/
def copyQueued (s : State) (id : Nat) : Bool := s.halls.any fun h => h.2.queue.any fun c => c.id == id

/-- The operation still has a line that the pool device has not received. -/
def unwrittenBy (s : State) (i : Issuer) (id : Nat) : Bool := s.lines.any fun l => l.2.unwritten.any fun u => u.1 == i && u.2 == id

/-- Operations of a pool line have reached the device: those with nothing left anywhere are complete (R262). -/
def settleUnwritten (l : Nat) (us : List (Issuer × Nat)) (s : State) : State :=
  us.foldl (fun s u =>
    if unwrittenBy s u.1 u.2 || copyQueued s u.2 then s
    else s.postAll [ackMsg { src := u.1, tgt := l * 128, point := (s.line l).home, id := u.2 } false]) s

/-- A line owes nothing more to the operations it was written by. -/
def clearOwed (l : Nat) (s : State) : State := s.updLine l fun x => { x with unwritten := [], owed := [] }

/-- A Dirty line is written to its controller or port: erroneous sectors are overwritten (R67, R94); a copy that the hall store
has lost is written as poison (R349). -/
def writeBack (l : Nat) (s : State) : State :=
  let x := s.line l
  let v := if Sparse.get 0 s.badHall l == 2 then 2 else 0
  let s := (clearOwed l s).updLine l fun x => { x with state := match x.state with
      | .dirty => .clean
      | st => st }
  (settleUnwritten l x.unwritten { s with badHbm := Sparse.set 0 (Sparse.set 0 s.badHbm (2 * l) v) (2 * l + 1) v }).postAll
    (x.owed.flatMap (·.written))

/-- A line leaves the hall store; a Dirty one is written back before (R94). -/
def evict (l : Nat) (s : State) : State :=
  let s := if (s.line l).state = .dirty then writeBack l s else s
  { s with badHall := Sparse.set 0 s.badHall l 0 }.updLine l fun x => { x with state := .invalid }

/-- The least recently used line of a set with more than `n` places taken leaves it, where one can. -/
def makeRoom (n h l : Nat) (s : State) : State :=
  if (placesIn s h).length ≤ n || setTaken s h l ≤ n then s
  else match victimLine s h l with
    | some k => evict k s
    | none => s

/-- A line enters the store of its hall, where a way can be made free for it, in a state (R94). -/
def allocate (l point : Nat) (st : LineState) (s : State) : State :=
  (makeRoom 15 (storeHall l point) l s).updLine l fun x => { x with state := st, home := storeHall l point, used := s.nonce }

/-- A line's stored bytes brought under the key of a slot and under its own DPA (R68, R70). -/
def rekey (s : State) (l slot : Nat) : State :=
  let kv := s.keyOf slot
  if ((s.line l).key = kv && s.writer l = l) || !s.ownKeys l || kv.isNone then s
  else (s.setLineBytes l (s.lineUnder l slot)).updLine l fun x => { x with key := kv }

/-- A line just filled is decrypted for the access it was filled for, whose key index it takes (R70). -/
def takeTag (l slot : Nat) (s : State) : State := (rekey s l slot).updLine l fun x => { x with tag := slot }

/-- A cached line under another key index than its tag: it is written back under its tag's key and fetched again (R70). -/
def retag (l slot : Nat) (s : State) : State :=
  if !s.holdsData l || (s.line l).tag = slot || !s.ownKeys l then s
  else if (s.line l).tag = noTag then takeTag l slot s
  else takeTag l slot (fillLine l (if (s.line l).state = .dirty then writeBack l s else s))

/-- A line used at its home by a unit of the device, at a moment at which no request waits for it and a way is free: a line that is
not cached is filled (R67, R78, R94). -/
def touch (l slot point : Nat) (s : State) : State :=
  if (s.line l).state = .filling then s
  else if !cachable s l point || !roomFor s l point then (if (s.line l).state = .invalid then repairLine l s else s)
  else if (s.line l).state = .invalid then retag l slot (fillLine l (allocate l point .filling s))
  else (retag l slot s).updLine l fun x => { x with used := s.nonce }

/-! Translation at a hall unit (R75, R77). -/

/-- A VA looked up in the cache of a hall unit, or walked (R77). A walk reads its entries through their homes (R78), and one
that succeeds is cached. -/
def locate (s : State) (hall ctx va : Nat) : State × Except Nat Trans :=
  match cached (s.hall hall) ctx va with
  | some t => (s, .ok (transOf va t.pte.toNat t.va t.bytes))
  | none =>
    let wc := (s.hall hall).walks
    let t := (walkReads s wc ctx va walkLevels (s.root ctx)).foldl (fun s a => touch (lineOf a) 0 (packageHall (lineOf a % 2 ^ 33)) s) s
    match walkWith s wc ctx va with
    | .error r => (t, .error r)
    | .ok f => (t.updHall hall fun h => cacheLeaf h ctx va f, .ok (transOf va f.pte (va / 2 ^ f.page * 2 ^ f.page) (2 ^ f.page)))

/-- Why a translation does not serve an operation that needs `need`, if it does not (R69, R75). -/
def refused (s : State) (need : Nat) (t : Trans) : Option Nat :=
  if !pteGrants t.pte need then some 2 else if emptySlot s t.dpa (pteKey t.pte) then some 4 else none

/-- A VA translated at a hall unit for an operation that needs `need` (R75, R77, R80). An absent package and an absent region
are found later, on the way or at the home (R65, R86). -/
def translate (s : State) (hall ctx va need : Nat) : State × Except Nat Trans :=
  match locate s hall ctx va with
  | (s, .error r) => (s, .error r)
  | (s, .ok t) => match refused s need t with
    | some r => (s, .error r)
    | none => (s, .ok t)

/-! Writes at a home. -/

/-- Updates for a write of a line to the sharers of every subscribed range that holds it (R99, R100): the counter
advances by one, and each sharer, or each core of a sharer's hall in coarse mode, is sent the bytes. A range whose lines lie at
several halls of the die has one counter, and its updates leave from the hall that holds its entry (log 70). -/
def numberWrite (s : State) (l : Nat) (cells : List Host.Cell) (src : Issuer) (id : Nat) : State :=
  let hit (d : Dir) := decide (lineOf d.dpa ≤ l) && decide (l * 128 < d.dpa + d.len)
  let s := { s with dirs := s.dirs.map fun d => if hit d then { d with count := (d.count + 1) % 2 ^ 31 } else d }
  let send (d : Dir) : List Task :=
    let cores := if d.coarse
      then (d.sharers.map fun p => coresOfHall (corePkg p.1) (hallOf p.1)).flatten.eraseDups
      else d.sharers.map (·.1)
    cores.map fun c => Task.mk .subscriptionUpdate (.msg
      { src := src, tgt := lsKey c 0, ordered := true, bytes := cells, id := id, arg := BitVec.ofNat 128 d.count, va := BitVec.ofNat 64 d.dpa
        point := d.point })
  s.postAll ((s.dirs.filter hit).map send).flatten

/-- The 64-byte sectors that cells touch. -/
def sectorsOf (cells : List Host.Cell) : List Nat := (cells.map fun c => c.1 / 64).eraseDups

/-- Cached canopy entries of a line are dropped when a change to it is applied (R283). -/
def dropCanopy (l : Nat) (s : State) : State :=
  if s.halls.any (fun h => h.2.canopy.any fun c => c.line == l) then
    { s with halls := s.halls.map fun (h : Nat × Hall) => (h.1, { h.2 with canopy := h.2.canopy.filter fun c => c.line != l }) }
  else s

/-- Bytes of one line applied at its home, as one write (R67, R70, R94-R96, R100); `none` for a partial write of a
poisoned line. A host-owned sector that is written is recalled, and a host-shared one stays so, which is the model's choice
(log 72); a full write clears poison; the fabric port (320) keeps no data, and a line of a unit of the device that finds no way goes
to its controller (log 87). -/
def homeWrite (s : State) (l slot point : Nat) (cells : List Host.Cell) (src : Issuer) (id : Nat) : Option State :=
  if cells.isEmpty then some s
  else if poisonedLine s l && (cells.map (·.1)).eraseDups.length < 128 then none
  else
    let s := rekey (dropCanopy l { s with badHall := Sparse.set 0 s.badHall l 0 }) l slot
    let s := s.noteWriter l
    let s := { s with mem := Memory.writeCells s.mem (cells.map fun c => (s.place c.1, c.2))
                      sectors := (sectorsOf cells).foldl (fun m k => if Sparse.get 0 m k = 2 then Sparse.set 0 m k 0 else m) s.sectors }
    let s := if cachable s l point && roomFor s l point then
        (if (s.line l).state = .invalid then allocate l point .dirty s else s).updLine l fun x => { x with state := .dirty, tag := slot, used := s.nonce }
      else { s with badHbm := Sparse.set 0 (Sparse.set 0 s.badHbm (2 * l) 0) (2 * l + 1) 0 }.updLine l fun x => { x with state := .invalid }
    some (numberWrite s l cells src id)

/-- The cells of an `n`-byte value at a key. -/
def cellsOf (k n v : Nat) : List Host.Cell := (List.range n).map fun i => (k + i, BitVec.ofNat 8 (v / 2 ^ (8 * i)))

/-- `n` bytes at a memory key, a local-store or device key; device bytes are read under a key slot. -/
def State.keyRead (s : State) (k n slot : Nat) : Nat :=
  if 2 ^ 56 ≤ k then Memory.load s.mem k n
  else if k % 128 + n ≤ 128 then s.devRead k n slot
  else s.devRead k (128 - k % 128) slot + s.devRead (k + (128 - k % 128)) (n - (128 - k % 128)) slot * 2 ^ (8 * (128 - k % 128))

/-- Bytes of a VA range read line by line by a unit of a hall, for records of at most 1,024 bytes: the value, or the
first failure (R80). -/
def readVaGo (hall ctx need : Nat) : Nat → State → Nat → Nat → State × Except Nat Nat
  | 0, s, _, _ => (s, .ok 0)
  | fuel + 1, s, va, n =>
    if n = 0 then (s, .ok 0)
    else
      let here := min n (128 - va % 128)
      match translate s hall ctx va need with
      | (s, .error r) => (s, .error r)
      | (s, .ok t) =>
        match readFault s t.dpa (pteKey t.pte) with
        | some r => (s, .error r)
        | none =>
          match readVaGo hall ctx need fuel (touch (lineOf t.dpa) (pteKey t.pte) (pointOf s t.dpa t.pte) s) (va + here) (n - here) with
          | (s', .error r) => (s', .error r)
          | (s', .ok v) => (s', .ok (s.devRead t.dpa here (pteKey t.pte) + v * 2 ^ (8 * here)))

def readVa (s : State) (hall ctx va n : Nat) : State × Except Nat Nat :=
  readVaGo hall ctx needRead (n / 128 + 2) s va n

/-- A value written over a VA range line by line. -/
def writeVaGo (hall ctx : Nat) : Nat → State → Nat → Nat → Nat → State × Option Nat
  | 0, s, _, _, _ => (s, none)
  | fuel + 1, s, va, n, v =>
    if n = 0 then (s, none)
    else
      let here := min n (128 - va % 128)
      match translate s hall ctx va needWrite with
      | (s, .error r) => (s, some r)
      | (s, .ok t) =>
        match lineFault s t.dpa (pteKey t.pte) with
        | some r => (s, some r)
        | none => match homeWrite s (lineOf t.dpa) (pteKey t.pte) (pointOf s t.dpa t.pte) (cellsOf t.dpa here v) .device 0 with
          | none => (s, some 5)
          | some s => writeVaGo hall ctx fuel s (va + here) (n - here) (v / 2 ^ (8 * here))

/-- No request and no lease holds a line, and no page operation its page: a unit's access to it would be served at once (R95,
R109, R88). -/
def lineFree (s : State) (l : Nat) : Bool :=
  (s.line l).lease.isNone && (s.line l).queue.isEmpty && (s.line l).state != .filling &&
    !s.pageOps.any fun p => decide (p.old ≤ l * 128) && decide (l * 128 < p.old + p.bytes)

/-- A unit's access to a line under a key slot at an execution point would be served at once: nothing holds it, and it has, or needs
no, way in the hall store (R70, R94). -/
def unitFree (s : State) (l slot point : Nat) : Bool := lineFree s l && roomFor s l point && !tagWaits s l slot

/-- The lines of a VA range that translate, with key slot and execution point. -/
def vaLines (s : State) (ctx va n : Nat) : List (Nat × Nat × Nat) :=
  (List.range (n / 128 + 2)).filterMap fun i =>
    let a := if i = 0 then va else va / 128 * 128 + 128 * i
    if va + n ≤ a then none
    else match walk s ctx a with
      | .ok f =>
        let k := ptePa f.pte / 2 ^ f.page * 2 ^ f.page + a % 2 ^ f.page
        some (lineOf k, pteKey f.pte, pointOf s k f.pte)
      | .error _ => none

/-- A unit's access to a VA range need not wait at any home. -/
def vaFree (s : State) (ctx va n : Nat) : Bool := (vaLines s ctx va n).all fun q => unitFree s q.1 q.2.1 q.2.2

def writeVa (s : State) (hall ctx va n v : Nat) : State × Option Nat :=
  writeVaGo hall ctx (n / 128 + 2) s va n v

/-! Pointers (R10, R195, R389). -/

/-- The kind of a pointer. -/
def ptrKind (p : DWord) : Nat := p.toNat / 2 ^ 62
/-- The core word of a pointer, bits [61:35]. -/
def ptrCore (p : DWord) : Nat := p.toNat / 2 ^ 35 % 2 ^ 27
/-- The offset of a pointer, bits [21:0]. -/
def ptrOff (p : DWord) : Nat := p.toNat % 2 ^ 22
/-- Bits [34:22]. -/
def ptrMid (p : DWord) : Nat := p.toNat / 2 ^ 22 % 2 ^ 13

/-! Where local-store pointers lead (R9, R345). -/

/-- The DPA and key index of a byte of an image. -/
def imageByte (s : State) (v : Saved) (off : Nat) : Option (Nat × Nat) :=
  match walk s v.ctx (v.va + off) with
  | .error _ => none
  | .ok f => some (ptePa f.pte / 2 ^ f.page * 2 ^ f.page + (v.va + off) % 2 ^ f.page, pteKey f.pte)

/-- The same for a byte of the saved group's partition (R344, R345). -/
def imageAt (s : State) (v : Saved) (off : Nat) : Option (Nat × Nat) :=
  if off < v.group.pb || v.group.pb + v.group.pl ≤ off then none
  else imageByte s v ((v.bytes - v.group.pl) + (off - v.group.pb))

/-- Where the stacks and the save area of a wave slot begin in an image (R344). -/
def imageStacks (slot : Nat) : Nat := 256 + 1024 + 1024 * slot + 64
def imageSaveArea (slot : Nat) : Nat := imageStacks slot + 256

/-- The saved group that a frame entry of a launch names. -/
def savedAt (s : State) (lid lc : Nat) : Option Saved :=
  match s.frames.find? fun f => f.lid == lid && f.logical == lc with
  | none => none
  | some f => match f.saved with
    | none => none
    | some va => s.saved.find? fun v => v.va == va

/-- The offset of a local-store pointer, bits [34:0]. -/
def ptrLow (p : DWord) : Nat := p.toNat % 2 ^ 35

/-- Where a kind-01 or kind-10 pointer leads: memory key and key index. -/
def lsTarget (s : State) (lid : Nat) (p : DWord) : Option (Nat × Nat) :=
  if ptrKind p = 2 then some (lsKey (ptrCore p) (ptrLow p), 0)
  else match savedAt s lid (ptrCore p) with
    | some v => imageAt s v (ptrLow p)
    | none => (s.frameOf lid (ptrCore p)).map fun c => (lsKey c (ptrLow p), 0)

end Sys2Proof.Machine
end

