-- ==== Sys2Proof/Machine/Shapes.lean ====
section
/-! DEFINITION. What a copy command moves, and how far it has come (R115, R116, R126-R133): elements and units of each kind, its
lines in flight, the bytes done, and where its pointers lead. -/

namespace Sys2Proof.Machine

/-! Elements (R131, R132). -/

/-- Bytes of an element type. -/
def typeBytes (t : Nat) : Nat := if t < 2 then 1 else if t = 4 || t = 5 || t = 8 then 4 else 2

/-- Fields of a shape record (R132). -/
def shapeType (v : BitVec 256) : Nat := bitsAt v.toNat 0 4
def shapeRank (v : BitVec 256) : Nat := bitsAt v.toNat 4 2
def shapeLand (v : BitVec 256) : Nat := bitsAt v.toNat 32 32
def shapeExt (v : BitVec 256) (k : Nat) : Nat := bitsAt v.toNat (64 + 16 * k) 16 + 1
def shapeStrides (v : BitVec 256) (lo k : Nat) : Nat := if k = 0 then 1 else bitsAt v.toNat (lo + 20 * (k - 1)) 20
def shapeCount (v : BitVec 256) : Nat := shapeExt v 0 * shapeExt v 1 * shapeExt v 2 * shapeExt v 3

/-- The places of the source and destination strides in a shape record. -/
def strides (side : Nat) : Nat := if side = 0 then 136 else 196

/-- Byte offsets of every index tuple on a side, i0 fastest. -/
def tupleOffset (v : BitVec 256) (lo i : Nat) : Nat :=
  let i1 := i / shapeExt v 0
  let i2 := i1 / shapeExt v 1
  (i % shapeExt v 0 + i1 % shapeExt v 1 * shapeStrides v lo 1 + i2 % shapeExt v 2 * shapeStrides v lo 2 +
    i2 / shapeExt v 2 * shapeStrides v lo 3) * typeBytes (shapeType v)

def elemBytes (c : CopyCmd) : Nat :=
  match c.kind with
  | .gather size _ => size
  | .tile _ v => typeBytes (shapeType v)
  | _ => 1

/-- The pointer to element `i` of a command on a side, 0 source and 1 destination. -/
def elemPointer (c : CopyCmd) (side i : Nat) : DWord :=
  let base := if side = 0 then c.from_ else c.to_
  match c.kind with
  | .gather _ lanes =>
    let q := lanes.getD i (0, 0)
    BitVec.ofNat 64 (if side = 0 then q.1 else q.2)
  | .tile _ v => base + BitVec.ofNat 64 (tupleOffset v (strides side) i)
  | _ => base + BitVec.ofNat 64 i

/-! Units: what one line transfer of a gather or tile moves. -/

/-- Lanes grouped by source and destination line (R131). -/
def gatherGroups (lanes : List (Nat × Nat)) : List (Nat × Nat) := (lanes.map fun q => (q.1 / 128, q.2 / 128)).eraseDups

/-- Destination lines of a tile, in the order first touched. -/
def tileLines (v : BitVec 256) (dst : Nat) : List Nat :=
  ((List.range (shapeCount v)).map fun i => (dst + tupleOffset v 196 i) / 128).eraseDups

/-- Units a command issues: bytes, groups or lines; a collective issues none. -/
def copyTotal (c : CopyCmd) : Nat :=
  match c.kind with
  | .linear => c.bytes
  | .gather _ lanes => (gatherGroups lanes).length
  | .tile _ v => (tileLines v c.to_.toNat).length
  | .coll _ _ => 0

/-- The elements of unit `k` of a gather or tile, by number. -/
def unitElems (c : CopyCmd) (k : Nat) : List Nat :=
  match c.kind with
  | .gather _ lanes =>
    let key := (gatherGroups lanes).getD k (0, 0)
    (List.range lanes.length).filter fun i => let q := lanes.getD i (0, 0); (q.1 / 128, q.2 / 128) == key
  | .tile _ v =>
    let line := (tileLines v c.to_.toNat).getD k 0
    (List.range (shapeCount v)).filter fun i => (c.to_.toNat + tupleOffset v 196 i) / 128 == line
  | _ => []

/-- The first byte, in the order of elements, that unit `k` of a command moves; past the last unit, the command's bytes. -/
def unitStart (c : CopyCmd) (k : Nat) : Nat :=
  match c.kind with
  | .linear => min k c.bytes
  | .coll _ _ => 0
  | _ => if k < copyTotal c then (unitElems c k).headD 0 * elemBytes c else c.bytes

def isColl (c : CopyCmd) : Bool := match c.kind with
  | .coll _ _ => true
  | _ => false

/-- A command has lines to issue: those before its stop, once it has one (R126). -/
def copyLeft (c : CopyCmd) : Bool := decide (c.issued < copyTotal c) && c.stop.all fun q => decide (unitStart c c.issued < q.1)

/-- A command still holds its queue entry (R115). -/
def holdsEntry (c : CopyCmd) : Bool := isColl c || copyLeft c

/-- The group of a gather that moves a lane. -/
def gatherUnit (lanes : List (Nat × Nat)) (i : Nat) : Nat :=
  let q := lanes.getD i (0, 0)
  (gatherGroups lanes).findIdx (· == (q.1 / 128, q.2 / 128))

/-- The elements that one line transfer moves with element `i`. -/
def unitMates (c : CopyCmd) (i : Nat) : List Nat :=
  match c.kind with
  | .gather _ lanes => unitElems c (gatherUnit lanes i)
  | .tile _ v => (List.range (shapeCount v)).filter fun j =>
      (c.to_.toNat + tupleOffset v 196 j) / 128 == (c.to_.toNat + tupleOffset v 196 i) / 128
  | _ => []

/-! Lines in flight. -/

/-- The place in its copy of a line on its way, for lines of command `id`. -/
def lineOffset (id : Nat) (t : Task) : Option Nat := match t.op, t.arg with
  | .copyReadRequest, .msg m => if m.id = id then some m.va.toNat else none
  | .lineData, .msg m => if m.id = id then some m.va.toNat else none
  | .copyLineWrite, .msg m => if m.id = id then some m.va.toNat else none
  | _, _ => none

/-- An update of a subscribed range that a write of operation `id` caused. -/
def isUpdateOf (id : Nat) (t : Task) : Bool := match t.op, t.arg with
  | .subscriptionUpdate, .msg m => m.id == id
  | _, _ => false

/-- Everything on its way, or held at a home. -/
def State.inTransit (s : State) : List Task :=
  s.agenda ++ (s.lines.map fun l => l.2.queue).flatten ++ (s.pageOps.map fun p => p.queue).flatten

/-- The places of the lines of a command on their way. -/
def linesOnWay (s : State) (id : Nat) : List Nat := s.inTransit.filterMap (lineOffset id)

/-- Lines of a command, or updates that they cause (R262), are still on their way. -/
def inFlight (s : State) (id : Nat) : Bool := s.inTransit.any fun t => (lineOffset id t).isSome || isUpdateOf id t

/-- Lines of a command are dropped, wherever they stand, from `from_` on. -/
def dropLines (id from_ : Nat) (s : State) : State :=
  let keep (t : Task) : Bool := match lineOffset id t with
    | some o => decide (o < from_)
    | none => true
  { s with agenda := s.agenda.filter keep
           lines := s.lines.map fun (l : Nat × Line) => (l.1, { l.2 with queue := l.2.queue.filter keep })
           pageOps := s.pageOps.map fun (p : PageOp) => { p with queue := p.queue.filter keep } }

/-- The bytes of a command that are known to be done: all before its next unit and before every line on its way (R127). -/
def bytesDone (s : State) (c : CopyCmd) : Nat := (linesOnWay s c.id).foldl min (unitStart c c.issued)

/-- FIRST of a command that stops with `done` bytes done (R127). -/
def copyFirst (c : CopyCmd) (done side : Nat) : Nat := (elemPointer c side (done / elemBytes c)).toNat + done % elemBytes c

/-! Where a command's pointers lead. -/

/-- A pointer of a command: a physical one into a group saved meanwhile is one of its launch's frame (R129). -/
def redirected (c : CopyCmd) (p : DWord) : Option Redirect :=
  if ptrKind p = 2 then
    c.moved.find? fun r => r.core == ptrCore p && decide (r.lo ≤ ptrLow p) && decide (ptrLow p < r.lo + r.len)
  else none

/-- Where a local-store pointer of a command leads. -/
def cmdTarget (s : State) (c : CopyCmd) (p : DWord) : Option (Nat × Nat) :=
  match redirected c p with
  | some r => lsTarget s r.lid (BitVec.ofNat 64 (2 ^ 62 + r.lcore * 2 ^ 35 + ptrLow p))
  | none => lsTarget s c.lid p

/-- The pointers of a command on a side, each with the elements it serves: one range, or a lane's. -/
def sidePointers (c : CopyCmd) (side : Nat) : List DWord := match c.kind with
  | .gather _ lanes => lanes.map fun q => BitVec.ofNat 64 (if side = 0 then q.1 else q.2)
  | _ => [if side = 0 then c.from_ else c.to_]

/-- A side of a command lies in the local store of a core. -/
def sideOn (s : State) (c : CopyCmd) (side core : Nat) : Bool :=
  (sidePointers c side).any fun p => ptrKind p != 0 && match cmdTarget s c p with
    | some (k, _) => isLsKey k && keyCore k == core
    | none => false

end Sys2Proof.Machine
end

