-- ==== Sys2Proof/Machine/Network.lean ====
section
/-! DEFINITION. What ends an operation a wave, climber or engine has in flight: completion, answers, failures and the
records they leave (R81, R122, R126-R128, R262, R293, R298, R341, R350), and sealing a core (R349). -/

namespace Sys2Proof.Machine

/-- The group's checkpoint, where it is paired, changed for a slot: what messages bring is not rolled back (R355). -/
def updCheckpoint (core slot : Nat) (f : Checkpoint → Checkpoint) (s : State) : State :=
  match s.groupOf core slot with
  | none => s
  | some g => if g.pair.isSome then
      s.updGroup g.gid fun g => { g with pair := g.pair.map fun p => { p with check := f p.check } }
    else s

/-- A wave changed by a message, and its checkpoint with it. -/
def updWaveKept (core slot : Nat) (f : Wave → Wave) (s : State) : State :=
  (updCheckpoint core slot (fun c => { c with waves := c.waves.map fun (p : Nat × Wave) => if p.1 = slot then (p.1, f p.2) else p }) s).updWave
    core slot f

/-- The partner of the paired group on a core (R353). -/
def mirrorOf (s : State) (core : Nat) : Option Nat :=
  (s.groups.find? fun g => g.phase == .resident && g.core == core && g.pair.isSome).bind fun g => g.pair.map (·.partner)

/-- What a message changed in `n` bytes at a key of a paired core's store changes in its partner's (R355). -/
def echo (k n : Nat) (s : State) : State :=
  match (if isLsKey k then mirrorOf s (keyCore k) else none) with
  | none => s
  | some p => s.setLs p (keyOff k) n (Memory.load s.mem k n)

/-! Words at a memory key, in a local store or in the image of a saved group (R345). -/

/-- The key slot under whose key a line is stored. -/
def State.lineSlot (s : State) (l : Nat) : Nat :=
  ((List.range 64).find? fun k => (s.keyOf k).isSome && s.keyOf k == (s.line l).key).getD 0

def State.peek (s : State) (k n : Nat) : Nat :=
  if 2 ^ 56 ≤ k then Memory.load s.mem k n else s.keyRead k n (s.lineSlot (lineOf k))

/-- `n` bytes within one line written at a memory key, for an image at the line's home under a key slot. -/
def pokeUnder (k slot : Nat) (cells : List Host.Cell) (s : State) : State :=
  if 2 ^ 56 ≤ k then { s with mem := Memory.writeCells s.mem cells }
  else (homeWrite s (lineOf k) slot (pointOf s k 0) cells .device 0).getD s

def State.poke (s : State) (k n v : Nat) : State :=
  if 2 ^ 56 ≤ k then { s with mem := Memory.store s.mem k n v } else pokeUnder k (s.lineSlot (lineOf k)) (cellsOf k n v) s

/-! Operations in flight (R262). -/

/-- A new operation of an issuer. -/
def addOp (s : State) (i : Issuer) (o : Op) : State :=
  if !isAgent i then s
  else if i.climber then s.updClimber i.core i.slot fun c => { c with ops := c.ops ++ [o] }
  else s.updWave i.core i.slot fun w => { w with ops := w.ops ++ [o] }

/-- Operation `id` is complete at every scope. -/
def dropOp (id : Nat) (os : List Op) : List Op := os.filter fun o => o.id != id

/-- Operation `id` is complete up to device scope. -/
def applyOp (id : Nat) (os : List Op) : List Op := os.map fun o => if o.id == id then { o with applied := true } else o

def hasOp (id : Nat) (os : List Op) : Bool := os.any fun o => o.id == id

/-- The core and slot of the wave that has an operation: the issuer's, or, after a pre-emption, where it runs now. -/
def waveOfOp (s : State) (i : Issuer) (id : Nat) : Option (Nat × Nat) :=
  if hasOp id (s.wave i.core i.slot).ops then some (i.core, i.slot)
  else (s.waves.find? fun p => hasOp id p.2.ops).map fun p => (p.1 / 16, p.1 % 16)

/-- The waves, as core and slot, of which something holds: those of a pair know an operation by one number (R355). -/
def wavesWith (s : State) (p : Wave → Bool) : List (Nat × Nat) := (s.waves.filter fun q => p q.2).map fun q => (q.1 / 16, q.1 % 16)

/-- A change to the lists that hold an operation, wherever they stand: a wave and its partner, a climber, a saved wave, or the launch
once the wave has exited. -/
def onOps (s : State) (i : Issuer) (id : Nat) (f : List Op → List Op) : State :=
  let saved (w : Wave) : Wave := { w with ops := f w.ops }
  let s := if !isAgent i then s
    else if i.climber then s.updClimber i.core i.slot fun c => { c with ops := f c.ops }
    else match wavesWith s fun w => hasOp id w.ops with
      | [] => { s with saved := s.saved.map fun (v : Saved) => { v with waves := v.waves.map fun (p : Nat × Wave) => (p.1, saved p.2) } }
      | ws => ws.foldl (fun s q => updWaveKept q.1 q.2 (fun w => { w with ops := f w.ops }) s) s
  { s with launches := s.launches.map fun l => { l with ops := f l.ops } }

def completeOp (s : State) (i : Issuer) (id : Nat) : State := onOps s i id (dropOp id)

/-- A failure recorded for a saved wave, in the save area of its image. -/
def recordSaved (s : State) (v : Saved) (slot rec : Nat) : State :=
  match imageByte s v (imageSaveArea slot + 96) with
  | none => s
  | some (k, key) =>
    let old := s.keyRead k 32 key
    let new := if old % 2 = 0 then rec else if old / 2 ^ 96 % 2 ^ 32 = 2 ^ 32 - 1 then old else old + 2 ^ 96
    pokeUnder k key (cellsOf k 32 new) s

/-- A save area of 192 bytes with a failure recorded in it, as `State.recordFault` does. -/
def recordIn (area rec : Nat) : Nat :=
  let old := area / 2 ^ 768 % 2 ^ 256
  let new := if old % 2 = 0 then rec % 2 ^ 256 else if old / 2 ^ 96 % 2 ^ 32 = 2 ^ 32 - 1 then old else old + 2 ^ 96
  area - old * 2 ^ 768 + new * 2 ^ 768

/-- A failure that a message brings to a wave: its checkpoint, where its group is paired, has it too (R355). -/
def recordKept (core slot rec : Nat) (s : State) : State :=
  let keep (q : Nat × Nat × Nat) : Nat × Nat × Nat := if q.1 = slot then (q.1, q.2.1, recordIn q.2.2 rec) else q
  (updCheckpoint core slot (fun c => { c with stackBytes := c.stackBytes.map keep }) s).recordFault core slot rec

/-- A failure of an operation recorded for the wave that has it, and its partner (R81, R355); nothing once the wave is gone. -/
def recordOp (s : State) (id rec : Nat) : State :=
  match wavesWith s fun w => hasOp id w.ops with
  | q :: qs => (q :: qs).foldl (fun s q => recordKept q.1 q.2 rec s) s
  | [] =>
    match s.saved.find? fun v => v.waves.any fun p => hasOp id p.2.ops with
    | none => s
    | some v => match v.waves.find? fun p => hasOp id p.2.ops with
      | none => s
      | some p => recordSaved s v p.1 rec

/-- A climber that waited for a result or was parked is placed again: its latches and its fetched blocks, which only an active
climber has, are empty (R12, R165, R275, R287, R291). -/
def placeAgain (s : State) (core slot : Nat) : State :=
  if s.cst core slot = 3 || s.cst core slot = 4 then
    (((s.updClimber core slot fun c => { c with latch := none, probe := none, clkLatch := none, buf := [] }).setCst core slot 1).updCore core fun c => { c with placedQ := c.placedQ ++ [slot] }).updHall (hallOf core) fun h =>
      { h with parked := h.parked.filter fun p => !(p.core == core && p.slot == slot) }
  else s

/-- A blocking instruction's answer reaches the split or climber that waits for `id`. -/
def answer (s : State) (i : Issuer) (id data reason : Nat) : State :=
  let take (a : Await) : Await := if a = .sent id then .answered id data reason else a
  if !isAgent i then s
  else if i.climber then
    if (s.climber i.core i.slot).await = .sent id then
      placeAgain (s.updClimber i.core i.slot fun c => { c with await := take c.await }) i.core i.slot
    else s
  else (wavesWith s fun w => w.splits.any fun p => p.await = .sent id).foldl (fun s q =>
    updWaveKept q.1 q.2 (fun w => { w with splits := w.splits.map fun p => { p with await := take p.await } }) s) s

/-- The message that answers a waiting instruction: KIND 0x20 with form 1. -/
def answerMsg (m : Msg) (data reason : Nat) : Task :=
  ⟨.atomicResult, .msg { src := m.src, tgt := m.tgt, point := m.point, sseq := m.sseq, id := m.id, arg := BitVec.ofNat 128 data
                         reason := reason, kind := 1 }⟩

/-- A fault reply (KIND 0x24): the failed operation with its R80 reason, and the FCAUSE it raises. -/
def faultMsg (m : Msg) (cause reason : Nat) : Task :=
  ⟨.faultReply, .msg { m with reason := reason, kind := cause }⟩

/-- Pending registers no longer waited for; an `atm` with none left is done. -/
def dropPending (group : Nat) (dst : List Nat) (as : List AtmEntry) : List AtmEntry :=
  (as.map fun a => if a.id == group then { a with pending := a.pending.filter fun k => !dst.contains k } else a).filter
    fun a => !a.pending.isEmpty

/-- The `atm` of this number still waits for a register of the list. -/
def awaits (group : Nat) (dst : List Nat) (as : List AtmEntry) : Bool :=
  as.any fun a => a.id == group && a.pending.any fun k => dst.contains k

/-- The registers that hold a value, of those that an `atm` waits for. -/
def realRegs (dst : List Nat) : List Nat := dst.filter (· < regKey 320 0)

/-- The registers of an operation that failed are never written (R81). -/
def failAtm (group : Nat) (dst : List Nat) (w : Wave) : Wave :=
  if awaits group dst w.atms then { w with atms := dropPending group dst w.atms, failed := w.failed ++ realRegs dst } else w

/-- An operation fails with a cause and a reason: recorded for its wave, or kept to end its climber, while that still has it
(R81, R390). -/
def failOp (s : State) (m : Msg) (cause reason : Nat) : State :=
  let i := m.src
  if !isAgent i then completeOp s i m.id
  else if i.climber then
    if hasOp m.id (s.climber i.core i.slot).ops then
      (completeOp s i m.id).updClimber i.core i.slot fun c =>
        { c with failed := some (c.failed.getD (3, cause)), atms := dropPending m.group m.dst c.atms }
    else completeOp s i m.id
  else
    let entry := dfrBits m.va.toNat m.arg.toNat i.pc i.maj cause reason 0 i.lane m.aop.code m.sz.code
    updWaveKept i.core i.slot (failAtm m.group m.dst) (completeOp (recordOp s m.id entry) i m.id)

/-! Graph messages (R319, R323). -/

/-- The issuer that stands for a unit of a core. -/
def deviceAt (core slot : Nat) : Issuer := { Issuer.device with core := core, slot := slot }

/-- The slot under which an NI issues the records of fixed-function nodes (R323). -/
def niSlot : Nat := 0xFFFE

/-- A graph message about the instance of a group, on its way to that group's core: form 0 credit request, 1 records,
3 done signal, 4 credits returned, 5 fault record, 6 further records, 7 a counter's credit, 8 credits granted; the
count in `arg`. -/
def graphMsg (s : State) (src : Issuer) (gid form count id : Nat) : Task :=
  let core := match s.group? gid with
    | some g => g.core
    | none => src.core
  ⟨.graphMessage, .msg { src := src, tgt := lsKey core 0, group := gid, kind := form, arg := BitVec.ofNat 128 count, id := id }⟩

/-- The graph slot and node of a launch's record. -/
def recGslot (rec : BitVec 1024) : Nat := bitsAt rec.toNat 400 8
def recNode (rec : BitVec 1024) : Nat := bitsAt rec.toNat 384 12
def recGn (rec : BitVec 1024) : Bool := decide (bitsAt rec.toNat 26 1 = 1)

/-- The record of a fixed-function node that failed, on its way to the fault node's instance on the core (R323): node and
graph as slot × 4096 + node. -/
def niFault (core gn : Nat) (tuple : BitVec 128) (failure : Nat) : Task :=
  ⟨.graphMessage, .msg { src := deviceAt core niSlot, tgt := lsKey core 0, kind := 5, key := gn / 4096, id := gn % 4096
                         arg := BitVec.ofNat 128 (tuple.toNat % 2 ^ 96 + (gn % 4096 + failure * 2 ^ 16 + 5 * 2 ^ 24) * 2 ^ 96) }⟩

/-- The failure code of a memory failure or of a refusal (R323). -/
def niFailure (cause reason : Nat) : Nat := if reason ≠ 0 then reason else 0x80 + cause % 128

/-! Landings (R121, R122). -/

structure Landing where
  ibytes : Nat
  iarr : Nat
  fidx : Nat
  flt : Bool
  scope : Nat
  pbytes : Nat
  parr : Nat
  eng : Nat
  ph : Bool
  deriving DecidableEq, Repr

def Landing.ofBits (v : Nat) : Landing :=
  { ibytes := bitsAt v 96 32, iarr := bitsAt v 80 16, fidx := bitsAt v 72 8, flt := decide (bitsAt v 71 1 = 1)
    scope := bitsAt v 68 3, pbytes := bitsAt v 32 32, parr := bitsAt v 16 16, eng := bitsAt v 7 9, ph := decide (v % 2 = 1) }

def Landing.bits (l : Landing) : Nat :=
  l.ibytes * 2 ^ 96 + l.iarr * 2 ^ 80 + l.fidx * 2 ^ 72 + l.flt.toNat * 2 ^ 71 + l.scope * 2 ^ 68 + l.pbytes * 2 ^ 32 +
    l.parr * 2 ^ 16 + l.eng * 2 ^ 7 + l.ph.toNat

/-- The status word S (R125). -/
def Landing.status (l : Landing) : Nat := l.flt.toNat * 2 ^ 31 + l.eng * 2 ^ 16 + l.fidx * 2 ^ 8 + l.ph.toNat

/-- A landing initialised with no arrivals and no bytes never flips, and any update of it overruns (R125). -/
def Landing.idle (l : Landing) : Bool := l.iarr == 0 && l.ibytes == 0

/-- The flip of R122, where it is due. -/
def Landing.flip (l : Landing) : Landing :=
  if l.parr = 0 && l.pbytes = 0 && !l.flt && !l.idle then { l with ph := !l.ph, parr := l.iarr, pbytes := l.ibytes } else l

/-- An overrun sets FLT and FIDX once (R122). -/
def Landing.overrun (l : Landing) : Landing := if l.flt then l else { l with flt := true, fidx := 0xFF }

/-- `update` of R122. -/
def Landing.update (l : Landing) (darr dbytes : Nat) : Landing :=
  let overran := decide (l.parr < darr) || decide (l.pbytes < dbytes) || l.idle
  let t := { l with parr := l.parr - darr, pbytes := l.pbytes - dbytes }
  (if overran then t.overrun else t).flip

/-- `lnd.exp` (R125). -/
def Landing.expect (l : Landing) (b : Nat) : Landing :=
  let t := { l with pbytes := min (l.pbytes + b) (2 ^ 32 - 1) }
  if l.pbytes + b < 2 ^ 32 && !l.idle then t else t.overrun

def State.landing (s : State) (k : Nat) : Landing := Landing.ofBits (s.peek k 16)
def State.setLanding (s : State) (k : Nat) (l : Landing) : State := s.poke k 16 l.bits

/-! Copy faults (R126-R128). -/

/-- The lowest free fault-record index of an engine, or 0xFE (R126). -/
def freeRecord (h : Hall) : Nat :=
  ((List.range 254).find? fun i => !h.faults.any fun f => f.1 == i).getD 0xFE

/-- A fault record (R127). -/
def faultRecord (first done reason cls side core wave maj : Nat) : Nat :=
  first % 2 ^ 64 * 2 ^ 64 + done % 2 ^ 32 * 2 ^ 32 + reason % 16 * 2 ^ 28 + cls % 16 * 2 ^ 24 + side % 2 * 2 ^ 23 +
    core % 16 * 2 ^ 12 + wave % 16 * 2 ^ 8 + maj % 256

/-- The FCAUSE of a copy fault with no landing (R128). -/
def copyCause (cls reason : Nat) : Nat := if cls = 0 then causeOf reason else 0x05

/-- The core's number within its hall (R127). -/
def coreInHall (c : Nat) : Nat := coreY c % 4 * 4 + coreX c % 4

/-- The major opcode of a copy command. -/
def copyMaj (c : CopyCmd) : Nat :=
  match c.kind with
  | .linear => 0x53
  | .tile _ _ => 0x54
  | .gather _ _ => 0x55
  | .coll _ _ => 0x56

/-- A command leaves its engine. -/
def dropCopy (s : State) (c : CopyCmd) : State :=
  s.updHall c.hall fun h => { h with queue := h.queue.filter fun d => d.id != c.id }

/-- Where the landing of a command lies. -/
def landingKey (s : State) (c : CopyCmd) : Option Nat :=
  match c.landing with
  | none => none
  | some p => (cmdTarget s c p).map (·.1)

/-- The group of the wave that issued a command: where it runs now, saved, or as it was (R129, R134). -/
def ownerGroup (s : State) (c : CopyCmd) : Nat :=
  match waveOfOp s c.src c.id, s.saved.find? fun v => v.waves.any fun p => hasOp c.id p.2.ops with
  | some (x, w), _ => (s.wave x w).gid
  | none, some v => v.gid
  | none, none => (s.wave c.src.core c.src.slot).gid

/-- A copy into its issuer's own local store, which each core of a pair makes for itself (R355). -/
def ownDest (s : State) (c : CopyCmd) : Bool := !isColl c && match cmdTarget s c c.to_ with
  | some (k, _) => ptrKind c.to_ != 0 && isLsKey k && keyCore k == c.src.core
  | none => false

/-- A copy stops on a fault (R126-R128): a record and the landing's FLT, FIDX and ENG, or the wave's deferred-fault
record; it counts as complete (R262). -/
def copyFault (s : State) (c : CopyCmd) (done reason cls side : Nat) : State :=
  let s := dropCopy s c
  let s := match c.tuple with
    | some (gn, t) => s.postAll [niFault c.src.core gn t (niFailure (if cls = 3 then 0x1A else 0x05) (if cls = 0 then reason else 0))]
    | none => s
  let first := copyFirst c done side
  match landingKey s c with
  | some k =>
    let h := s.hall c.hall
    let ix := freeRecord h
    let entry := faultRecord first done (if cls = 0 then reason else 0) cls side (coreInHall c.src.core) c.src.slot (copyMaj c)
    let gid := if isAgent c.src then ownerGroup s c else 0
    let s := if ix = 0xFE then s else s.updHall c.hall fun h => { h with faults := h.faults ++ [(ix, BitVec.ofNat 128 entry, gid)] }
    let s := s.setLanding k { (s.landing k) with flt := true, fidx := ix, eng := c.hall }
    completeOp (if ownDest s c then s else echo k 16 s) c.src c.id
  | none =>
    if !isAgent c.src then completeOp s c.src c.id
    else completeOp (recordOp s c.id
      (dfrBits first 0 c.src.pc (copyMaj c) (copyCause cls reason) (if cls = 0 then reason else 0) cls 0 0 0)) c.src c.id

/-! The end of a climber (R293, R298). -/

/-- The memory key an anchor pointer names: kind 01, its core in the frame of the launch (R293). -/
def anchorKey (s : State) (lid : Nat) (p : DWord) : Option Nat :=
  if ptrKind p ≠ 1 then none
  else (s.frameOf lid (ptrCore p)).map fun c => match lsTarget s lid p with
    | some (k, _) => k
    | none => lsKey c (ptrLow p)

/-- c8:c9 of a climber. -/
def anchorOf (s : State) (core slot : Nat) : DWord := s.creg core slot 9 ++ s.creg core slot 8

/-- The slot of a climber frees; the climber leaves the pipe (R275). -/
def freeClimber (s : State) (core slot : Nat) : State :=
  let s := { s with climbers := Sparse.set {} s.climbers (climberKey core slot) {} }
  let s := (s.setCst core slot 0).updCore core fun c =>
    { c with active := c.active.filter (· != slot), placedQ := c.placedQ.filter (· != slot) }
  s.updHall (hallOf core) fun h => { h with parked := h.parked.filter fun p => !(p.core == core && p.slot == slot) }

/-- The fault count of a launch's traversal node increases by 1 (R293, R297). -/
def countFault (s : State) (lid : Nat) : State :=
  match s.launch? lid with
  | none => s
  | some l =>
    { s with graphs := Sparse.upd {} s.graphs (recGslot l.record) fun g =>
        { g with faults := Sparse.upd 0 g.faults (recNode l.record) (· + 1) } }

/-- The hand-over of a climber (R293): final, fault flag, reason, cause and count. -/
def handOver (s : State) (core slot : Nat) (final fault : Bool) (reason cause count : Nat) : Option State :=
  let p := anchorOf s core slot
  match anchorKey s (s.clid core slot) p with
  | none => none
  | some t =>
    some (s.post .pendingCountEnd (.msg
      { src := { Issuer.device with core := core, slot := slot, climber := true }, tgt := t, anch := p
        imm := BitVec.ofNat 32 (final.toNat * 2 ^ 31 + fault.toNat * 2 ^ 30 + reason % 16 * 2 ^ 24 + cause % 256 * 2 ^ 16 + count % 2 ^ 16) }))

/-- NMIN + NCAND of a climber (R276). -/
def sentCount (s : State) (core slot : Nat) : Nat :=
  let c10 := (s.creg core slot 10).toNat
  c10 % 256 + c10 / 256 % 16

/-- A climber whose operations have not all been answered ends at its next instruction (R390). -/
def endSoon (s : State) (core slot reason cause : Nat) : State :=
  placeAgain (s.updClimber core slot fun c => { c with failed := some (c.failed.getD (reason, cause)), await := .none }) core slot

/-- A climber ends with its final hand-over; with a bad anchor pointer nothing is sent and the fault count rises (R293). -/
def endClimber (s : State) (core slot : Nat) (fault : Bool) (reason cause : Nat) : State :=
  match handOver s core slot true fault reason cause (sentCount s core slot) with
  | some s => freeClimber s core slot
  | none => freeClimber (countFault s (s.clid core slot)) core slot

/-- A climber is ended with a fault, once its operations are answered (R298, R390). -/
def failClimber (s : State) (core slot reason cause : Nat) : State :=
  let c := s.climber core slot
  if c.ops.isEmpty && c.atms.isEmpty then endClimber s core slot true reason cause else endSoon s core slot reason cause

/-! Reports (R363). -/

/-- A fault report entry. -/
def reportBits (kind core wave cause reason g lid arg clk pc : Nat) : BitVec 512 :=
  BitVec.ofNat 512 (kind % 16 + wave % 16 * 2 ^ 12 + reason % 256 * 2 ^ 16 + cause % 256 * 2 ^ 24 + core % 2 ^ 27 * 2 ^ 37 +
    g % 2 ^ 32 * 2 ^ 64 + lid % 2 ^ 32 * 2 ^ 96 + arg % 2 ^ 64 * 2 ^ 128 + clk % 2 ^ 64 * 2 ^ 192 + pc % 2 ^ 32 * 2 ^ 288)

/-- An entry joins the queue of 1,024, or is lost and counted; vector 1 signals a queue that becomes non-empty. -/
def report (s : State) (e : BitVec 512) : State :=
  if 1024 ≤ s.reports.length then { s with reportsLost := s.reportsLost + 1 }
  else { s with reports := s.reports ++ [e], msix := if s.reports.isEmpty then s.msix ++ [1] else s.msix }

/-! Sealing a core (R349). -/

/-- The notice that returns to the sender. -/
def undeliverable (m : Msg) : Task := ⟨.undeliverableNotice, .msg m⟩

/-- The core is sealed: it stops, its inbox and channels seal, copies stop with CLASS 3, accepted or not (R129), its leases run to
their deadlines, its treelets leave, and the die's supervisor is called. Its subscriptions end as updates to them return (R103). -/
def sealCore (core : Nat) (s : State) : State :=
  if (s.core core).sealed then s
  else
    let s := s.updCore core fun c => { c with sealed := true, supervisor := none, active := [], placedQ := [], treelets := [] }
    let mine (c : CopyCmd) : Bool := c.src.core == core || sideOn s c 0 core || sideOn s c 1 core
    let hit := ((s.halls.map fun p => p.2.queue.filter mine)).flatten
    let stop (s : State) (c : CopyCmd) : State :=
      copyFault (dropLines c.id 0 s) c (bytesDone s c) 0 3 (if !sideOn s c 0 core && sideOn s c 1 core then 1 else 0)
    let early (t : Task) : Option CopyCmd := match t.op, t.arg with
      | .copyAccept, .copy c => if c.src.core = core then some c else none
      | _, _ => none
    let s := (hit ++ s.agenda.filterMap early).foldl stop { s with agenda := s.agenda.filter fun t => (early t).isNone }
    let waiting := ((s.groups.filter fun g => g.core == core).map fun g => match g.inst with
      | some n => n.waiters
      | none => []).flatten
    let s := s.postAll (waiting.map fun w => undeliverable { src := w.src, id := w.id, tgt := lsKey core 0, kind := 1 })
    let s := s.updCore core fun c => { c with turn := none, turnWait := [], accWait := [], mma := [] }
    let s := report s (reportBits 3 core 0 0x19 0 0 0 0 s.clk 0)
    s.post .supervisorPlace (.nums [coreDie core, core])

/-! Undeliverable messages (R151, R350). -/

/-- The message's target core is sealed, or out of service from the start (log 82). -/
def targetSealed (s : State) (m : Msg) : Bool := isLsKey m.tgt && s.outOfService (keyCore m.tgt)

/-- Local-store bytes hold an uncorrectable word (R166). -/
def lsBad (s : State) (k n : Nat) : Bool :=
  s.badLs.any fun p => p.2 == 2 && decide (p.1 * 32 < k + n) && decide (k < p.1 * 32 + 32)

/-- Correctable errors of the words read are repaired (R166). -/
def lsRepair (s : State) (k n : Nat) : State :=
  if s.badLs.isEmpty then s
  else { s with badLs := s.badLs.filter fun p => !(p.2 == 1 && decide (p.1 * 32 < k + n) && decide (k < p.1 * 32 + 32)) }

/-- Bank words overwritten whole lose their errors (R166). -/
def lsOverwrite (s : State) (k n : Nat) : State :=
  if s.badLs.isEmpty then s
  else { s with badLs := s.badLs.filter fun p => !(decide (k ≤ p.1 * 32) && decide (p.1 * 32 + 32 ≤ k + n)) }

/-- Bytes written into a local store. -/
def fillLs (s : State) (core off n v : Nat) : State := lsOverwrite (s.setLs core off n v) (lsKey core off) n

/-- The same for the bank words that scattered bytes cover whole. -/
def lsOverwriteCells (s : State) (cells : List Host.Cell) : State :=
  if s.badLs.isEmpty then s
  else { s with badLs := s.badLs.filter fun p => !(List.range 32).all fun i => cells.any fun c => c.1 == p.1 * 32 + i }

/-- An NI operation consumes the words at a key: an uncorrectable one seals the core, otherwise the operation goes on. -/
def niTouch (s : State) (k n : Nat) (go : State → State) : State :=
  if isLsKey k && lsBad s k n then sealCore (keyCore k) s else go (lsRepair s k n)

end Sys2Proof.Machine
end

