-- ==== Sys2Proof/Machine/Issue.lean ====
section
/-! DEFINITION. How an instruction issues and ends: the checks of R34 in their order, the lease block (R107, R108), deferred
causes (R81, R254), the scoreboard (R269), channels (R152-R154), and what retiring, trapping and waiting do. -/

namespace Sys2Proof.Machine

/-- How a meaning ends. -/
inductive Exec where
  /-- it retires and its split or climber continues at the next word -/
  | done (s : State)
  /-- it retires and has set where its split or climber continues -/
  | jump (s : State)
  /-- it retires with no active lane (R20) -/
  | idle (s : State)
  /-- it raises a precise cause with this FADDR -/
  | trap (cause : Nat) (faddr : DWord) (s : State)
  /-- it waits for a reason of R334 and tries again -/
  | wait (why : Nat) (s : State)
  /-- it consumed an uncorrectable word of local store (R166) -/
  | seal (s : State)

/-! The checks. -/

/-- The group of the issuing wave is paired. -/
def State.paired (s : State) : Bool :=
  match s.cur with
  | .wave _ _ _ => match s.curGroup with
    | some g => g.pair.isSome
    | none => false
  | _ => false

/-- Channel registers among a list of register groups. -/
def channelsOf (rs : List (Nat × Nat)) : List Nat := (rs.map (·.1)).filter isChannelNo

/-- The context part of check 2 (R32, R355). -/
def illegalHere (i : Instr) (sh : Shape) (s : State) : Bool :=
  if s.cur.isClimber then !climberMay sh.maj
  else !waveMay sh.maj || writesPredicate i ||
    (s.paired && ((decide (0x60 ≤ sh.maj) && decide (sh.maj ≤ 0x67)) || !(channelsOf (sh.srcs ++ sh.dsts)).isEmpty))

/-- A write of a system CSR (R330). -/
def writesSystemCsr : Instr → Bool
  | .csrWr _ n _ _ => csrSystem n
  | .csrSet _ n _ _ => csrSystem n
  | .csrClr _ n _ _ => csrSystem n
  | _ => false

/-- Check 3 (R33): MAJ 0x7C-0x7E and writes of system CSRs need privilege. -/
def needsPrivilege (i : Instr) (sh : Shape) : Bool :=
  (decide (0x7C ≤ sh.maj) && decide (sh.maj ≤ 0x7E)) || writesSystemCsr i

/-- Check 4 (R25, R27, R152). -/
def registersOk (sh : Shape) (s : State) : Bool :=
  if s.cur.isClimber then climberRegsOk sh
  else match s.curGroup with
    | some g => waveRegsOk g.regs g.chan sh
    | none => waveRegsOk 320 false sh

/-- Checks 2-4 of R34. -/
def checkWord (i : Instr) (sh : Shape) (s : State) : Option Exec :=
  if illegalHere i sh s then some (.trap 0x01 s.ir s)
  else if needsPrivilege i sh && !s.privileged then some (.trap 0x18 s.ir s)
  else if !registersOk sh s then some (.trap 0x03 s.ir s)
  else none

/-- A MATRIX_CHECK is counted; the sixteenth on a core is reported (R342, R363). -/
def noteMatrixCheck (core : Nat) (s : State) : State :=
  let n := (s.core core).mchk.toNat / 2 ^ 16 + 1
  let s := if n < 2 ^ 16 then s.updCore core fun c => { c with mchk := c.mchk + 0x10000 } else s
  if n = 16 then report s (reportBits 4 core 0 0x14 0 0 0 0 s.clk 0) else s

/-- MATRIX_CHECK at the next matrix instruction or `exit`; taking it clears the record (R254, R340). -/
def checkMatrix (sh : Shape) (s : State) : Option Exec :=
  if !s.cur.isClimber && ((decide (0x60 ≤ sh.maj) && decide (sh.maj ≤ 0x66)) || sh.maj == 0x75) &&
      s.dmValid s.cur.core s.cur.slot then
    some (.trap 0x14 (BitVec.ofNat 64 (s.dmr s.cur.core s.cur.slot)) (noteMatrixCheck s.cur.core (s.setDmr s.cur.core s.cur.slot 0)))
  else none

/-- A branch a lease block forbids (R107): its target at or below its address, or its lanes disagree. -/
def blockBranch (i : Instr) (s : State) : Bool :=
  match i with
  | .br g disp _ _ =>
    let m := activeMask s g
    disp.toInt ≤ 0 || !(m == 0 || m == s.curMask)
  | .turnTake _ => true
  | _ => false

/-- The wave's instructions are those of its lease block: a handler taken inside the block is not (R107). -/
def inBlock (w : Wave) : Bool := match w.block with
  | some b => !w.tm || b.handler
  | none => false

/-- The lease block of R107, R108: 1 forbidden before 0 count before 2 time; the instructions of a handler taken inside it
and one that has issued and waits for its answer are exempt. -/
def checkBlock (i : Instr) (sh : Shape) (s : State) : Option Exec :=
  if s.cur.isClimber then none
  else
    let w := s.curWave
    match w.block with
    | none => none
    | some b =>
      if !inBlock w || s.curSplit.await != .none then none
      else if blockForbids i sh.maj || blockBranch i s || !(channelsOf sh.srcs).isEmpty then some (.trap 0x0F 1 s)
      else if decide (64 ≤ b.count) && sh.maj != 0x49 then some (.trap 0x0F 0 s)
      else if w.leases.any (fun l => l.live && s.reached l.abort) then some (.trap 0x0F 2 s)
      else none

/-- A register of the split's lanes left unwritten by a failed `atm` is read (R81). -/
def checkFailed (sh : Shape) (s : State) : Option Exec :=
  if s.cur.isClimber then none
  else if s.dfValid s.cur.core s.cur.slot &&
      s.curWave.failed.any (fun k => readsReg sh k && s.curMask.getLsbD (k % 32)) then
    let r := s.dfr s.cur.core s.cur.slot
    some (.trap (dfrCause r) (dfrAddr r) s)
  else none

/-- The registers still waiting for `atm` results. -/
def State.pending (s : State) : List Nat :=
  realRegs (if s.cur.isClimber then (s.curClimber.atms.map (·.pending)).flatten else (s.curWave.atms.map (·.pending)).flatten)

/-- A register of an `atm` with a lane whose result has not come is named, whichever split names it (R269). -/
def checkScoreboard (sh : Shape) (s : State) : Option Exec :=
  if s.pending.any (namesReg sh ·) then some (.wait 5 s) else none

/-- The channel operands (R152-R154): the neighbour in the frame, the seal, a word for each source, a credit for each
destination. -/
def checkChannels (sh : Shape) (s : State) : Option Exec :=
  let ins := channelsOf sh.srcs
  let outs := channelsOf sh.dsts
  let sealedPeer (r : Nat) : Bool := match channelPeer s r with
    | some p => (s.core p).sealed
    | none => false
  let c (r : Nat) : Channel := s.chan s.curCore (r - 320)
  match (ins ++ outs).find? (fun r => (channelPeer s r).isNone) with
  | some r => some (.trap 0x17 (BitVec.ofNat 64 r) s)
  | none =>
    match ins.find? (fun r => sealedPeer r && (c r).words.isEmpty && (takenWord? s r).isNone && !(c r).readTrapped) with
    | some r => some (.trap 0x1A (BitVec.ofNat 64 r) (s.setChan s.curCore (r - 320) { c r with readTrapped := true }))
    | none =>
      match outs.find? (fun r => sealedPeer r && !(c r).writeTrapped) with
      | some r => some (.trap 0x1A (BitVec.ofNat 64 r) (s.setChan s.curCore (r - 320) { c r with writeTrapped := true }))
      | none =>
        if ins.any (fun r => (c r).words.isEmpty && (takenWord? s r).isNone && !sealedPeer r) then some (.wait 16 s)
        else if outs.any (fun r => (c r).credits == 0 && !sealedPeer r) then some (.wait 13 s)
        else none

/-- Forms that need every lane of the wave, guard included, and so trap where none passes it (R251, R327). -/
def needsEveryLane (i : Instr) (maj : Nat) : Bool :=
  match i with
  | .mma _ _ _ _ zi _ _ _ _ => !zi
  | _ => maj == 0x5A

/-- An instruction whose lanes all fail its guard; the control forms read their guard themselves (R20, R203). -/
def checkLanes (i : Instr) (sh : Shape) (s : State) : Option Exec :=
  if !isControl sh.maj && !needsEveryLane i sh.maj && activeMask s sh.guard == 0 then some (.idle s) else none

/-- What keeps an instruction from its own effect, if anything does. -/
def hold (i : Instr) (s : State) : Option Exec :=
  match shapeOf i with
  | none => none
  | some sh =>
    match checkWord i sh s with
    | some e => some e
    | none => match checkMatrix sh s with
      | some e => some e
      | none => match checkBlock i sh s with
        | some e => some e
        | none => match checkFailed sh s with
          | some e => some e
          | none => match checkScoreboard sh s with
            | some e => some e
            | none => match checkLanes i sh s with
              | some e => some e
              | none => checkChannels sh s

/-! Retiring, waiting and trapping. -/

/-- An instruction that waits has consumed the oldest word of each source channel, and keeps it (R29): no other split reads it. -/
def keepWords (sh : Shape) (s : State) : State :=
  (channelsOf sh.srcs).foldl (fun s r =>
    match takenWord? s r, (s.chan s.curCore (r - 320)).words with
    | none, w :: ws =>
      (s.setChan s.curCore (r - 320) { s.chan s.curCore (r - 320) with words := ws }).updCurSplit fun p => { p with taken := p.taken ++ [(r, w)] }
    | _, _ => s) s

/-- The credit of a consumed word returns to its sender (R152). -/
def returnCredit (r : Nat) (s : State) : State :=
  match channelPeer s r with
  | some p => s.post .channelCreditReturn (.nums [p, oppositeChannel (r - 320)])
  | none => s

/-- The oldest word of each source channel is consumed, where none was before, and its credit returns to the sender (R152, R153). -/
def popChannels (sh : Shape) (s : State) : State :=
  if (channelsOf sh.srcs).isEmpty then s
  else
    let s := keepWords sh s
    (s.curSplit.taken.map (·.1)).foldl (fun s r => returnCredit r s) (s.updCurSplit fun p => { p with taken := [] })

/-- The words that a split's instruction consumed and does not use stand in their channels again, oldest first: it traps, or is
abandoned (R34, R343). -/
def giveBack (core slot p : Nat) (s : State) : State :=
  let ts := ((s.wave core slot).splits.getD p {}).taken
  if ts.isEmpty then s
  else ts.foldl (fun s (q : Nat × BitVec 1024) =>
      s.setChan core (q.1 - 320) { s.chan core (q.1 - 320) with words := q.2 :: (s.chan core (q.1 - 320)).words })
    (s.updSplit core slot p fun p => { p with taken := [] })

/-- A read of `clklo` latches the high word of `clk` for `clkhi` (R12, R26). -/
def latchClk (sh : Shape) (s : State) : State :=
  if sh.srcs.any (fun r => r.1 == 359) then
    (let h := BitVec.ofNat 32 (s.clk / 2 ^ 32)
     if s.cur.isClimber then s.updCurClimber fun c => { c with clkLatch := some h }
     else s.updCurWave fun w => { w with clkLatch := some h })
  else s

/-- An instruction of an open lease block is counted, `lrel` and the outermost `lease` apart; one that no lane passes the guard of is
no outermost `lease` (R107). -/
def countBlock (sh : Shape) (ran : Bool) (s : State) : State :=
  match s.cur with
  | .wave _ _ p =>
    match s.curWave.block with
    | some b =>
      if p == b.split && sh.maj != 0x49 && !(ran && sh.maj == 0x48 && s.curWave.leases.length == 1) then
        s.updCurWave fun w => { w with block := some { b with count := b.count + 1 } }
      else s
    | none => s
  | _ => s

/-- An instruction of a paired group is counted in its interval, and the wave stops at FPINT (R354). -/
def countPair (s : State) : State :=
  if s.paired then
    s.updCurWave fun w => { w with retired := w.retired + 1
                                   stopped := w.stopped || decide ((s.core s.curCore).fpint.toNat ≤ w.retired + 1) }
  else s

/-- A split that a structural stall holds: it is ready, and has not issued (R313, R334). -/
def Park.held : Park → Bool
  | .waiting why => decide (why ≤ 4)
  | _ => false

/-- The split or climber goes on at `pc`: it has issued, or becomes ready, now. -/
def continueAt (pc : Word) (s : State) : State :=
  match s.cur with
  | .climber c k => (s.setCpc c k pc).updCurClimber fun v => { v with await := .none }
  | .wave c _ _ => s.updCurSplit fun p => { p with
      pc := pc, park := .running, await := .none, stamp := s.clk, issued := if p.park.held then (s.core c).cycles else p.issued }
  | .none => s

/-- The bookkeeping of an instruction that retires; `opened`: it issued in a lease block and outside a handler;
`ran`: some lane passed its guard. -/
def retire (sh : Shape) (opened ran : Bool) (s : State) : State := countPair (if opened then countBlock sh ran s else s)

/-- A precise cause of the issuing split or climber (R298, R336, R338). -/
def raiseCause (cause : Nat) (faddr : DWord) (s : State) : State :=
  match s.cur with
  | .climber c k => failClimber s c k 3 cause
  | .wave c w p => takeTrap c w p s.tvec cause faddr (if cause = 0x12 then s.curPc + 8 else s.curPc) (giveBack c w p s)
  | .none => s

/-- The split waits in a blocking instruction for reason `why`; the first such issue is remembered. One held by a structural stall has
not issued (R313). -/
def park (why : Nat) (s : State) : State :=
  match s.cur with
  | .wave _ _ _ => s.updCurSplit fun p =>
      match p.park with
      | .waiting _ => { p with park := .waiting why }
      | _ =>
        if why ≤ 4 then { p with park := .waiting why, began := s.clk, stamp := p.was.1, issued := p.was.2 }
        else { p with park := .waiting why, began := s.clk }
  | _ => s

/-- The state after an instruction. -/
def finish (i : Instr) (s : State) (e : Exec) : State :=
  match shapeOf i with
  | none => s
  | some sh =>
    let opened := inBlock s.curWave
    match e with
    | .done t => retire sh opened true (continueAt (t.curPc + 8) (latchClk sh (popChannels sh t)))
    | .jump t => retire sh opened true (latchClk sh (popChannels sh t))
    | .idle t => retire sh opened false (continueAt (t.curPc + 8) t)
    | .trap cause faddr t => raiseCause cause faddr t
    | .wait why t => park why (if (hold i s).isNone then keepWords sh t else t)
    | .seal t => sealCore t.curCore t

/-- An instruction issued: what holds it, or its effect. -/
def issue (i : Instr) (body : State → Exec) (s : State) : Host.Outcome State Fault Refusal :=
  match s.cur with
  | .none => .fault .noIssuer
  | _ => .next (finish i s (match hold i s with
    | some e => e
    | none => body s))

/-! Shared shapes of a meaning. -/

/-- Each active lane of D receives `f` of the lane. -/
def lanewise (i : Instr) (g : Guard) (d : RegNo) (f : State → Nat → Word) (s : State) : Host.Outcome State Fault Refusal :=
  issue i (fun s => .done (putLanes s (active s g) d.toNat (f s))) s

/-- The same into a register pair. -/
def lanewise64 (i : Instr) (g : Guard) (d : RegNo) (f : State → Nat → DWord) (s : State) :
    Host.Outcome State Fault Refusal :=
  issue i (fun s => .done (putLanes64 s (active s g) d.toNat (f s))) s

/-- Each active lane of D receives a value and the lanes' flags enter FSTAT (R64). -/
def lanewiseF (i : Instr) (g : Guard) (d : RegNo) (f : State → Nat → Word × Flags) (s : State) :
    Host.Outcome State Fault Refusal :=
  issue i (fun s =>
    let ls := active s g
    .done (raise (putLanes s ls d.toNat fun l => (f s l).1) (Flags.all (ls.map fun l => (f s l).2)))) s

end Sys2Proof.Machine
end

