-- ==== Sys2Proof/Machine/Alu.lean ====
section
/-! DEFINITION. Integer, bit and byte functions of one lane (R179-R193), shared by the register, immediate and pair forms. -/

namespace Sys2Proof.Machine

/-- Clamped to i32 and to n32 (R3). -/
def satI32 (x : Int) : Word := BitVec.ofInt 32 (max (-(2 ^ 31)) (min x (2 ^ 31 - 1)))
def satN32 (x : Int) : Word := BitVec.ofInt 32 (max 0 (min x (2 ^ 32 - 1)))

/-- zext64(a) + zext64(b) + c[0]. -/
def sumCarry (a b c : Word) : Nat := a.toNat + b.toNat + c.toNat % 2

def minI (a b : Word) : Word := if a.sle b then a else b
def maxI (a b : Word) : Word := if a.sle b then b else a
def minN (a b : Word) : Word := if a.ule b then a else b
def maxN (a b : Word) : Word := if a.ule b then b else a

def absW (a : Word) : Word := if a.msb then -a else a

def sadI (a b c : Word) : Word := BitVec.ofNat 32 ((a.toInt - b.toInt).natAbs + c.toNat)
def sadN (a b c : Word) : Word := BitVec.ofNat 32 (absDiff a.toNat b.toNat + c.toNat)

/-- Bit `i` of the result is the truth table's bit 4 A[i] + 2 B[i] + C[i] (R182). -/
def lop3W (tt : BitVec 8) (a b c : Word) : Word :=
  maskOf fun i => tt.getLsbD (4 * (a.getLsbD i).toNat + 2 * (b.getLsbD i).toNat + (c.getLsbD i).toNat)

/-- Shifts by a full n32 count (R184). -/
def shlW (a b : Word) : Word := if 32 ≤ b.toNat then 0 else a <<< b.toNat
def shrW (a b : Word) : Word := if 32 ≤ b.toNat then 0 else a >>> b.toNat
def sraW (a b : Word) : Word := a.sshiftRight (min b.toNat 32)

def rolW (a b : Word) : Word := a.rotateLeft (b.toNat % 32)
def rorW (a b : Word) : Word := a.rotateRight (b.toNat % 32)
def fslW (a b c : Word) : Word := (((a ++ b) <<< (c.toNat % 32)) >>> 32).setWidth 32
def fsrW (a b c : Word) : Word := ((a ++ b) >>> (c.toNat % 32)).setWidth 32

def popcW (a : Word) : Nat := ((List.range 32).filter fun i => a.getLsbD i).length
def clzW (a : Word) : Nat := ((List.range 32).find? fun i => a.getLsbD (31 - i)).getD 32
def ctzW (a : Word) : Nat := ((List.range 32).find? fun i => a.getLsbD i).getD 32
def brevW (a : Word) : Word := maskOf fun i => a.getLsbD (31 - i)

/-- pos and len of a field operand (R185). -/
def fieldPos (c : Word) : Nat := c.toNat % 32
def fieldLen (c : Word) : Nat := min (c.toNat / 256 % 64) 32

def bfxN (a c : Word) : Word := maskOf fun i => decide (i < fieldLen c) && a.getLsbD (fieldPos c + i)

def bfxI (a c : Word) : Word :=
  let ext (i : Nat) : Bool := if fieldPos c + i ≤ 31 then a.getLsbD (fieldPos c + i) else a.msb
  maskOf fun i => if fieldLen c = 0 then false else if i < fieldLen c then ext i else ext (fieldLen c - 1)

def bfiW (a b c : Word) : Word :=
  maskOf fun i => if fieldPos c ≤ i && decide (i - fieldPos c < fieldLen c) then b.getLsbD (i - fieldPos c) else a.getLsbD i

def bil2W (a b : Word) : Word := maskOf fun i => if i % 2 = 1 then a.getLsbD (i / 2) else b.getLsbD (i / 2)
def bil3W (a b c : Word) : Word :=
  maskOf fun i => decide (i < 30) &&
    (if i % 3 = 2 then a.getLsbD (i / 3) else if i % 3 = 1 then b.getLsbD (i / 3) else c.getLsbD (i / 3))
def bdl3W (a b : Word) : Word :=
  maskOf fun i => decide (i < 10) && decide (b.toNat % 4 ≤ 2) && a.getLsbD (3 * i + 2 - b.toNat % 4)
def bdl2W (a b : Word) : Word := maskOf fun i => decide (i < 16) && a.getLsbD (2 * i + 1 - b.toNat % 2)

/-- All ones or zero. -/
def boolW (b : Bool) : Word := if b then 0xFFFFFFFF else 0

/-- A condition of R187. -/
def condHolds (c : Cond) (a b : Word) : Bool :=
  match c with
  | .eq => a == b
  | .ne => a != b
  | .ltI => a.slt b
  | .leI => a.sle b
  | .gtI => b.slt a
  | .geI => b.sle a
  | .ltN => a.ult b
  | .leN => a.ule b
  | .gtN => b.ult a
  | .geN => b.ule a

/-- Combination of a compare with C (R187). -/
def combW (k : Comb) (v c : Word) : Word :=
  match k with
  | .none => v
  | .and => v &&& c
  | .or => v ||| c
  | .xor => v ^^^ c

def combB (k : Comb) (t q : Bool) : Bool :=
  match k with
  | .none => t
  | .and => t && q
  | .or => t || q
  | .xor => t != q

/-- Byte `k` of a word. -/
def byteW (a : Word) (k : Nat) : Nat := a.toNat / 2 ^ (8 * k) % 256

/-- `prm` (R189). -/
def prmW (a b c : Word) : Word :=
  let source (n : Nat) : Nat := if n < 4 then byteW a n else byteW b (n - 4)
  let pick (k : Nat) : Nat :=
    let n := c.toNat / 2 ^ (4 * k) % 16
    if 8 ≤ n then (if 128 ≤ source (n - 8) then 255 else 0) else source n
  BitVec.ofNat 32 (pick 0 + pick 1 * 2 ^ 8 + pick 2 * 2 ^ 16 + pick 3 * 2 ^ 24)

def bswpW (a : Word) : Word := BitVec.ofNat 32 (byteW a 3 + byteW a 2 * 2 ^ 8 + byteW a 1 * 2 ^ 16 + byteW a 0 * 2 ^ 24)

/-- Division (R190). -/
def divI (a b : Word) : Word :=
  if b = 0 then (if a.msb then 0x80000000 else 0x7FFFFFFF) else BitVec.ofInt 32 (a.toInt.tdiv b.toInt)
def divN (a b : Word) : Word := if b = 0 then 0xFFFFFFFF else a / b
def remI (a b : Word) : Word := if b = 0 then a else BitVec.ofInt 32 (a.toInt.tmod b.toInt)
def remN (a b : Word) : Word := if b = 0 then a else a % b

/-- Exact products. -/
def mulwI (a b : Word) : DWord := BitVec.ofInt 64 (a.toInt * b.toInt)
def mulwN (a b : Word) : DWord := BitVec.ofNat 64 (a.toNat * b.toNat)

/-- The second operand of a pair slot for a lane: a register, or the immediate sign-extended (R22). -/
def slotB (s : State) (p : PairSlot) (l : Nat) : Word := if p.imm then p.b.signExtend 32 else src s p.b.toNat l

/-- The same for the float slots: the f32 value of the integer immediate, which is exact. -/
def slotF (s : State) (p : PairSlot) (l : Nat) : Word :=
  if p.imm then BitVec.ofNat 32 (f32OfInt p.b.toInt).1 else src s p.b.toNat l

/-- f32 multiplication rounded to nearest even. -/
def f32Mul (a b : Word) : Word × Flags :=
  let r := FFmt.f32.finish .rn ((f32 a).mul (f32 b))
  (BitVec.ofNat 32 r.1, r.2)

/-- A slot of a pair word: its result and flags for a lane (R22). -/
def slotResult (s : State) (p : PairSlot) (l : Nat) : Word × Flags :=
  let x := src s p.d.toNat l
  let y := slotB s p l
  match p.op with
  | .add => (x + y, 0)
  | .sub => (x - y, 0)
  | .and => (x &&& y, 0)
  | .or => (x ||| y, 0)
  | .xor => (x ^^^ y, 0)
  | .shl => (shlW x y, 0)
  | .shr => (shrW x y, 0)
  | .sra => (sraW x y, 0)
  | .minI => (minI x y, 0)
  | .maxI => (maxI x y, 0)
  | .minN => (minN x y, 0)
  | .maxN => (maxN x y, 0)
  | .mov => (y, 0)
  | .fadd => f32Add x (slotF s p l)
  | .fmul => f32Mul x (slotF s p l)
  | .fmin => (BitVec.ofNat 32 (FFmt.f32.minNum x.toNat (slotF s p l).toNat), 0)
  | .fmax => (BitVec.ofNat 32 (FFmt.f32.maxNum x.toNat (slotF s p l).toNat), 0)

/-! Pointers (R195-R197). -/

/-- The check of R195: the cause a pointer raises, `physical` allowing kind 10. -/
def mptrCause (s : State) (physical : Bool) (p : DWord) : Option Nat :=
  if ptrKind p = 3 || ptrKind p = 0 then some 0x17
  else if ptrKind p = 2 && !s.privileged then some 0x18
  else if ptrKind p = 2 && !physical then some 0x17
  else if ptrMid p ≠ 0 then some 0x17
  else if ptrKind p = 2 && !coreExists (ptrCore p) then some 0x17
  else none

/-- The lowest lane whose check fails raises its cause with the value it was given. -/
def trapLanes (s : State) (ls : List Nat) (f : Nat → Option (Nat × DWord)) (go : Exec) : Exec :=
  match ls.findSome? f with
  | some (c, p) => .trap c p s
  | none => go

/-- A form of R197 that reads a pointer. -/
def pointerForm (i : Instr) (g : Guard) (a : RegNo) (physical : Bool) (body : State → List Nat → State) (s : State) :
    Host.Outcome State Fault Refusal :=
  issue i (fun s =>
    let ls := active s g
    trapLanes s ls (fun l => (mptrCause s physical (src64 s a.toNat l)).map fun c => (c, src64 s a.toNat l))
      (.done (body s ls))) s

/-- The rectangle of IFW and IFH: W, X0, H, Y0 (R194); a climber takes one core. -/
def rectangle (s : State) : Nat × Nat × Nat × Nat :=
  match s.curGroup with
  | some g => (g.ifw.toNat / 256 % 64, g.ifw.toNat % 32, g.ifh.toNat / 256 % 32, g.ifh.toNat % 32)
  | none => (1, 0, 1, 0)

/-- A pointer advanced by a count over a rectangle of W by H cores from (X0, Y0), in chunks of 2^g bytes (R196). -/
def advance (w x0 h y0 g : Nat) (p : DWord) (n : Int) : DWord :=
  let x := p.toNat / 2 ^ 40 % 32
  let y := p.toNat / 2 ^ 35 % 32
  let off := ptrOff p
  let at_ := ((off / 2 ^ g) * h * w + (y - y0) * w + (x - x0)) * 2 ^ g + off % 2 ^ g
  let n := (((at_ : Int) + n) % ((2 ^ 22 * w * h : Nat) : Int)).toNat
  let q := n / 2 ^ g
  let hi := q / (w * h)
  BitVec.ofNat 64 (p.toNat / 2 ^ 45 * 2 ^ 45 + (x0 + q % w) * 2 ^ 40 + (y0 + q / w % h) * 2 ^ 35 + ptrMid p * 2 ^ 22 +
    (hi * 2 ^ g + n % 2 ^ g))

/-- `mpadd` of one lane: the new pointer, or none when the core lies outside the rectangle (R196). -/
def mpaddLane (s : State) (g : Nat) (p : DWord) (n : Int) : Option DWord :=
  let x := p.toNat / 2 ^ 40 % 32
  let y := p.toNat / 2 ^ 35 % 32
  if s.cur.isClimber then some (advance 1 x 1 y g p n)
  else
    let (w, x0, h, y0) := rectangle s
    if x < x0 || x0 + w ≤ x || y < y0 || y0 + h ≤ y then none else some (advance w x0 h y0 g p n)

/-- The pointer `mpmk` builds, reserved bits included (R197). -/
def madePointer (a b : Word) : DWord :=
  (BitVec.ofNat 64 (a.toNat * 2 ^ 35) ||| b.setWidth 64) ||| BitVec.ofNat 64 (2 ^ 62)

end Sys2Proof.Machine
end

