-- ==== Sys2Proof/Machine/FloatAlu.lean ====
section
/-! DEFINITION. Float, packed, dot, conversion and quantisation functions of one lane (R47-R58, R221-R233). -/

namespace Sys2Proof.Machine

def wordOf (r : Nat × Flags) : Word × Flags := (BitVec.ofNat 32 r.1, r.2)

/-! FADD, FMUL and FFMA (R221, R222). -/

/-- An operand with its source modifiers (R53): absolute value, then negation. -/
def modified (v : Word) (abs neg : Bool) : Word :=
  let m := if abs then v &&& 0x7FFFFFFF else v
  if neg then m ^^^ 0x80000000 else m

/-- A and B as MOD has them read, subnormals flushed where MOD[2] says. -/
def readF (md : BitVec 8) (v : Word) : Word := if md.getLsbD 2 then BitVec.ofNat 32 (FFmt.f32.flush v.toNat) else v
def readA (md : BitVec 8) (v : Word) : FVal := f32 (readF md (modified v (md.getLsbD 5) (md.getLsbD 4)))
def readB (md : BitVec 8) (v : Word) : FVal := f32 (readF md (modified v (md.getLsbD 7) (md.getLsbD 6)))
def readC (md : BitVec 8) (v : Word) : FVal := f32 (readF md v)

def modRound (md : BitVec 8) : RMode := RMode.ofCode (md.toNat % 4)

/-- The rounded result, with a tiny one flushed where MOD[2] says (R51). -/
def finishMod (md : BitVec 8) (v : Exact) : Nat × Flags :=
  match v.val with
  | .fin n m e =>
    if m ≠ 0 && md.getLsbD 2 && (FFmt.f32.round (modRound md) n m e false).tiny then
      (FFmt.f32.sign n 0, Flags.uf ||| Flags.nx)
    else FFmt.f32.finish (modRound md) v
  | _ => FFmt.f32.finish (modRound md) v

/-- The clamp of MOD[3] (R52). -/
def clampUnit (bits : Nat) : Nat :=
  let v := FFmt.f32.val bits
  if v.isNan || v.neg || v.isZero then 0 else if (FFmt.f32.val 0x3F800000).lt v then 0x3F800000 else bits

def resultMod (md : BitVec 8) (v : Exact) : Word × Flags :=
  let r := finishMod md v
  wordOf (if md.getLsbD 3 then clampUnit r.1 else r.1, r.2)

def faddW (md : BitVec 8) (a b : Word) : Word × Flags := resultMod md (FVal.sum (modRound md) [readA md a, readB md b])
def fsubW (md : BitVec 8) (a b : Word) : Word × Flags :=
  resultMod md (FVal.sum (modRound md) [readA md a, (readB md b).negate])
def fmulW (md : BitVec 8) (a b : Word) : Word × Flags := resultMod md ((readA md a).mul (readB md b))

/-- ±(a × b) ± c with one rounding; ∞ × 0 is invalid even when C is NaN. -/
def fmaExact (mode : RMode) (a b c : FVal) (negP negC : Bool) : Exact :=
  let p := a.mul b
  if p.nv then p
  else FVal.sum mode [if negP then p.val.negate else p.val, if negC then c.negate else c]

def ffmaW (md : BitVec 8) (negP negC : Bool) (a b c : Word) : Word × Flags :=
  resultMod md (fmaExact (modRound md) (readA md a) (readB md b) (readC md c) negP negC)

/-! Minimum, maximum, compares (R223, R224). -/

def fminW (a b : Word) : Word := BitVec.ofNat 32 (FFmt.f32.minNum a.toNat b.toNat)
def fmaxW (a b : Word) : Word := BitVec.ofNat 32 (FFmt.f32.maxNum a.toNat b.toNat)
def eitherNan (a b : Word) : Bool := (f32 a).isNan || (f32 b).isNan
def fminpW (a b : Word) : Word := if eitherNan a b then 0x7FC00000 else fminW a b
def fmaxpW (a b : Word) : Word := if eitherNan a b then 0x7FC00000 else fmaxW a b

def fcondHolds (c : FCond) (a b : Word) : Bool :=
  match c with
  | .eq => (f32 a).eq (f32 b)
  | .ne => !(f32 a).eq (f32 b)
  | .lt => (f32 a).lt (f32 b)
  | .le => (f32 a).lt (f32 b) || (f32 a).eq (f32 b)
  | .gt => (f32 b).lt (f32 a)
  | .ge => (f32 b).lt (f32 a) || (f32 a).eq (f32 b)
  | .un => eitherNan a b
  | .ord => !eitherNan a b

/-! FMISC (R227). -/

def fclsW (a : Word) : Word :=
  let mag := a.toNat % 2 ^ 31
  let k := if 0x7F800000 < mag then 8
    else if mag = 0x7F800000 then (if a.msb then 0 else 7)
    else if mag = 0 then (if a.msb then 3 else 4)
    else if mag < 0x00800000 then (if a.msb then 2 else 5)
    else if a.msb then 1 else 6
  BitVec.ofNat 32 (2 ^ k)

/-- A value scaled by 2^k exactly; beyond ±1,000 every result is the same. -/
def FVal.scale (v : FVal) (k : Int) : FVal :=
  match v with
  | .fin n m e => .fin n m (e + max (-1000) (min k 1000))
  | _ => v

def fsclW (a b : Word) : Word × Flags := wordOf (FFmt.f32.finish .rn ⟨(f32 a).scale b.toInt, false⟩)

def frintW (mode : RMode) (a : Word) : Word :=
  match f32 a with
  | .nan => 0x7FC00000
  | .inf _ => a
  | .fin n m e =>
    let t := (FVal.toInt mode n m e).1.natAbs
    BitVec.ofNat 32 (FFmt.f32.finish .rn ⟨.fin n t 0, false⟩).1

def ffracW (a : Word) : Word × Flags :=
  match f32 a with
  | .nan => (0x7FC00000, 0)
  | .inf _ => (0x7FC00000, .nv)
  | .fin n m e =>
    let floor := (FVal.toInt .rd n m e).1
    let low := min e 0
    let x := (FVal.fin n m e).at low - floor * (2 ^ (-low).toNat : Nat)
    let r := FFmt.f32.finish .rn ⟨.fin false x.natAbs low, false⟩
    (if r.1 = 0x3F800000 then 0x3F7FFFFF else BitVec.ofNat 32 r.1, r.2 &&& .nx)

def fcpsgnW (a b : Word) : Word := (a &&& 0x7FFFFFFF) ||| (b &&& 0x80000000)

/-! Packed halves (R228) and dot products (R229). -/

def half (a : Word) (k : Nat) : Nat := a.toNat / 2 ^ (16 * k) % 2 ^ 16

def halfFmt (bf : Bool) : FFmt := if bf then .bf16 else .f16

/-- Both elements of a packed operation. -/
def halves (f : Nat → Nat × Flags) : Word × Flags :=
  (BitVec.ofNat 32 ((f 0).1 + (f 1).1 * 2 ^ 16), (f 0).2 ||| (f 1).2)

def haddW (bf : Bool) (a b : Word) : Word × Flags :=
  let f := halfFmt bf
  halves fun k => f.finish .rn (FVal.sum .rn [f.val (half a k), f.val (half b k)])
def hsubW (bf : Bool) (a b : Word) : Word × Flags :=
  let f := halfFmt bf
  halves fun k => f.finish .rn (FVal.sum .rn [f.val (half a k), (f.val (half b k)).negate])
def hmulW (bf : Bool) (a b : Word) : Word × Flags :=
  let f := halfFmt bf
  halves fun k => f.finish .rn ((f.val (half a k)).mul (f.val (half b k)))
/-- `hfma`: ∞ × 0 raises NV even when C is NaN, as R222 says of `ffma` (log 85). -/
def hfmaW (bf : Bool) (a b c : Word) : Word × Flags :=
  let f := halfFmt bf
  halves fun k => f.finish .rn (fmaExact .rn (f.val (half a k)) (f.val (half b k)) (f.val (half c k)) false false)
def hminW (bf : Bool) (a b : Word) : Word := (halves fun k => ((halfFmt bf).minNum (half a k) (half b k), 0)).1
def hmaxW (bf : Bool) (a b : Word) : Word := (halves fun k => ((halfFmt bf).maxNum (half a k) (half b k), 0)).1

/-- Element `k` of `n` bits. -/
def elemOf (a : Word) (n k : Nat) : Nat := a.toNat / 2 ^ (n * k) % 2 ^ n

/-- An `n`-bit field as two's complement. -/
def signedOf (n v : Nat) : Int := if 2 ^ (n - 1) ≤ v then (v : Int) - (2 ^ n : Nat) else v

/-- Products of elements with a float format, plus C, rounded once (R58). A product ∞ × 0 raises NV whatever the other elements and C
are, which is the model's choice (log 85). -/
def dotF (f : FFmt) (n k : Nat) (a b c : Word) : Word × Flags :=
  let ps := (List.range k).map fun i => (f.val (elemOf a n i)).mul (f.val (elemOf b n i))
  let t := FVal.sum .rn (ps.map (·.val) ++ [f32 c])
  wordOf (FFmt.f32.finish .rn (if ps.any (·.nv) then ⟨.nan, true⟩ else t))

/-- Integer elements summed with C, wrapping. -/
def dotI (n k : Nat) (v : Nat → Int) (a b c : Word) : Word :=
  BitVec.ofInt 32 (((List.range k).map fun i => v (elemOf a n i) * v (elemOf b n i)).foldl (· + ·) c.toInt)

def dotW (fmt : DotFmt) (a b c : Word) : Word × Flags :=
  match fmt with
  | .bf16 => dotF .bf16 16 2 a b c
  | .f16 => dotF .f16 16 2 a b c
  | .i8 => (dotI 8 4 (signedOf 8) a b c, 0)
  | .n8 => (dotI 8 4 (fun v => v) a b c, 0)
  | .e4m3 => dotF .e4m3 8 4 a b c
  | .e5m2 => dotF .e5m2 8 4 a b c
  | .i4 => (dotI 4 8 (signedOf 4) a b c, 0)
  | .n4 => (dotI 4 8 (fun v => v) a b c, 0)
  | .e2m1 => dotF .e2m1 4 8 a b c

/-! Conversions (R230). -/

def cvtW (code idx : Nat) (a b : Word) : Word × Flags :=
  let ints (r : Int × Flags) : Word × Flags := (BitVec.ofInt 32 r.1, r.2)
  let pack (f : FFmt) : Word × Flags :=
    let x := f.convert (f32 a)
    let y := f.convert (f32 b)
    (BitVec.ofNat 32 (x.1 + y.1 * 2 ^ 16), x.2 ||| y.2)
  if code = 0 then wordOf (f32OfInt a.toInt)
  else if code = 1 then wordOf (f32OfInt a.toNat)
  else if code = 2 then ints (FVal.clampInt .rz (-(2 ^ 31)) (2 ^ 31 - 1) (f32 a))
  else if code = 3 then ints (FVal.clampInt .rz 0 (2 ^ 32 - 1) (f32 a))
  else if code = 4 then wordOf (FFmt.f16.convert (f32 a))
  else if code = 5 then (widen .f16 (half a 0), 0)
  else if code = 6 then wordOf (FFmt.bf16.convert (f32 a))
  else if code = 7 then (widen .bf16 (half a 0), 0)
  else if code = 8 then pack .f16
  else if code = 9 then pack .bf16
  else if code < 14 then (widen .e4m3 (elemOf a 8 (code - 10)), 0)
  else if code < 18 then (widen .e5m2 (elemOf a 8 (code - 14)), 0)
  else if code < 26 then (widen .e2m1 (elemOf a 4 (code - 18)), 0)
  else wordOf (f32OfInt (signedOf 8 (elemOf a 8 idx)))

/-! Shared scales (R231-R233). -/

/-- Bits of an element. -/
def qBits (f : QFmt) : Nat := match f with
  | .e2m1 => 4
  | _ => 8

/-- An element's float format; i8 has none. -/
def qFloat (f : QFmt) : Option FFmt := match f with
  | .e4m3 => some .e4m3
  | .e5m2 => some .e5m2
  | .e2m1 => some .e2m1
  | .i8 => none

/-- One element quantised under scale code X (R231). -/
def quantise (f : QFmt) (x : Nat) (v : Word) : Nat × Flags :=
  if x = 0xFF then
    match f with
    | .e4m3 => (0x7F, 0)
    | .e5m2 => (0x7E, 0)
    | .e2m1 => (0, Flags.nanz ||| Flags.nv)
    | .i8 => (0, Flags.nanz ||| Flags.nv)
  else
    let s := (f32 v).scale (127 - (x : Int))
    match qFloat f with
    | some t => t.convert s
    | none =>
      let r := FVal.clampInt .rn (-128) 127 s
      ((BitVec.ofInt 8 r.1).toNat, r.2)

/-- `qpk` of the values of a group (R231). -/
def qpkW (f : QFmt) (x : Nat) (v : Nat → Word) : Word × Flags :=
  let qs := (List.range f.count).map fun k => (quantise f x (v k), k)
  (BitVec.ofNat 32 (qs.foldl (fun acc q => acc + q.1.1 * 2 ^ (qBits f * q.2)) 0), Flags.all (qs.map fun q => q.1.2))

/-- Element `k` unpacked under scale code X (R232). Every subnormal result is exact, so R63 raises neither UF nor NX there
(log 75). -/
def unquantise (f : QFmt) (x : Nat) (a : Word) (k : Nat) : Word × Flags :=
  let e := elemOf a (qBits f) k
  let v := match qFloat f with
    | some t => t.val e
    | none => FVal.ofInt (signedOf 8 e)
  if x = 0xFF || v.isNan then (0x7FC00000, 0)
  else wordOf (FFmt.f32.finish .rn ⟨v.scale ((x : Int) - 127), false⟩)

/-- `mxsc` (R233). -/
def mxscW (f : QFmt) (a : Word) : Word × Flags :=
  let emax : Int := match f with
    | .e4m3 => 8
    | .e5m2 => 15
    | _ => 2
  match f32 a with
  | .nan => (0xFF, 0)
  | .inf _ => (0xFF, .nv)
  | .fin _ m e =>
    if m = 0 then (0, 0)
    else (BitVec.ofInt 32 (max 0 (min (e + (Nat.log2 m : Int) - emax + 127) 254)), 0)

end Sys2Proof.Machine
end

