-- ==== Sys2Proof/Machine/FloatOps.lean ====
section
/-! DEFINITION. The meanings of the float, packed, dot, conversion and quantisation instructions (R219-R234). -/

namespace Sys2Proof.Machine

/-- `FADD` (R222). -/
def execFadd (g : Guard) (md : BitVec 8) (d : RegNo) (a : RegNo) (b : RegNo) (s : State) : Host.Outcome State Fault Refusal :=
  lanewiseF (.fadd g md d a b) g d (fun s l => faddW md (src s a.toNat l) (src s b.toNat l)) s

/-- `FSUB` (R222). -/
def execFsub (g : Guard) (md : BitVec 8) (d : RegNo) (a : RegNo) (b : RegNo) (s : State) : Host.Outcome State Fault Refusal :=
  lanewiseF (.fsub g md d a b) g d (fun s l => fsubW md (src s a.toNat l) (src s b.toNat l)) s

/-- `FMUL` (R222). -/
def execFmul (g : Guard) (md : BitVec 8) (d : RegNo) (a : RegNo) (b : RegNo) (s : State) : Host.Outcome State Fault Refusal :=
  lanewiseF (.fmul g md d a b) g d (fun s l => fmulW md (src s a.toNat l) (src s b.toNat l)) s

/-- `FFMA` (R222). -/
def execFfma (g : Guard) (md : BitVec 8) (d : RegNo) (a : RegNo) (b : RegNo) (c : RegNo) (s : State) : Host.Outcome State Fault Refusal :=
  lanewiseF (.ffma g md d a b c) g d (fun s l => ffmaW md false false (src s a.toNat l) (src s b.toNat l) (src s c.toNat l)) s

/-- `FFMS` (R222). -/
def execFfms (g : Guard) (md : BitVec 8) (d : RegNo) (a : RegNo) (b : RegNo) (c : RegNo) (s : State) : Host.Outcome State Fault Refusal :=
  lanewiseF (.ffms g md d a b c) g d (fun s l => ffmaW md false true (src s a.toNat l) (src s b.toNat l) (src s c.toNat l)) s

/-- `FNMA` (R222). -/
def execFnma (g : Guard) (md : BitVec 8) (d : RegNo) (a : RegNo) (b : RegNo) (c : RegNo) (s : State) : Host.Outcome State Fault Refusal :=
  lanewiseF (.fnma g md d a b c) g d (fun s l => ffmaW md true false (src s a.toNat l) (src s b.toNat l) (src s c.toNat l)) s

/-- `FNMS` (R222). -/
def execFnms (g : Guard) (md : BitVec 8) (d : RegNo) (a : RegNo) (b : RegNo) (c : RegNo) (s : State) : Host.Outcome State Fault Refusal :=
  lanewiseF (.fnms g md d a b c) g d (fun s l => ffmaW md true true (src s a.toNat l) (src s b.toNat l) (src s c.toNat l)) s

/-- `FMIN` (R223). -/
def execFmin (g : Guard) (d : RegNo) (a : RegNo) (b : RegNo) (s : State) : Host.Outcome State Fault Refusal :=
  lanewise (.fmin g d a b) g d (fun s l => fminW (src s a.toNat l) (src s b.toNat l)) s

/-- `FMAX` (R223). -/
def execFmax (g : Guard) (d : RegNo) (a : RegNo) (b : RegNo) (s : State) : Host.Outcome State Fault Refusal :=
  lanewise (.fmax g d a b) g d (fun s l => fmaxW (src s a.toNat l) (src s b.toNat l)) s

/-- `FMINP` (R223). -/
def execFminp (g : Guard) (d : RegNo) (a : RegNo) (b : RegNo) (s : State) : Host.Outcome State Fault Refusal :=
  lanewise (.fminp g d a b) g d (fun s l => fminpW (src s a.toNat l) (src s b.toNat l)) s

/-- `FMAXP` (R223). -/
def execFmaxp (g : Guard) (d : RegNo) (a : RegNo) (b : RegNo) (s : State) : Host.Outcome State Fault Refusal :=
  lanewise (.fmaxp g d a b) g d (fun s l => fmaxpW (src s a.toNat l) (src s b.toNat l)) s

/-- `FCMP` (R224): into a register, or a predicate bit of the climber. -/
def execFcmp (g : Guard) (cond : FCond) (comb : Comb) (pred : Bool) (d : RegNo) (a : RegNo) (b : RegNo) (c : RegNo) (s : State) :
    Host.Outcome State Fault Refusal :=
  issue (.fcmp g cond comb pred d a b c) (fun s =>
    let t (l : Nat) : Bool := fcondHolds cond (src s a.toNat l) (src s b.toNat l)
    if pred then .done (putPred s (d.toNat % 32) (combB comb (t 0) (predBit s (c.toNat % 32))))
    else .done (putLanes s (active s g) d.toNat fun l => combW comb (boolW (t l)) (src s c.toNat l))) s

/-- `FRCP` (R226). -/
def execFrcp (g : Guard) (d : RegNo) (a : RegNo) (s : State) : Host.Outcome State Fault Refusal :=
  lanewiseF (.frcp g d a) g d (fun s l => wordOf (specRcp (src s a.toNat l).toNat)) s

/-- `FRSQ` (R226). -/
def execFrsq (g : Guard) (d : RegNo) (a : RegNo) (s : State) : Host.Outcome State Fault Refusal :=
  lanewiseF (.frsq g d a) g d (fun s l => wordOf (specRsq (src s a.toNat l).toNat)) s

/-- `FSQRT` (R226). -/
def execFsqrt (g : Guard) (d : RegNo) (a : RegNo) (s : State) : Host.Outcome State Fault Refusal :=
  lanewiseF (.fsqrt g d a) g d (fun s l => wordOf (specSqrt (src s a.toNat l).toNat)) s

/-- `FEX2` (R226). -/
def execFex2 (g : Guard) (d : RegNo) (a : RegNo) (s : State) : Host.Outcome State Fault Refusal :=
  lanewiseF (.fex2 g d a) g d (fun s l => wordOf (specEx2 (src s a.toNat l).toNat)) s

/-- `FLG2` (R226). -/
def execFlg2 (g : Guard) (d : RegNo) (a : RegNo) (s : State) : Host.Outcome State Fault Refusal :=
  lanewiseF (.flg2 g d a) g d (fun s l => wordOf (specLg2 (src s a.toNat l).toNat)) s

/-- `FSINP` (R226). -/
def execFsinp (g : Guard) (d : RegNo) (a : RegNo) (s : State) : Host.Outcome State Fault Refusal :=
  lanewiseF (.fsinp g d a) g d (fun s l => wordOf (specSinp (src s a.toNat l).toNat)) s

/-- `FCOSP` (R226). -/
def execFcosp (g : Guard) (d : RegNo) (a : RegNo) (s : State) : Host.Outcome State Fault Refusal :=
  lanewiseF (.fcosp g d a) g d (fun s l => wordOf (specCosp (src s a.toNat l).toNat)) s

/-- `FTANH` (R226). -/
def execFtanh (g : Guard) (d : RegNo) (a : RegNo) (s : State) : Host.Outcome State Fault Refusal :=
  lanewiseF (.ftanh g d a) g d (fun s l => wordOf (specTanh (src s a.toNat l).toNat)) s

/-- `FDIV` (R225). -/
def execFdiv (g : Guard) (d : RegNo) (a : RegNo) (b : RegNo) (s : State) : Host.Outcome State Fault Refusal :=
  lanewiseF (.fdiv g d a b) g d (fun s l => wordOf (FFmt.f32.div (src s a.toNat l).toNat (src s b.toNat l).toNat)) s

/-- `FCLS` (R227). -/
def execFcls (g : Guard) (d : RegNo) (a : RegNo) (s : State) : Host.Outcome State Fault Refusal :=
  lanewise (.fcls g d a) g d (fun s l => fclsW (src s a.toNat l)) s

/-- `FSCL` (R227). -/
def execFscl (g : Guard) (d : RegNo) (a : RegNo) (b : RegNo) (s : State) : Host.Outcome State Fault Refusal :=
  lanewiseF (.fscl g d a b) g d (fun s l => fsclW (src s a.toNat l) (src s b.toNat l)) s

/-- `FRINT` (R227). -/
def execFrint (g : Guard) (rm : BitVec 2) (d : RegNo) (a : RegNo) (s : State) : Host.Outcome State Fault Refusal :=
  lanewise (.frint g rm d a) g d (fun s l => frintW (RMode.ofCode rm.toNat) (src s a.toNat l)) s

/-- `FFRAC` (R227). -/
def execFfrac (g : Guard) (d : RegNo) (a : RegNo) (s : State) : Host.Outcome State Fault Refusal :=
  lanewiseF (.ffrac g d a) g d (fun s l => ffracW (src s a.toNat l)) s

/-- `FCPSGN` (R227). -/
def execFcpsgn (g : Guard) (d : RegNo) (a : RegNo) (b : RegNo) (s : State) : Host.Outcome State Fault Refusal :=
  lanewise (.fcpsgn g d a b) g d (fun s l => fcpsgnW (src s a.toNat l) (src s b.toNat l)) s

/-- `HADD` (R228). -/
def execHadd (g : Guard) (bf : Bool) (d : RegNo) (a : RegNo) (b : RegNo) (s : State) : Host.Outcome State Fault Refusal :=
  lanewiseF (.hadd g bf d a b) g d (fun s l => haddW bf (src s a.toNat l) (src s b.toNat l)) s

/-- `HSUB` (R228). -/
def execHsub (g : Guard) (bf : Bool) (d : RegNo) (a : RegNo) (b : RegNo) (s : State) : Host.Outcome State Fault Refusal :=
  lanewiseF (.hsub g bf d a b) g d (fun s l => hsubW bf (src s a.toNat l) (src s b.toNat l)) s

/-- `HMUL` (R228). -/
def execHmul (g : Guard) (bf : Bool) (d : RegNo) (a : RegNo) (b : RegNo) (s : State) : Host.Outcome State Fault Refusal :=
  lanewiseF (.hmul g bf d a b) g d (fun s l => hmulW bf (src s a.toNat l) (src s b.toNat l)) s

/-- `HFMA` (R228). -/
def execHfma (g : Guard) (bf : Bool) (d : RegNo) (a : RegNo) (b : RegNo) (c : RegNo) (s : State) : Host.Outcome State Fault Refusal :=
  lanewiseF (.hfma g bf d a b c) g d (fun s l => hfmaW bf (src s a.toNat l) (src s b.toNat l) (src s c.toNat l)) s

/-- `HMIN` (R228). -/
def execHmin (g : Guard) (bf : Bool) (d : RegNo) (a : RegNo) (b : RegNo) (s : State) : Host.Outcome State Fault Refusal :=
  lanewise (.hmin g bf d a b) g d (fun s l => hminW bf (src s a.toNat l) (src s b.toNat l)) s

/-- `HMAX` (R228). -/
def execHmax (g : Guard) (bf : Bool) (d : RegNo) (a : RegNo) (b : RegNo) (s : State) : Host.Outcome State Fault Refusal :=
  lanewise (.hmax g bf d a b) g d (fun s l => hmaxW bf (src s a.toNat l) (src s b.toNat l)) s

/-- `DOT` (R229). -/
def execDot (g : Guard) (fmt : DotFmt) (d : RegNo) (a : RegNo) (b : RegNo) (c : RegNo) (s : State) : Host.Outcome State Fault Refusal :=
  lanewiseF (.dot g fmt d a b c) g d (fun s l => dotW fmt (src s a.toNat l) (src s b.toNat l) (src s c.toNat l)) s

/-- `CVT` (R230). -/
def execCvt (g : Guard) (code : BitVec 6) (idx : BitVec 2) (d : RegNo) (a : RegNo) (b : RegNo) (s : State) : Host.Outcome State Fault Refusal :=
  lanewiseF (.cvt g code idx d a b) g d (fun s l => cvtW code.toNat idx.toNat (src s a.toNat l) (src s b.toNat l)) s

/-- `QPK` (R231). -/
def execQpk (g : Guard) (fmt : QFmt) (d : RegNo) (a : RegNo) (b : RegNo) (s : State) : Host.Outcome State Fault Refusal :=
  lanewiseF (.qpk g fmt d a b) g d (fun s l => qpkW fmt ((src s b.toNat l).toNat % 256) (fun k => src s (a.toNat + k) l)) s

/-- `QUPK` (R232). -/
def execQupk (g : Guard) (fmt : QFmt) (d : RegNo) (a : RegNo) (b : RegNo) (s : State) : Host.Outcome State Fault Refusal :=
  issue (.qupk g fmt d a b) (fun s =>
    let ls := active s g
    let e (l k : Nat) : Word × Flags := unquantise fmt ((src s b.toNat l).toNat % 256) (src s a.toNat l) k
    .done (raise (putGroup s ls d.toNat fmt.count fun l k => (e l k).1)
      (Flags.all (ls.flatMap fun l => (List.range fmt.count).map fun k => (e l k).2)))) s

/-- `MXSC` (R233). -/
def execMxsc (g : Guard) (fmt : QFmt) (d : RegNo) (a : RegNo) (s : State) : Host.Outcome State Fault Refusal :=
  lanewiseF (.mxsc g fmt d a) g d (fun s l => mxscW fmt (src s a.toNat l)) s

end Sys2Proof.Machine
end

