-- ==== Sys2Proof/Machine/Select.lean ====
section
/-! DEFINITION. Fetching and selecting: merging splits and releasing joins (R201, R206), the instruction buffers (R165), the
choice of a split to issue (R313), sleeps and yields (R328). -/

namespace Sys2Proof.Machine

/-- Numbers an event brings. -/
def State.nums (s : State) : List Nat := match s.arg with
  | .nums xs => xs
  | _ => []

/-- The message an event brings. -/
def State.msg (s : State) : Option Msg := match s.arg with
  | .msg m => some m
  | _ => none

/-- An event whose condition does not hold changes nothing. -/
def event (f : State → State) (s : State) : Host.Outcome State Fault Refusal := .next (f s)

/-- An event that brings a message. -/
def onMsg (f : Msg → State → State) (s : State) : Host.Outcome State Fault Refusal :=
  event (fun s => match s.msg with
    | some m => f m s
    | none => s) s

/-- Cycles of an island that `n` counts of `clk` hold reach `k` cycles (R2, R11). -/
def cyclesPassed (s : State) (core since k : Nat) : Bool :=
  decide (k * 2000 ≤ s.clkSince since * s.mhz (islandOf core))

/-! Fetching (R165, R168). -/

/-- The word at a PC, if its block is in a buffer. -/
def wordAt (buf : List (Nat × BitVec 256)) (pc : Nat) : Option DWord :=
  (buf.find? fun b => b.1 == pc / 32 * 32).map fun (b : Nat × BitVec 256) => (b.2 >>> (8 * (pc % 32))).setWidth 64

/-- The block a buffer fetches next: that of the PC, or the one after it. -/
def wantBlock (xbnd : Nat) (buf : List (Nat × BitVec 256)) (pc : Nat) : Option Nat :=
  [pc / 32 * 32, pc / 32 * 32 + 32].find? fun a => decide (a < xbnd) && !buf.any fun b => b.1 == a

/-- A buffer of two blocks with a fetched one: those of the PC and the one after it. -/
def fillBuffer (buf : List (Nat × BitVec 256)) (pc a : Nat) (v : BitVec 256) : List (Nat × BitVec 256) :=
  ((buf.filter fun b => (b.1 == pc / 32 * 32 || b.1 == pc / 32 * 32 + 32) && b.1 != a) ++ [(a, v)]).take 2

/-- The block a fetch request names is read; an uncorrectable word seals the core (R166). -/
def fetchFor (core : Nat) (buf : List (Nat × BitVec 256)) (pc : Nat) (fill : List (Nat × BitVec 256) → State → State)
    (s : State) : State :=
  match wantBlock (s.xbnd core) buf pc with
  | none => s
  | some a => niTouch s (lsKey core a) 32 fun s => fill (fillBuffer buf pc a (BitVec.ofNat 256 (s.ls core a 32))) s

/-- The fetch requests of a core: those of its splits and active climbers that want a block, by slot, split (4 a climber) and block. -/
def fetchWants (s : State) (core : Nat) : List (Nat × Nat × Nat) :=
  let want (buf : List (Nat × BitVec 256)) (pc slot p : Nat) : Option (Nat × Nat × Nat) :=
    (wantBlock (s.xbnd core) buf pc).map fun a => (slot, p, a)
  (List.range 64).filterMap (fun q =>
    let w := s.wave core (q / 4)
    let sp := w.splits.getD (q % 4) {}
    if w.live && sp.live then want sp.buf sp.pc.toNat (q / 4) (q % 4) else none) ++
  (s.core core).active.filterMap fun k => want (s.climber core k).buf (s.cpc core k).toNat k 4

/-- The queue of fetch requests: those still wanted in their order, then the new ones (R165). -/
def fetchQueue (s : State) (core : Nat) : List (Nat × Nat × Nat) :=
  let ws := fetchWants s core
  let old := (s.core core).fetchQ.filter ws.contains
  old ++ ws.filter fun w => !old.contains w

/-- The requests that their banks serve next: the oldest queued for each (R158, R165). -/
def fetchNext (s : State) (core : Nat) : List (Nat × Nat × Nat) :=
  let bank (r : Nat × Nat × Nat) : Nat := r.2.2 / 32 % 32
  ((fetchQueue s core).foldl (fun (acc : List Nat × List (Nat × Nat × Nat)) r =>
    if acc.1.contains (bank r) then acc else (acc.1 ++ [bank r], acc.2 ++ [r])) ([], [])).2

/-- `FETCH_BLOCK`: core, slot, split; split 4 stands for the climber of the slot. -/
def execFetchBlock (s : State) : Host.Outcome State Fault Refusal :=
  event (fun s => match s.nums with
    | [core, slot, p] =>
      if p = 4 then
        fetchFor core (s.climber core slot).buf (s.cpc core slot).toNat
          (fun b s => s.updClimber core slot fun c => { c with buf := b }) s
      else
        let sp := (s.wave core slot).splits.getD p {}
        if sp.live then
          fetchFor core sp.buf sp.pc.toNat (fun b s => s.updSplit core slot p fun sp => { sp with
            buf := b, stamp := if (wordAt sp.buf sp.pc.toNat).isNone then s.clk else sp.stamp }) s
        else s
    | _ => s) s

/-! Splits that may issue. -/

/-- The trapped split of a wave in a handler, from its trap frame. -/
def trapSplit (s : State) (core slot : Nat) : Nat := s.ls core (saveArea slot + 14) 1 / 4 % 4

/-- A split held by its wave's handler (R336): it was not free at entry and is not the trapped one. -/
def heldByTrap (s : State) (core slot p : Nat) : Bool :=
  let w := s.wave core slot
  w.tm && !w.freeAtTrap.contains p && p != trapSplit s core slot

/-- A split held by another's lease block (R107). -/
def heldByBlock (w : Wave) (p : Nat) : Bool := match w.block with
  | some b => p != b.split
  | none => false

/-- The core has stopped for a halt: its lease blocks are closed (R347). -/
def State.stopped (s : State) (core : Nat) : Bool :=
  (s.core core).halted && (List.range 16).all fun w => (s.wave core w).block.isNone

/-- The split that issued a `halt` issues nothing more until the core is resumed (R347). -/
def heldByHalt (s : State) (core slot p : Nat) : Bool := (s.core core).halted && (s.core core).haltBy == some (slot * 4 + p)

/-- The core issues (R347, R349). -/
def State.issuing (s : State) (core : Nat) : Bool := !(s.core core).sealed && !s.stopped core

/-- Nothing but its park state keeps a split from issuing. -/
def mayIssue (s : State) (core slot p : Nat) : Bool :=
  let w := s.wave core slot
  w.live && (w.splits.getD p {}).live && !w.stopped && !heldByTrap s core slot p && !heldByBlock w p && !heldByHalt s core slot p

/-- Its next word is in its buffer, or lies at or above XBND, where issuing raises FETCH_BOUNDARY. -/
def fetched (s : State) (core slot p : Nat) : Bool :=
  let sp := (s.wave core slot).splits.getD p {}
  (wordAt sp.buf sp.pc.toNat).isSome || decide (s.xbnd core ≤ sp.pc.toNat)

/-- Every (slot, split) of a core. -/
def allSplits : List (Nat × Nat) := (List.range 16).flatMap fun w => (List.range 4).map fun p => (w, p)

/-- A yielding split is ready again: the others have issued, or 16 cycles have passed (R328). -/
def yieldOver (s : State) (core : Nat) (pk : Park) : Bool := match pk with
  | .yield others since => others.isEmpty || cyclesPassed s core since 16
  | _ => false

/-- The ready splits of a core (R313). -/
def readySplits (s : State) (core : Nat) : List (Nat × Nat) :=
  allSplits.filter fun q =>
    let sp := (s.wave core q.1).splits.getD q.2 {}
    (sp.park == .running || yieldOver s core sp.park) && mayIssue s core q.1 q.2 && fetched s core q.1 q.2

/-- The splits waiting in a blocking instruction, or for a scoreboard, which may try again. -/
def waitingSplits (s : State) (core : Nat) : List (Nat × Nat) :=
  allSplits.filter fun q =>
    (match ((s.wave core q.1).splits.getD q.2 {}).park with
      | .waiting why => decide (4 < why)
      | _ => false) && mayIssue s core q.1 q.2 && fetched s core q.1 q.2

/-- The ready splits that a structural stall holds (R313). -/
def heldSplits (s : State) (core : Nat) : List (Nat × Nat) :=
  allSplits.filter fun q => ((s.wave core q.1).splits.getD q.2 {}).park.held && mayIssue s core q.1 q.2 && fetched s core q.1 q.2

/-- A split goes on behind the instruction at which it was parked; it becomes ready now (R313). -/
def Split.goOn (clk : Nat) (p : Split) : Split := { p with pc := p.pc + 8, park := .running, stamp := clk }

/-- Every lane of a wave has exited. -/
def waveOver (w : Wave) : Bool := w.launchMask &&& ~~~w.exited == 0

/-- The waves of a group that have not exited, by slot. -/
def liveWaves (s : State) (g : Group) : List Nat := g.slots.filter fun w => !waveOver (s.wave g.core w)

/-! Group barriers (R214, R215). -/

def barrierOf (g : Group) (b : Nat) : Barrier := Sparse.get {} g.bars b

def setBarrier (gid b : Nat) (v : Barrier) (s : State) : State :=
  s.updGroup gid fun g => { g with bars := Sparse.set {} g.bars b v }

/-- The splits of a wave parked on a barrier go on behind it. -/
def releaseBarrier (core slot b : Nat) (s : State) : State :=
  s.updWave core slot fun w => { w with splits := w.splits.map fun p =>
    if p.live && (p.park == Park.barrier b) then p.goOn s.clk else p }

/-- Waves whose arrival mask covers every lane not exited arrive; the generation completes when E have (R215). -/
def settleBarrier (gid b : Nat) (s : State) : State :=
  match s.group? gid with
  | none => s
  | some g =>
    let v := barrierOf g b
    if v.count.isNone then s
    else
      let covers (slot : Nat) : Option Nat :=
        let w := s.wave g.core slot
        let m := Sparse.get 0 v.masks w.index
        if m != 0 && !waveOver w && !v.arrived.contains w.index && w.launchMask &&& ~~~w.exited &&& ~~~m == 0
        then some w.index else none
      let v := { v with arrived := v.arrived ++ g.slots.filterMap covers }
      if v.expect ≤ v.arrived.length then
        g.slots.foldl (fun s w => releaseBarrier g.core w b s)
          (setBarrier gid b { gen := v.gen + 1, expect := 0, count := none, arrived := [], masks := [] } s)
      else setBarrier gid b v s

/-- A split's lanes join barrier `b` with count operand `n` (R215). -/
def joinBarrier (g : Group) (index b n : Nat) (mask : Word) (s : State) : State :=
  let v := barrierOf g b
  let v := if v.count.isNone then { v with count := some n, expect := if n = 0 then (liveWaves s g).length else n } else v
  settleBarrier g.gid b (setBarrier g.gid b { v with masks := Sparse.set 0 v.masks index (Sparse.get 0 v.masks index ||| mask) } s)

/-! Merging and joins (R201, R206). -/

/-- The split has a request on its way or an answer to take up. -/
def Await.busy : Await → Bool
  | .none => false
  | .atRing _ => false
  | _ => true

/-- Stack levels match in PC, TAG, KIND and BAR. -/
def stacksMatch (s : State) (core slot i j depth : Nat) : Bool :=
  (List.range depth).all fun k =>
    { s.stackEntry core slot i k with mask := 0 } == { s.stackEntry core slot j k with mask := 0 }

/-- Two splits of a wave merge, whatever they are parked at or wait for (R201); a handler holds the others (R336, log 20). -/
def mergeable (s : State) (core slot i j : Nat) : Bool :=
  let w := s.wave core slot
  let a := w.splits.getD i {}
  let b := w.splits.getD j {}
  a.live && b.live && a.pc == b.pc && a.depth == b.depth && !heldByTrap s core slot i && !heldByTrap s core slot j &&
    stacksMatch s core slot i j a.depth

def Park.atJoin : Park → Bool
  | .join _ => true
  | _ => false

def Park.atBarrier : Park → Option Nat
  | .barrier b => some b
  | _ => none

/-- How much a park state weighs when its split merges: the instruction under whose rule the merged split continues is the one that
has the most left to wait for, a barrier, a sleep, a blocking instruction, a `join` (log 20). -/
def Park.weight : Park → Nat
  | .barrier _ => 5
  | .sleep _ => 4
  | .waiting _ => 3
  | .yield _ _ => 2
  | .join _ => 1
  | .running => 0

/-- Split `b` is the one of two that merge under whose instruction they continue: of equal ones, the survivor `a` is (R201), of two that
sleep, the one that sleeps longer, and of two that wait, the one with a request on its way. -/
def laterOf (a b : Split) : Bool :=
  decide (a.park.weight < b.park.weight) || (match a.park, b.park with
    | .sleep t, .sleep u => decide (t < u)
    | .waiting _, .waiting _ => !a.await.busy && b.await.busy
    | _, _ => false)

/-- A split into which another merges: the union of the lanes, under the instruction of the one that goes on. -/
def mergeSplit (a b : Split) : Split :=
  { (if laterOf a b then { a with park := b.park, await := b.await, began := b.began, stamp := b.stamp } else a) with
    mask := a.mask ||| b.mask, taken := a.taken ++ b.taken }

/-- The lanes of a merged split that are not yet in the arrival mask of the barrier at which it is parked arrive there (R215). -/
def arriveMerged (core slot : Nat) (a b : Split) (s : State) : State :=
  match (mergeSplit a b).park.atBarrier, s.groupOf core slot with
  | some k, some g =>
    let late := (if a.park.atBarrier = some k then 0 else a.mask) ||| (if b.park.atBarrier = some k then 0 else b.mask)
    if late = 0 then s else joinBarrier g (s.wave core slot).index k ((barrierOf g k).count.getD 0) late s
  | _, _ => s

/-- What names split `j` of a wave, which merges into split `i`, names that one: the lease block, the waves waiting for a pairing, a
`halt`, a waiting `take`. -/
def renameSplit (core slot i j : Nat) (s : State) : State :=
  let nu (p : Nat) : Nat := if p = j then i else p
  let toQ (q : Nat) : Nat := if q = slot * 4 + j then slot * 4 + i else q
  let s := s.updWave core slot fun w => { w with
    block := w.block.map fun q => { q with split := nu q.split }
    pairing := w.pairing.map fun (d, since, ps) => (d, since, ps.map nu) }
  let s := if (s.core core).haltBy = some (slot * 4 + j) then s.updCore core fun c => { c with haltBy := some (slot * 4 + i) } else s
  { s with groups := s.groups.map fun g => if g.core = core then
      { g with inst := g.inst.map fun n => { n with takers := n.takers.map toQ } } else g }

/-- Split `j` merges into split `i`. -/
def mergePair (core slot i j : Nat) (s : State) : State :=
  if mergeable s core slot i j then
    let w := s.wave core slot
    let a := w.splits.getD i {}
    let b := w.splits.getD j {}
    let s := (List.range a.depth).foldl (fun s k =>
      let e := s.stackEntry core slot i k
      s.setStackEntry core slot i k { e with mask := e.mask ||| (s.stackEntry core slot j k).mask }) s
    arriveMerged core slot a b (renameSplit core slot i j (s.updWave core slot fun w =>
      (w.updSplit i fun a => mergeSplit a b).updSplit j fun _ => {}))
  else s

/-- The pairs of splits, lower number first. -/
def splitPairs : List (Nat × Nat) := [(0, 1), (0, 2), (0, 3), (1, 2), (1, 3), (2, 3)]

/-- A split at a `join` with which another has just merged: some split of the wave is free that was not (R206). -/
def mergedAtJoin (core slot : Nat) (s t : State) (p : Nat) : Bool :=
  let sp (u : State) (p : Nat) : Split := (u.wave core slot).splits.getD p {}
  (sp t p).live && (sp t p).park.atJoin && (sp t p).mask != (sp s p).mask

/-- The splits of a wave merge; those then at a `join` go on behind it (R201, R206). -/
def mergeWave (core slot : Nat) (s : State) : State :=
  let t := splitPairs.foldl (fun s q => mergePair core slot q.1 q.2 s) s
  (List.range 4).foldl (fun u p => if mergedAtJoin core slot s t p then u.updSplit core slot p (Split.goOn s.clk) else u) t

/-- A split for which one parked at a `join` need not wait: it is parked, or waits in a blocking instruction; codes 1 to 7 of
R334 are stalls. -/
def blocked (s : State) (core : Nat) : Park → Bool
  | .running => false
  | .yield others since => !yieldOver s core (.yield others since)
  | .waiting why => decide (8 ≤ why)
  | _ => true

/-- Every live split of a wave is parked or waits, and some at a `join` (R206). -/
def joinsDue (s : State) (core slot : Nat) : Bool :=
  let w := s.wave core slot
  w.splits.all (fun p => !p.live || blocked s core p.park) && w.splits.any fun p => p.live && p.park.atJoin

/-- Splits parked at joins go on when every other split of the wave is parked or waiting (R206). -/
def releaseJoins (core slot : Nat) (s : State) : State :=
  if joinsDue s core slot then
    s.updWave core slot fun w => { w with splits := w.splits.map fun p => if p.live && p.park.atJoin then p.goOn s.clk else p }
  else s

/-- Resident wave slots of a core. -/
def liveSlots (s : State) (core : Nat) : List Nat := (List.range 16).filter fun w => (s.wave core w).live

/-- `SPLIT_MERGE`: core, slot. -/
def execSplitMerge (s : State) : Host.Outcome State Fault Refusal :=
  event (fun s => match s.nums with
    | [core, slot] => mergeWave core slot s
    | _ => s) s

/-- `JOIN_TIMEOUT`: core, slot, split; 256 cycles after it parked, a split goes on behind the join. -/
def execJoinTimeout (s : State) : Host.Outcome State Fault Refusal :=
  event (fun s => match s.nums with
    | [core, slot, p] =>
      match ((s.wave core slot).splits.getD p {}).park with
      | .join since =>
        if cyclesPassed s core since 256 then
          s.updSplit core slot p (Split.goOn s.clk)
        else s
      | _ => s
    | _ => s) s

/-- `SLEEP_EXPIRY`: core, slot, split. -/
def execSleepExpiry (s : State) : Host.Outcome State Fault Refusal :=
  event (fun s => match s.nums with
    | [core, slot, p] =>
      match ((s.wave core slot).splits.getD p {}).park with
      | .sleep target => if target ≤ s.clk then s.updSplit core slot p fun sp => { sp with park := .running, stamp := s.clk } else s
      | _ => s
    | _ => s) s

/-! Selection (R313). -/

/-- The class of a split: an open lease block, the wave of the matrix turn, any other. -/
def splitClass (s : State) (core : Nat) (q : Nat × Nat) : Nat :=
  if (s.wave core q.1).block.isSome then 1 else if (s.core core).turn = some q.1 then 2 else 3

/-- The first of the candidates with the least measure: lists run by slot, then split, so ties go to the lower. -/
def leastBy (m : Nat × Nat → Nat) : List (Nat × Nat) → Option (Nat × Nat)
  | [] => none
  | q :: qs => match leastBy m qs with
    | none => some q
    | some r => if m q ≤ m r then some q else some r

/-- Cycles of the core's clock since a split became ready or issued, whichever is later (R313); a `yield` may have kept it from
being ready for 16 of them (R328). -/
def ageOf (s : State) (core : Nat) (sp : Split) : Nat :=
  s.clkSince sp.stamp * s.mhz (islandOf core) / 2000 - (match sp.park with
    | .yield (_ :: _) _ => 16
    | _ => 0)

/-- The split R313 chooses among ready ones that are not held: the oldest when its age reaches the number `n` of ready splits, else by
class and least recent issue. -/
def selectSplit (s : State) (core n : Nat) (ready : List (Nat × Nat)) : Option (Nat × Nat) :=
  let sp (q : Nat × Nat) := (s.wave core q.1).splits.getD q.2 {}
  match leastBy (fun q => 2 ^ 64 - ageOf s core (sp q)) ready with
  | none => none
  | some old =>
    if n ≤ ageOf s core (sp old) then some old
    else match leastBy (splitClass s core) ready with
      | none => none
      | some best =>
        leastBy (fun q => (sp q).issued) (ready.filter fun q => splitClass s core q == splitClass s core best)

/-- The held splits whose stalls are over now: when they are is timing, and free (log 4). -/
def freedSplits (s : State) (core : Nat) : List (Nat × Nat) :=
  let held := heldSplits s core
  ((List.range held.length).zip held).filterMap fun (i, q) =>
    if (Config.freeNat s.nonce).testBit i || (readySplits s core).isEmpty then some q else none

/-- The split that issues now: R313's choice, or a waiting one that tries its instruction again (log 4). -/
def chooseSplit (s : State) (core : Nat) : Option (Nat × Nat) :=
  let ready := readySplits s core
  let first := selectSplit s core (ready.length + (heldSplits s core).length)
    (allSplits.filter (ready ++ freedSplits s core).contains)
  match waitingSplits s core with
  | [] => first
  | ws =>
    let all := first.toList ++ ws
    all[Config.freeNat s.nonce % all.length]?

/-- An issue is noted: the core's count and `clk`, the split's but where it tries again, and the yielding splits that waited for it
(R313, R328). -/
def noteIssue (core : Nat) (q : Nat × Nat) (s : State) : State :=
  let now := (s.core core).cycles + 1
  let pc := ((s.wave core q.1).splits.getD q.2 {}).pc.toNat
  let s := s.updCore core fun c => { c with cycles := now, lastIssue := some (q.1, q.2, pc, s.clk) }
  let s := s.updSplit core q.1 q.2 fun sp => match sp.park with
    | .waiting _ => sp
    | pk => { sp with stamp := s.clk, issued := now, was := (sp.stamp, sp.issued), park := match pk with
        | .yield _ _ => .running
        | pk => pk }
  let let_ (sp : Split) : Split := match sp.park with
    | .yield o t =>
      let o := o.filter (· != q.1 * 4 + q.2)
      { sp with park := .yield o t, stamp := if o.isEmpty then s.clk else sp.stamp }
    | _ => sp
  (liveSlots s core).foldl (fun s w => s.updWave core w fun v => { v with splits := v.splits.map let_ }) s

/-- `ISSUE_SELECT`: core. Splits merge, joins are released, and the chosen split's word is put in `ir` for it to execute;
a PC at or above XBND raises FETCH_BOUNDARY (R168). -/
def execIssueSelect (s : State) : Host.Outcome State Fault Refusal :=
  event (fun s => match s.nums with
    | [core] =>
      if !s.issuing core then s
      else
        let s := (liveSlots s core).foldl (fun s w => releaseJoins core w (mergeWave core w s)) s
        match chooseSplit s core with
        | none => s
        | some q =>
          let sp := (s.wave core q.1).splits.getD q.2 {}
          let s := noteIssue core q s
          if s.xbnd core ≤ sp.pc.toNat then
            let tvec := match s.groupOf core q.1 with
              | some g => g.tvec
              | none => 0
            takeTrap core q.1 q.2 tvec 0x04 (sp.pc.setWidth 64) sp.pc s
          else match wordAt sp.buf sp.pc.toNat with
            | none => s
            | some w => { s with cur := .wave core q.1 q.2, ir := w }
    | _ => s) s

end Sys2Proof.Machine
end

