-- ==== Sys2Proof/Machine/Groups.lean ====
section
/-! DEFINITION. The barriers of a group and of a launch (R214-R217, R327), and how lanes, waves and groups end (R207, R311,
R320, R134, R103). -/

namespace Sys2Proof.Machine

/-! Barriers (R215). -/

/-- A wave that exits before it has arrived lowers E of an open generation with count 0 by 1 (R215). -/
def leaveBarrier (gid index b : Nat) (s : State) : State :=
  match s.group? gid with
  | none => s
  | some g =>
    let v := barrierOf g b
    if v.count = some 0 && !v.arrived.contains index then setBarrier gid b { v with expect := v.expect - 1 } s else s

/-! Combining barriers (R302, R327). -/

/-- Groups of a unit of level `k`, and the unit that holds group `g`. -/
def unitGroups (rec : BitVec 1024) (k : Nat) : Nat := extProd rec 2 (k - 2) * recQ rec
def unitOf (rec : BitVec 1024) (k g : Nat) : Nat := g / unitGroups rec k

/-- The lowest level from 2 up whose scope is `sc`. -/
def levelOf (rec : BitVec 1024) (sc : Nat) : Option Nat :=
  (List.range (recLevels rec)).find? fun k => decide (2 ≤ k) && levScope rec k == sc

/-- Waves of a unit that have not exited, of groups resident, saved and not yet placed. -/
def unitWaves (s : State) (l : Launch) (level unit : Nat) : Nat :=
  let mine (g : Group) : Bool := g.lid == l.lid && unitOf l.record level g.num == unit
  let left (g : Group) (gone : Nat) : Nat := g.waves - gone
  let resident := (s.groups.filter mine).map fun g => left g (g.slots.filter fun w => waveOver (s.wave g.core w)).length
  let saved := (s.saved.filter fun v => mine v.group).map fun v => left v.group (v.waves.filter fun w => waveOver w.2).length
  let size := unitGroups l.record level
  resident.sum + saved.sum + (min l.total ((unit + 1) * size) - max l.next (unit * size)) * recWaves l.record

/-- The combination of the arrivals of a generation. -/
def cbarValue (sub : Nat) (vs : List Word) : Word :=
  match sub with
  | 1 => vs.foldl (fun a b => BitVec.ofNat 32 (FFmt.f32.maxNum a.toNat b.toNat)) 0x7FC00000
  | 2 => vs.foldl (fun a b => if a.ule b then b else a) 0
  | 3 => vs.foldl (· + ·) 0
  | 4 => vs.foldl (fun a b => if a.ule b then a else b) 0xFFFFFFFF
  | _ => 0

/-- A generation with every expected arrival completes, and each arrived wave has its reply. -/
def settleCbar (c : Cbar) : Cbar :=
  if !c.arrived.isEmpty && c.expect ≤ c.arrived.length then
    let v := if c.sub = 0 then c.gen + 1 else cbarValue c.sub (c.arrived.map fun a => a.2.2)
    { c with gen := c.gen + 1, arrived := [], replies := c.replies ++ c.arrived.map fun a => (a.1, a.2.1, false, v) }
  else c

/-- A wave that exits in mid-generation leaves the count. -/
def leaveCbars (s : State) (l : Launch) (num index : Nat) : State :=
  { s with cbars := s.cbars.map fun c =>
    if c.lid == l.lid && unitOf l.record c.level num == c.unit && !c.arrived.isEmpty &&
        !c.arrived.any (fun a => a.1 == num && a.2.1 == index)
    then settleCbar { c with expect := c.expect - 1 } else c }

/-! Credits of graph instances (R319, R320). -/

/-- The instance of a group, resident or saved. -/
def updAnyGroup (gid : Nat) (f : Group → Group) (s : State) : State :=
  { s.updGroup gid f with saved := s.saved.map fun (v : Saved) => if v.gid = gid then { v with group := f v.group } else v }

/-- The credits of a wave return to their instances. -/
def returnCredits (s : State) (core slot : Nat) : State :=
  (s.postAll ((s.wave core slot).resv.map fun r => graphMsg s (deviceAt core 0xFFFF) r.gid 4 r.credits 0)).updWave
    core slot fun w => { w with resv := [] }

/-! The end of a group. -/

/-- What stands for the address of a record where a subscription has none, as a replica's (R291): no local address is as high. -/
def noRecord : Nat := 2 ^ 32

/-- A subscription ends: STAT of its record, and its sharer and the grains it claims at the home (R98, R101, R103). -/
def endSub (core reason : Nat) (u : Sub) (s : State) : State :=
  let s := if u.record = noRecord then s else echo (lsKey core (u.record + 24)) 4 (s.setLs core (u.record + 24) 4 (reason * 256 + 2))
  let s := s.updCore core fun c => { c with subs := c.subs.filter fun v => !(v.record == u.record && v.dpa == u.dpa) }
  { s with dirs := (s.dirs.map fun (d : Dir) =>
      if d.dpa = u.dpa && d.sharers.any (fun p => p.1 == core && p.2 == u.record) then
        { d with sharers := d.sharers.filter (fun p => !(p.1 == core && p.2 == u.record))
                 owners := d.owners.filter fun o => !(o.2.1 == core && o.2.2 == u.record) }
      else d).filter fun d => !d.sharers.isEmpty }

def endSubs (s : State) (core gid reason : Nat) : State :=
  ((s.core core).subs.filter fun u => u.gid == gid).foldl (fun s u => endSub core reason u s) s

/-- Credits held by the counters of a group return to their instances (R325). -/
def dropCounters (s : State) (g : Group) : State :=
  s.postAll (g.armed.map fun (a : Nat × Nat) => graphMsg s (deviceAt g.core 0xFFFF) a.2 4 1 0)

/-- Credit requests of a group's waves leave the instances. -/
def dropWaiters (g : Group) (h : Group) : Group :=
  { h with inst := h.inst.map fun n => { n with
      cred := n.cred - ((n.waiters.filter fun w => w.src.core == g.core && g.slots.contains w.src.slot).map (·.got)).sum
      waiters := n.waiters.filter fun w => !(w.src.core == g.core && g.slots.contains w.src.slot) } }

/-- A group leaves its core: its subscriptions end, and slots, registers, banks, partition, turns and requests are free; the
banks that its accepted `mma` write are free once those have executed (R243). -/
def leaveCore (g : Group) (reason : Nat) (s : State) : State :=
  let s := { s with groups := s.groups.map (dropWaiters g)
                    saved := s.saved.map fun (v : Saved) => { v with group := dropWaiters g v.group } }
  let s := endSubs s g.core g.gid reason
  let runs := ((s.core g.core).mma.filter fun m => g.slots.contains m.slot).map fun m => (s.wave g.core m.slot).acc
  let s := g.slots.foldl (fun s w =>
    { (s.setWave g.core w {}) with regs := Sparse.set [] s.regs (waveKey g.core w) [] }) s
  let s := s.updCore g.core fun c => { c with
    treelets := if s.groups.any fun h => h.gid != g.gid && h.core == g.core && h.anchors.isSome then c.treelets else []
    pairs := c.pairs.map fun (o : Option Nat) => o.filter fun w => !g.slots.contains w
    pairWait := c.pairWait.filter fun w => !g.slots.contains w
    accWait := c.accWait.filter fun w => !g.slots.contains w.1
    turn := c.turn.filter fun w => !g.slots.contains w
    turnWait := c.turnWait.filter fun w => !g.slots.contains w
    mma := c.mma.map fun m => if g.slots.contains m.slot then { m with slot := 16 } else m
    freeing := c.freeing ++ runs.eraseDups
    pairctl := if g.pair.isSome then c.pairctl &&& ~~~1 else c.pairctl }
  { s with groups := s.groups.filter fun h => h.gid != g.gid }

/-- Numbers of the operations that a paired group holds: they are never sent once the group ends (R349, R355). -/
def unsentIds (g : Group) : List Nat := match g.pair with
  | none => []
  | some p => p.held.flatMap fun t => match t.arg with
    | .msg m => [m.id]
    | .copy c => [c.id]
    | _ => []

/-- What a group holds is freed: its credits return, its operations pass to the launch, its fault records go (R126, R311). -/
def freeGroup (g : Group) (reason : Nat) (s : State) : State :=
  let s := g.slots.foldl (fun s w => returnCredits s g.core w) s
  let s := dropCounters s g
  let s := g.slots.foldl (fun s w => s.updLaunch g.lid fun l =>
    { l with ops := l.ops ++ (s.wave g.core w).ops.filter fun o => !(unsentIds g).contains o.id }) s
  let s := { s with halls := s.halls.map fun (h : Nat × Hall) => (h.1, { h.2 with faults := h.2.faults.filter fun f => f.2.2 != g.gid }) }
  leaveCore g reason s

/-- A group has exited (R207, R311). -/
def endGroup (g : Group) (s : State) : State := freeGroup g 1 s

/-- A wave whose last lane has exited releases the matrix turn and leaves the barriers; its group ends with its last
wave, or, paired, when the interval has closed (R207, R215, R257, R327, R355). -/
def endWave (core slot : Nat) (s : State) : State :=
  let w := s.wave core slot
  let s := s.updCore core fun c => { c with
    turn := c.turn.filter (· != slot), turnWait := c.turnWait.filter (· != slot)
    accWait := c.accWait.filter fun a => a.1 != slot }
  match s.group? w.gid with
  | none => s
  | some g =>
    let s := (List.range 16).foldl (fun s b => leaveBarrier g.gid w.index b s) s
    let s := match s.launch? g.lid with
      | some l => leaveCbars s l g.num w.index
      | none => s
    let s := (List.range 16).foldl (fun s b => settleBarrier g.gid b s) s
    if g.pair.isSome then s.updWave core slot fun w => { w with stopped := true }
    else if (liveWaves s g).isEmpty then endGroup g s
    else s

/-- Lanes of the issuing split leave the wave (R207): the rest goes on, or the top entry of the stack runs, or the split
is free. -/
def exitLanes (m : Word) (s : State) : State :=
  match s.cur with
  | .wave c w p =>
    let sp := s.curSplit
    let rest := sp.mask &&& ~~~m
    let s := s.updWave c w fun v => { v with exited := v.exited ||| m }
    let s :=
      if rest != 0 then s.updSplit c w p fun sp => { sp with mask := rest, pc := sp.pc + 8, park := .running, await := .none }
      else if sp.depth = 0 then s.updSplit c w p fun _ => {}
      else
        let e := s.stackEntry c w p (sp.depth - 1)
        s.updSplit c w p fun sp => { sp with
          mask := e.mask, pc := e.pc, depth := sp.depth - 1, buf := [], park := .running, await := .none }
    let s := (List.range 16).foldl (fun s b => settleBarrier (s.wave c w).gid b s) s
    if waveOver (s.wave c w) then endWave c w s else s
  | _ => s

end Sys2Proof.Machine
end

