-- ==== Sys2Proof/Machine/LocalStore.lean ====
section
/-! DEFINITION. Local store: the checks of R167-R172, atomic functions (R62, R176, R269), and the meanings of `ld`, `st`,
`ldk`, `ldix` and `atl` (R173-R176). A wave-port instruction performs its rounds in one step (log 22). -/

namespace Sys2Proof.Machine

/-! Atomic functions. -/

/-- The new 32-bit word of an atomic operation on `old` with operands `x` and, for `cas`, `y` (R176, R269). -/
def atomicW (op : Aop) (old x y : Word) : Word :=
  match op with
  | .add => old + x
  | .minI => minI old x
  | .maxI => maxI old x
  | .minN => minN old x
  | .maxN => maxN old x
  | .and => old &&& x
  | .or => old ||| x
  | .xor => old ^^^ x
  | .xchg => x
  | .cas => if old = x then y else old
  | .faddF32 => (f32Add old x).1
  | .faddBf16 => BitVec.ofNat 32 (FFmt.bf16.add (half old 0) (half x 0) + FFmt.bf16.add (half old 1) (half x 1) * 2 ^ 16)
  | .fminF32 => fminW old x
  | .fmaxF32 => fmaxW old x
  | .minN64 => minN old x

/-- The new 64-bit value of a `.d` operation (R269). -/
def atomicD (op : Aop) (old x y : Nat) : Nat :=
  match op with
  | .xchg => x
  | .cas => if old = x then y else old
  | _ => min old x

/-- The new value of an atomic or reduction of either size. -/
def atomicNew (sz : Sz) (op : Aop) (old x y : Nat) : Nat :=
  if sz = .d then atomicD op old x y
  else (atomicW op (BitVec.ofNat 32 old) (BitVec.ofNat 32 x) (BitVec.ofNat 32 y)).toNat

/-! Regions (R105, R167, R169-R171). -/

/-- [a, a + n) lies in [lo, lo + len). -/
def inRange (a n lo len : Nat) : Bool := decide (lo ≤ a) && decide (a + n ≤ lo + len)

/-- Groups resident on a core. -/
def residents (s : State) (core : Nat) : List Group := s.groups.filter fun g => g.phase == .resident && g.core == core

/-- The constant region of a group holds [a, a + n). -/
def inConst (g : Group) (a n : Nat) : Bool := inRange a n g.cregb.toNat g.cregl.toNat

/-- A core's constant region (R169): some resident group's holds a byte of [a, a + n). -/
def touchesConst (s : State) (core a n : Nat) : Bool :=
  (residents s core).any fun g => g.cregl != 0 && decide (a < g.cregb.toNat + g.cregl.toNat) && decide (g.cregb.toNat < a + n)

/-- The lease window that holds an address. -/
def windowOf (a : Nat) : Option Nat := if 0x2FE000 ≤ a && a < 0x2FE400 then some ((a - 0x2FE000) / 128) else none

/-- The wave holds the lease window of an address. -/
def holdsWindow (w : Wave) (a : Nat) : Bool := match windowOf a with
  | some k => w.leases.any fun l => l.window == k
  | none => false

/-- R167, R171 and R105 allow the current agent to access [a, a + n); `plain` for `ld` and `st`, which alone reach the
system region in privileged code. Nothing reaches the code region, whatever its privilege, of which R167 does not speak (log 75). -/
def accessOk (s : State) (plain : Bool) (a n : Nat) : Bool :=
  if Config.lsBytes < a + n then false
  else if a < s.xbnd s.curCore then false
  else if a + n ≤ Config.lsData then
    s.cur.isClimber || match s.curGroup with
      | some g => inRange a n g.pb g.pl
      | none => false
  else (plain && s.privileged && decide (Config.lsData ≤ a)) || (!s.cur.isClimber && holdsWindow s.curWave a)

/-- `ldk` may read [a, a + n): it lies in the wave's group's constant region, or, for a climber, in the core's. -/
def constOk (s : State) (a n : Nat) : Bool :=
  if s.cur.isClimber then (residents s s.curCore).any fun g => inConst g a n
  else match s.curGroup with
    | some g => inConst g a n
    | none => false

/-- A store or `atl` would write the constant region (R170, R172). -/
def constWrite (s : State) (a n : Nat) : Bool :=
  if s.cur.isClimber then touchesConst s s.curCore a n
  else match s.curGroup with
    | some g => g.cregl != 0 && decide (a < g.cregb.toNat + g.cregl.toNat) && decide (g.cregb.toNat < a + n)
    | none => false

/-- The three steps of R172 over the lanes' addresses. -/
def checkAddresses (ls : List Nat) (addr : Nat → Word) (n : Nat) (ok write : Nat → Bool) : Option (Nat × DWord) :=
  let at_ (l : Nat) : DWord := (addr l).setWidth 64
  match ls.find? fun l => (addr l).toNat % n != 0 with
  | some l => some (0x06, at_ l)
  | none => match ls.find? fun l => !ok (addr l).toNat with
    | some l => some (0x05, at_ l)
    | none => (ls.find? fun l => write (addr l).toNat).map fun l => (0x07, at_ l)

/-! Reading and writing. -/

/-- A loaded value in register `k` of its group (R173). -/
def extendLoad (sz : Sz) (v k : Nat) : Word :=
  match sz with
  | .i8 => (BitVec.ofNat 8 v).signExtend 32
  | .n8 => BitVec.ofNat 32 v
  | .i16 => (BitVec.ofNat 16 v).signExtend 32
  | .n16 => BitVec.ofNat 32 v
  | _ => BitVec.ofNat 32 (v / 2 ^ (32 * k))

/-- The value of a register group, low register first, as stored in `n` bytes. -/
def groupValue (s : State) (r regs lane : Nat) : Nat :=
  (List.range regs).foldl (fun acc k => acc + (src s (r + k) lane).toNat * 2 ^ (32 * k)) 0

/-- Bytes a paired group is about to write enter its undo log (R355). -/
def logUndo (core a n : Nat) (s : State) : State :=
  if s.paired then
    match s.curGroup with
    | some g => s.updGroup g.gid fun g => { g with pair := g.pair.map fun p =>
        { p with check := { p.check with log :=
          ((List.range n).map fun i => (lsKey core (a + i), Memory.byte s.mem (lsKey core (a + i)))).reverse ++ p.check.log } } }
    | none => s
  else s

/-- The undo log has no room for `n` bytes more (R354, R355). -/
def undoFull (s : State) (n : Nat) : Bool :=
  s.paired && match s.curGroup with
    | some g => match g.pair with
      | some p => decide (65536 < p.check.log.length + n)
      | none => false
    | none => false

/-- The dirty mask of the holder's window takes the bytes written (R105). -/
def markDirty (a n : Nat) (w : Wave) : Wave :=
  match windowOf a with
  | none => w
  | some k => { w with leases := w.leases.map fun l =>
      if l.window = k then { l with dirty := l.dirty ||| BitVec.ofNat 128 ((2 ^ n - 1) * 2 ^ ((a - 0x2FE000) % 128)) } else l }

/-- `n` bytes of a value written to the current core's local store by the current agent. -/
def localStore (a n v : Nat) (s : State) : State :=
  let c := s.curCore
  let s := (logUndo c a n s).setLs c a n v
  match windowOf a, s.cur with
  | some _, .wave _ _ _ => s.updCurWave (markDirty a n)
  | _, _ => s

/-- Some lane's bytes hold an uncorrectable word (R166). -/
def lanesBad (s : State) (ls : List Nat) (addr : Nat → Word) (n : Nat) : Bool :=
  !s.badLs.isEmpty && ls.any fun l => lsBad s (lsKey s.curCore (addr l).toNat) n

def lanesRepair (s : State) (ls : List Nat) (addr : Nat → Word) (n : Nat) : State :=
  if s.badLs.isEmpty then s else ls.foldl (fun s l => lsRepair s (lsKey s.curCore (addr l).toNat) n) s

/-- Bank words that the lanes together overwrite whole (R166). -/
def lanesOverwrite (ls : List Nat) (addr : Nat → Word) (n : Nat) (s : State) : State :=
  if s.badLs.isEmpty then s else lsOverwriteCells s (ls.flatMap fun l => cellsOf (lsKey s.curCore (addr l).toNat) n 0)

/-- Addresses of local stores of a paired wave enter its fingerprint (R354). -/
def fingerAddresses (s : State) (ls : List Nat) (addr : Nat → Word) : State :=
  if s.paired then ls.foldl (fun s l => fingerprint s (addr l)) s else s

/-- A load: D-group of each active lane from its address. -/
def loadForm (i : Instr) (g : Guard) (sz : Sz) (d : RegNo) (addr : State → Nat → Word) (ok : State → Nat → Bool) (s : State) :
    Host.Outcome State Fault Refusal :=
  issue i (fun s =>
    let ls := active s g
    let a := addr s
    match checkAddresses ls a sz.bytes (ok s) (fun _ => false) with
    | some (c, f) => .trap c f s
    | none =>
      if lanesBad s ls a sz.bytes then .seal s
      else
        let v (l : Nat) : Nat := s.ls s.curCore (a l).toNat sz.bytes
        .done (putGroup (lanesRepair s ls a sz.bytes) ls d.toNat sz.regs fun l k => extendLoad sz (v l) k)) s

/-- The sum of A and a signed offset. -/
def baseOff (s : State) (a : RegNo) (off : Int) (l : Nat) : Word := src s a.toNat l + BitVec.ofInt 32 off

/-- `LD` (R173). -/
def execLd (g : Guard) (sz : Sz) (off : BitVec 16) (d : RegNo) (a : RegNo) (s : State) : Host.Outcome State Fault Refusal :=
  loadForm (.ld g sz off d a) g sz d (fun s l => baseOff s a off.toInt l) (fun s x => accessOk s true x sz.bytes) s

/-- `LDK` (R174). -/
def execLdk (g : Guard) (sz : Sz) (off : BitVec 16) (d : RegNo) (a : RegNo) (s : State) : Host.Outcome State Fault Refusal :=
  loadForm (.ldk g sz off d a) g sz d (fun s l => baseOff s a off.toInt l) (fun s x => constOk s x sz.bytes) s

/-- `LDIX` (R175). -/
def execLdix (g : Guard) (sz : Sz) (sh : BitVec 3) (d : RegNo) (a : RegNo) (b : RegNo) (s : State) :
    Host.Outcome State Fault Refusal :=
  loadForm (.ldix g sz sh d a b) g sz d (fun s l => src s a.toNat l + (src s b.toNat l <<< sh.toNat))
    (fun s x => accessOk s false x sz.bytes) s

/-- `ST` (R173): lanes in increasing order, so the higher lane's byte stays. -/
def execSt (g : Guard) (sz : Sz) (off : BitVec 16) (a : RegNo) (b : RegNo) (s : State) : Host.Outcome State Fault Refusal :=
  issue (.st g sz off a b) (fun s =>
    let ls := active s g
    let addr (l : Nat) : Word := baseOff s a off.toInt l
    match checkAddresses ls addr sz.bytes (fun x => accessOk s true x sz.bytes) (fun x => constWrite s x sz.bytes) with
    | some (c, f) => .trap c f s
    | none =>
      if undoFull s (ls.length * sz.bytes) then .wait 16 (s.updCurWave fun w => { w with stopped := true })
      else .done (lanesOverwrite ls addr sz.bytes
        (ls.foldl (fun t l => localStore (addr l).toNat sz.bytes (groupValue s b.toNat sz.regs l) t) (fingerAddresses s ls addr)))) s

/-- `ATL` (R176): lanes in increasing order, each reading what the ones before it left. -/
def execAtl (g : Guard) (aop : Aop) (scope : BitVec 3) (off : BitVec 10) (d : RegNo) (a : RegNo) (b : RegNo) (s : State) :
    Host.Outcome State Fault Refusal :=
  issue (.atl g aop scope off d a b) (fun s =>
    let ls := active s g
    let addr (l : Nat) : Word := baseOff s a off.toInt l
    match checkAddresses ls addr 4 (fun x => accessOk s false x 4) (fun x => constWrite s x 4) with
    | some (c, f) => .trap c f s
    | none =>
      if lanesBad s ls addr 4 then .seal s
      else if undoFull s (ls.length * 4) then .wait 16 (s.updCurWave fun w => { w with stopped := true })
      else
        let one (acc : State × List (Nat × Word)) (l : Nat) : State × List (Nat × Word) :=
          let old := BitVec.ofNat 32 (acc.1.ls acc.1.curCore (addr l).toNat 4)
          let new := atomicW aop old (src s b.toNat l) (src s (b.toNat + 1) l)
          (localStore (addr l).toNat 4 new.toNat acc.1, acc.2 ++ [(l, old)])
        let r := ls.foldl one (fingerAddresses (lanesRepair s ls addr 4) ls addr, [])
        .done (putLanes r.1 ls d.toNat fun l => ((r.2.find? fun q => q.1 == l).map (·.2)).getD 0)) s

end Sys2Proof.Machine
end

