-- ==== Sys2Proof/Machine/Control.lean ====
section
/-! DEFINITION. The meanings of the control instructions (R203-R208), group barriers (R214-R217), sleeps (R328), traps
(R338) and marks (R335). -/

namespace Sys2Proof.Machine

/-- The issuing split or climber continues elsewhere; what it had fetched is dropped (R165, R203). -/
def jumpTo (pc : Word) (s : State) : State :=
  match s.cur with
  | .climber _ _ => (continueAt pc s).updCurClimber fun c => { c with buf := [] }
  | .wave _ _ _ => (continueAt pc s).updCurSplit fun p => { p with buf := [] }
  | .none => s

/-- A new split takes lanes at a PC with a copy of the issuing split's stack. -/
def spawn (q : Nat) (m pc : Word) (s : State) : State :=
  match s.cur with
  | .wave c w p =>
    let depth := s.curSplit.depth
    (s.copyStack c w p q).updSplit c w q fun _ =>
      { live := true, pc := pc, mask := m, depth := depth, stamp := s.clk }
  | _ => s

/-- The issuing split pushes a path entry. It holds 22 bits of the PC, and the bits above of a target are dropped (R205, log 75). -/
def pushPath (m pc : Word) (tag : Nat) (s : State) : State :=
  match s.cur with
  | .wave c w p =>
    let d := s.curSplit.depth
    (s.setStackEntry c w p d { mask := m, tag := tag, rejoin := false, bar := false, pc := pc }).updCurSplit fun sp =>
      { sp with depth := d + 1 }
  | _ => s

/-- SPLIT_OVERFLOW (R200, R205). -/
def splitOverflow (s : State) : Exec := .trap 0x16 (s.curMask.setWidth 64) s

/-- Insertion into a rising list without repeats. -/
def insertNat (x : Nat) : List Nat → List Nat
  | [] => [x]
  | y :: ys => if x = y then y :: ys else if x < y then x :: y :: ys else y :: insertNat x ys

def sortNats (xs : List Nat) : List Nat := xs.foldr insertNat []

/-- Insertion by falling address; of two sets of one address the later in R205's list is pushed first, which R205 leaves open
(log 75). -/
def insertSet (x : Word × Word) : List (Word × Word) → List (Word × Word)
  | [] => [x]
  | y :: ys => if y.2.toNat < x.2.toNat then x :: y :: ys else y :: insertSet x ys

/-- The first set stays with the issuing split at its target; the others, lanes and address, go to free splits, lowest
first, and then onto the stack, highest address first (R200, R205). -/
def disperse (keep target : Word) (rest : List (Word × Word)) (tag : Nat) (s : State) : Exec :=
  let free := freeSplits s.curWave
  let held := (rest.drop free.length).foldr insertSet []
  if 8 < s.curSplit.depth + held.length then splitOverflow s
  else
    let s := (free.zip rest).foldl (fun s q => spawn q.1 q.2.1 q.2.2 s) s
    let s := held.foldl (fun s q => pushPath q.1 q.2 tag s) s
    .jump (jumpTo target (s.updCurSplit fun p => { p with mask := keep }))

/-- A branch of the lanes of `t` to `target`, the others falling through (R204, R208). -/
def branch (t target : Word) (tag : Nat) (s : State) : Exec :=
  let f := s.curMask &&& ~~~t
  if f = 0 then .jump (jumpTo target s)
  else if t = 0 then .jump (continueAt (s.curPc + 8) s)
  else disperse t target [(f, s.curPc + 8)] tag s

/-- PC + 8 × sext(DISP24). -/
def branchTarget (s : State) (disp : BitVec 24) : Word := s.curPc + (disp.signExtend 32 <<< 3)

/-- `BR` (R204). -/
def execBr (g : Guard) (disp : BitVec 24) (tag : BitVec 4) (uni : Bool) (s : State) : Host.Outcome State Fault Refusal :=
  issue (.br g disp tag uni) (fun s => branch (activeMask s g) (branchTarget s disp) tag.toNat s) s

/-- `CALL` (R204): the link is written only if the division succeeds. -/
def execCall (g : Guard) (disp : BitVec 24) (tag : BitVec 4) (uni : Bool) (d : RegNo) (s : State) :
    Host.Outcome State Fault Refusal :=
  issue (.call g disp tag uni d) (fun s =>
    match branch (activeMask s g) (branchTarget s disp) tag.toNat
        (putLanes s (active s g) d.toNat fun _ => s.curPc + 8) with
    | .trap c f _ => .trap c f s
    | e => e) s

/-- The transfer of `jmpi` and `ret` (R205, R208). -/
def transfer (g : Guard) (tag : BitVec 4) (a : RegNo) (s : State) : Exec :=
  let ls := active s g
  let v (l : Nat) : Word := src s a.toNat l
  match ls.find? fun l => (v l).toNat % 8 != 0 with
  | some l => .trap 0x06 ((v l).setWidth 64) s
  | none =>
    match sortNats (ls.map fun l => (v l).toNat) with
    | [] => .jump (continueAt (s.curPc + 8) s)
    | t :: ts =>
      let set (x : Nat) : Word × Word := (maskOf fun l => ls.contains l && (v l).toNat == x, BitVec.ofNat 32 x)
      let f := s.curMask &&& ~~~(activeMask s g)
      let rest := (if f = 0 then [] else [(f, s.curPc + 8)]) ++ ts.map set
      if rest.isEmpty then .jump (jumpTo (BitVec.ofNat 32 t) s)
      else disperse (set t).1 (set t).2 rest tag.toNat s

/-- `JMPI` (R205). -/
def execJmpi (g : Guard) (tag : BitVec 4) (a : RegNo) (s : State) : Host.Outcome State Fault Refusal :=
  issue (.jmpi g tag a) (transfer g tag a) s

/-- `RET` (R205). -/
def execRet (g : Guard) (tag : BitVec 4) (a : RegNo) (s : State) : Host.Outcome State Fault Refusal :=
  issue (.ret g tag a) (transfer g tag a) s

/-- The split's top stack entry. -/
def topEntry (s : State) : Option StackEntry :=
  match s.cur with
  | .wave c w p => if s.curSplit.depth = 0 then none else some (s.stackEntry c w p (s.curSplit.depth - 1))
  | _ => none

/-- The split runs the lanes of its top path entry, which becomes a rejoin entry for the lanes it had (R206, R216). -/
def exchange (e : StackEntry) (bar : Bool) (s : State) : State :=
  match s.cur with
  | .wave c w p =>
    let sp := s.curSplit
    let s := s.setStackEntry c w p (sp.depth - 1)
      { mask := sp.mask, tag := e.tag, rejoin := true, bar := bar, pc := s.curPc + 8 }
    jumpTo e.pc (s.updCurSplit fun p => { p with mask := e.mask })
  | _ => s

/-- The split takes back the lanes of its top entry. -/
def takeBack (e : StackEntry) (s : State) : State :=
  s.updCurSplit fun p => { p with mask := p.mask ||| e.mask, depth := p.depth - 1 }

/-- The split parks where it stands. -/
def parkAs (k : Park) (s : State) : State := s.updCurSplit fun p => { p with park := k }

/-- `JOIN` (R206). -/
def execJoin (tag : BitVec 4) (s : State) : Host.Outcome State Fault Refusal :=
  issue (.join tag) (fun s =>
    let here := Exec.jump (parkAs (.join s.clk) s)
    match topEntry s with
    | none => here
    | some e =>
      if e.tag ≠ tag.toNat then here
      else if !e.rejoin then .jump (exchange e false s)
      else if !e.bar && e.pc == s.curPc + 8 then .jump (continueAt (s.curPc + 8) (takeBack e s))
      else here) s

/-- `EXIT` (R207): a recorded failure traps first (R81, R128). -/
def execExit (g : Guard) (s : State) : Host.Outcome State Fault Refusal :=
  issue (.exit g) (fun s =>
    if s.dfValid s.curCore s.cur.slot then
      .trap (dfrCause (s.dfr s.curCore s.cur.slot)) (dfrAddr (s.dfr s.curCore s.cur.slot)) s
    else .jump (exitLanes (activeMask s g) s)) s

/-! Barriers. -/

/-- The checks of R217 for an arrival: the FADDR of BARRIER_MISMATCH. -/
def arrivalFault (s : State) (a b : Word) : Option DWord :=
  match s.curGroup with
  | none => none
  | some g =>
    let v := barrierOf g a.toNat
    if 16 ≤ a.toNat then some (a.setWidth 64)
    else if g.waves < b.toNat then some (b.setWidth 64)
    else if v.count.isSome && v.count != some b.toNat then some (b.setWidth 64)
    else if Sparse.get 0 v.masks s.curWave.index &&& s.curMask != 0 then some (b.setWidth 64)
    else none

/-- The generation of a barrier of the issuing group. -/
def barrierGen (s : State) (b : Nat) : Word :=
  match s.curGroup with
  | some g => (barrierOf g b).gen
  | none => 0

/-- The issuing split's lanes arrive. -/
def arrive (b n : Nat) (s : State) : State :=
  match s.curGroup with
  | some g => joinBarrier g s.curWave.index b n s.curMask s
  | none => s

/-- `BAR_SYNC` (R216). -/
def execBarSync (a : RegNo) (b : RegNo) (s : State) : Host.Outcome State Fault Refusal :=
  issue (.barSync a b) (fun s =>
    let l := firstLane s .none
    let x := src s a.toNat l
    let n := src s b.toNat l
    match arrivalFault s x n with
    | some f => .trap 0x1C f s
    | none =>
      let t := arrive x.toNat n.toNat s
      let completed := barrierGen t x.toNat != barrierGen s x.toNat
      let wait (u : State) : Exec :=
        if completed then .jump (continueAt (u.curPc + 8) u) else .jump (parkAs (.barrier x.toNat) u)
      match topEntry t with
      | none => wait t
      | some e =>
        if !e.rejoin then .jump (exchange e true t)
        else if e.bar && e.pc == t.curPc + 8 then wait (takeBack e t)
        else wait t) s

/-- `BAR_ARR` (R216). -/
def execBarArr (d : RegNo) (a : RegNo) (b : RegNo) (s : State) : Host.Outcome State Fault Refusal :=
  issue (.barArr d a b) (fun s =>
    let l := firstLane s .none
    let x := src s a.toNat l
    let n := src s b.toNat l
    match arrivalFault s x n with
    | some f => .trap 0x1C f s
    | none =>
      let gen := barrierGen s x.toNat
      .done (putLanes (arrive x.toNat n.toNat s) (active s .none) d.toNat fun _ => gen)) s

/-- `BAR_WAIT` (R216). -/
def execBarWait (a : RegNo) (b : RegNo) (s : State) : Host.Outcome State Fault Refusal :=
  issue (.barWait a b) (fun s =>
    let l := firstLane s .none
    let x := src s a.toNat l
    let passed := (barrierGen s x.toNat - src s b.toNat l).toNat
    if 16 ≤ x.toNat then .trap 0x1C (x.setWidth 64) s
    else if 1 ≤ passed && passed ≤ 2 ^ 31 then .done s
    else .wait 9 s) s

/-! Sleeping (R328). -/

/-- The split sleeps behind this instruction until `clk` reaches the target. -/
def sleepUntil (target : Nat) (s : State) : Exec :=
  .jump (parkAs (.sleep target) (continueAt (s.curPc + 8) s))

/-- `SLP_UNTIL` (R328). -/
def execSlpUntil (g : Guard) (a : RegNo) (s : State) : Host.Outcome State Fault Refusal :=
  issue (.slpUntil g a) (fun s => sleepUntil (src64 s a.toNat (firstLane s g)).toNat s) s

/-- `SLP_FOR` (R328). -/
def execSlpFor (g : Guard) (a : RegNo) (s : State) : Host.Outcome State Fault Refusal :=
  issue (.slpFor g a) (fun s => sleepUntil (s.clkAfter (src s a.toNat (firstLane s g)).toNat) s) s

/-- `YIELD` (R328). -/
def execYield (g : Guard) (s : State) : Host.Outcome State Fault Refusal :=
  issue (.yield g) (fun s =>
    let others := ((readySplits s s.curCore ++ heldSplits s s.curCore).map fun q => q.1 * 4 + q.2).filter (· != s.cur.slot * 4 + s.cur.split)
    .jump (parkAs (.yield others s.clk) (continueAt (s.curPc + 8) s))) s

/-! Traps. -/

/-- FADDR of `trap` and `brk`: the active mask and the code. -/
def codeFaddr (s : State) (g : Guard) (code : BitVec 16) : DWord := activeMask s g ++ code.setWidth 32

/-- `TRAP` (R338). -/
def execTrap (g : Guard) (code : BitVec 16) (s : State) : Host.Outcome State Fault Refusal :=
  issue (.trap g code) (fun s => .trap 0x12 (codeFaddr s g code) s) s

/-- `BRK` (R338). -/
def execBrk (g : Guard) (code : BitVec 16) (s : State) : Host.Outcome State Fault Refusal :=
  issue (.brk g code) (fun s => .trap 0x13 (codeFaddr s g code) s) s

/-- `ERET` (R338). -/
def execEret (s : State) : Host.Outcome State Fault Refusal :=
  issue .eret (fun s =>
    if s.curWave.tm then .jump (returnFromTrap s.curCore s.cur.slot s) else .trap 0x01 s.ir s) s

/-- `NOP` (R338). -/
def execNop (g : Guard) (s : State) : Host.Outcome State Fault Refusal :=
  issue (.nop g) (fun s => .done s) s

/-! Samples and marks (R333-R335). -/

/-- A sample record (R334). -/
def sampleBits (code why cls split wave pc clk : Nat) : Nat :=
  code % 2 ^ 16 * 2 ^ 69 + why % 32 * 2 ^ 64 + cls % 4 * 2 ^ 62 + split % 4 * 2 ^ 60 + wave % 16 * 2 ^ 56 +
    pc % 2 ^ 24 * 2 ^ 32 + clk % 2 ^ 32

/-- A record is written at SAMPBUF + 16 NEXT, or counted in SAMPDROP, saturating, when the buffer is full. -/
def writeSample (core rec : Nat) (s : State) : State :=
  let c := s.core core
  let next := c.sampctl.toNat / 256
  if next < c.samplen.toNat then
    (s.setLs core (c.sampbuf.toNat + 16 * next) 16 rec).updCore core fun c => { c with sampctl := c.sampctl + 256 }
  else s.updCore core fun c => { c with sampdrop := if c.sampdrop = 0xFFFFFFFF then c.sampdrop else c.sampdrop + 1 }

/-- `MARK` (R335). -/
def execMark (g : Guard) (code : BitVec 16) (s : State) : Host.Outcome State Fault Refusal :=
  issue (.mark g code) (fun s =>
    if !s.cur.isClimber && (s.core s.curCore).sampctl.getLsbD 1 then
      .done (writeSample s.curCore
        (sampleBits code.toNat 0 3 s.cur.split s.cur.slot s.curPc.toNat s.clk) s)
    else .done s) s

end Sys2Proof.Machine
end

