-- ==== Sys2Proof/Machine/Csr.lean ====
section
/-! DEFINITION. Control and status registers (R63, R108, R168, R169, R194, R329-R332), their writes as steps of their own,
and sampling (R333, R334, R385). -/

namespace Sys2Proof.Machine

/-- STATUS of the issuing wave (R331). -/
def statusWord (s : State) : Word :=
  let w := s.curWave
  BitVec.ofNat 32 (w.tm.toNat + s.privileged.toNat * 2 + s.paired.toNat * 4 + w.block.isSome.toNat * 8 +
    (s.dfValid s.curCore s.cur.slot).toNat * 16 + (s.dmValid s.curCore s.cur.slot).toNat * 32)

/-- BOOTSTAT (R330). -/
def bootWord (s : State) : Word :=
  BitVec.ofNat 32 (s.fails % 256 * 2 ^ 16 + s.why % 256 * 2 ^ 8 + s.min.toNat * 2 + s.up.toNat)

/-- A CSR as the issuing wave reads it. -/
def csrRead (s : State) (n : Nat) : Word :=
  let save (off n : Nat) : Word := BitVec.ofNat 32 (s.ls s.curCore (saveArea s.cur.slot + off) n)
  let grp (f : Group → Word) : Word := match s.curGroup with
    | some g => f g
    | none => 0
  let c := s.core s.curCore
  match n with
  | 0x000 => statusWord s
  | 0x001 => s.curWave.fstat
  | 0x002 => grp (·.tvec)
  | 0x003 => save 16 4
  | 0x004 => save 15 1
  | 0x005 => save 24 4
  | 0x006 => save 28 4
  | 0x007 => save 20 4
  | 0x018 => save 128 4
  | 0x019 => save 132 4
  | 0x020 => grp (·.cregb)
  | 0x021 => grp (·.cregl)
  | 0x022 => grp (·.ifw)
  | 0x023 => grp (·.ifh)
  | 0x024 => grp (·.coalt)
  | 0x040 => c.xbnd
  | 0x041 => c.leasemax
  | 0x042 => c.fpint
  | 0x043 => c.pairctl
  | 0x050 => c.mchk
  | 0x060 => c.sampctl
  | 0x061 => c.sampper
  | 0x062 => c.sampbuf
  | 0x063 => c.samplen
  | 0x064 => c.sampdrop
  | 0x080 => bootWord s
  | _ =>
    if 0x008 ≤ n && n < 0x00C then s.curWave.scr.getD (n - 0x008) 0
    else if 0x010 ≤ n && n < 0x018 then save (96 + 4 * (n - 0x010)) 4
    else 0

/-- What a write of a CSR does: the new state, or the cause and FADDR it raises without being performed. -/
abbrev CsrWrite := Except (Nat × DWord) State

/-- The deferred-fault record is cleared whole (R330). -/
def clearDfr (s : State) : State :=
  (s.setDfr s.curCore s.cur.slot 0).updCurWave fun w => { w with failed := [] }

/-- TVEC (R330). -/
def writeTvec (v : Word) (s : State) : CsrWrite :=
  if v &&& ~~~0x003FFFF8 != 0 then .error (0x05, v.setWidth 64)
  else .ok (s.updGroup s.curWave.gid fun g => { g with tvec := v })

/-- CREGB and CREGL (R169). -/
def writeCreg (len : Bool) (v : Word) (s : State) : CsrWrite :=
  match s.curGroup with
  | none => .ok s
  | some g =>
    let b := if len then g.cregb else v
    let l := if len then v else g.cregl
    if v &&& ~~~0x003FFF80 != 0 || (l != 0 && !inRange b.toNat l.toNat g.pb g.pl) then .error (0x05, v.setWidth 64)
    else .ok (s.updGroup g.gid fun g => { g with cregb := b, cregl := l })

/-- IFW and IFH (R194). -/
def writeIf (h : Bool) (v : Word) (s : State) : CsrWrite :=
  let size := v.toNat / 256 % 64
  let start := v.toNat % 32
  let limit := if h then 20 else 32
  let reserved : Word := if h then ~~~0x00001F1F else ~~~0x00003F1F
  if v &&& reserved != 0 || size == 0 || limit < size || limit < start + size then .error (0x17, v.setWidth 64)
  else .ok (s.updGroup s.curWave.gid fun g => if h then { g with ifh := v } else { g with ifw := v })

/-- XBND (R168). -/
def writeXbnd (v : Word) (s : State) : CsrWrite :=
  let xb := v.toNat / 4096 % 1024
  if 2 ^ 22 ≤ v.toNat || xb == 0 || 0x2EF < xb then .ok s
  else .ok (s.updCore s.curCore fun c => { c with xbnd := BitVec.ofNat 32 (xb * 4096) })

/-- LEASEMAX (R108). -/
def writeLeasemax (v : Word) (s : State) : CsrWrite :=
  .ok (s.updCore s.curCore fun c => { c with leasemax := BitVec.ofNat 32 (max 16 (min v.toNat 512)) })

/-- FPINT (R330). -/
def writeFpint (v : Word) (s : State) : CsrWrite :=
  .ok (s.updCore s.curCore fun c => { c with fpint := BitVec.ofNat 32 (max 64 (min v.toNat 65536)) })

/-- SAMPCTL (R333); a change of EN from 0 to 1 starts the sampling anew (R385). -/
def writeSampctl (v : Word) (s : State) : CsrWrite :=
  let c := s.core s.curCore
  if v &&& 0xFC != 0 then .error (0x05, v.setWidth 64)
  else if v.getLsbD 0 && (c.sampbuf.toNat < c.xbnd.toNat || 0x2F0000 < c.sampbuf.toNat + 16 * c.samplen.toNat) then
    .error (0x05, v.setWidth 64)
  else .ok (s.updCore s.curCore fun c =>
    if v.getLsbD 0 && !c.sampctl.getLsbD 0 then { c with sampctl := v, sampled := 15, sampledAt := s.clk }
    else { c with sampctl := v })

/-- A CSR with no behaviour of its own. -/
def writePlain (n : Nat) (v : Word) (s : State) : CsrWrite :=
  let onCore (f : Core → Core) : CsrWrite := .ok (s.updCore s.curCore f)
  match n with
  | 0x001 => .ok (s.updCurWave fun w => { w with fstat := v &&& 0x7F })
  | 0x003 => .ok (s.setLs s.curCore (saveArea s.cur.slot + 16) 4 (v &&& 0x003FFFF8).toNat)
  | 0x024 => .ok (s.updGroup s.curWave.gid fun g => { g with coalt := v })
  | 0x061 => onCore fun c => { c with sampper := v, sampledAt := s.clk }
  | 0x062 => onCore fun c => { c with sampbuf := v }
  | 0x063 => onCore fun c => { c with samplen := v }
  | 0x064 => onCore fun c => { c with sampdrop := v }
  | _ =>
    if 0x008 ≤ n && n < 0x00C then .ok (s.updCurWave fun w => { w with scr := w.scr.set (n - 0x008) v })
    else .ok s

/-- A write of a CSR under its rule (R332). -/
def csrWrite (n : Nat) (v : Word) (s : State) : CsrWrite :=
  match n with
  | 0x002 => writeTvec v s
  | 0x010 => .ok (clearDfr s)
  | 0x020 => writeCreg false v s
  | 0x021 => writeCreg true v s
  | 0x022 => writeIf false v s
  | 0x023 => writeIf true v s
  | 0x040 => writeXbnd v s
  | 0x041 => writeLeasemax v s
  | 0x042 => writeFpint v s
  | 0x060 => writeSampctl v s
  | _ => writePlain n v s

/-- The wave has accepted `mma` that have not executed. -/
def mmaPending (s : State) : Bool := (s.core s.curCore).mma.any fun q => q.slot == s.cur.slot

/-- `csr` (R332): the old value into D, the new one from it and A of the lowest active lane; it waits for the results of
earlier instructions, those of `mma` among them. -/
def csrForm (i : Instr) (g : Guard) (n : BitVec 12) (d : RegNo) (new : Word → Option Word) (s : State) :
    Host.Outcome State Fault Refusal :=
  issue i (fun s =>
    if !s.pending.isEmpty || mmaPending s then .wait 16 s
    else
      let old := csrRead s n.toNat
      let out (t : State) : Exec := .done (putLanes t (active s g) d.toNat fun _ => old)
      match new old with
      | none => out s
      | some v => match csrWrite n.toNat v s with
        | .error (c, f) => .trap c f s
        | .ok t => out t) s

/-- A of the lowest active lane. -/
def leadA (s : State) (g : Guard) (a : RegNo) : Word := src s a.toNat (firstLane s g)

/-- `CSR_RD` (R332). -/
def execCsrRd (g : Guard) (csr : BitVec 12) (d : RegNo) (s : State) : Host.Outcome State Fault Refusal :=
  csrForm (.csrRd g csr d) g csr d (fun _ => none) s

/-- `CSR_WR` (R332). -/
def execCsrWr (g : Guard) (csr : BitVec 12) (d : RegNo) (a : RegNo) (s : State) : Host.Outcome State Fault Refusal :=
  csrForm (.csrWr g csr d a) g csr d (fun _ => some (leadA s g a)) s

/-- `CSR_SET` (R332). -/
def execCsrSet (g : Guard) (csr : BitVec 12) (d : RegNo) (a : RegNo) (s : State) : Host.Outcome State Fault Refusal :=
  csrForm (.csrSet g csr d a) g csr d (fun old => some (old ||| leadA s g a)) s

/-- `CSR_CLR` (R332). -/
def execCsrClr (g : Guard) (csr : BitVec 12) (d : RegNo) (a : RegNo) (s : State) : Host.Outcome State Fault Refusal :=
  csrForm (.csrClr g csr d a) g csr d (fun old => some (old &&& ~~~(leadA s g a))) s

/-! The writes as steps of their own, for the split named: the instructions above perform the same operations. -/

/-- A write for a split; one that is not performed raises its cause in it. -/
def csrEvent (core slot p : Nat) (f : State → CsrWrite) (s : State) : State :=
  let t := { s with cur := .wave core slot p }
  { (match f t with
     | .ok u => u
     | .error (c, x) => raiseCause c x t) with cur := .none }

/-- `DFR0_CLEAR`: core, slot. -/
def execDfr0Clear (s : State) : Host.Outcome State Fault Refusal :=
  event (fun s => match s.nums with
    | [c, w] => csrEvent c w 0 (fun t => .ok (clearDfr t)) s
    | _ => s) s

/-- `TVEC_WRITE`: core, slot, split, value. -/
def execTvecWrite (s : State) : Host.Outcome State Fault Refusal :=
  event (fun s => match s.nums with
    | [c, w, p, v] => csrEvent c w p (writeTvec (BitVec.ofNat 32 v)) s
    | _ => s) s

/-- `CREG_WRITE`: core, slot, split, 1 for CREGL, value. -/
def execCregWrite (s : State) : Host.Outcome State Fault Refusal :=
  event (fun s => match s.nums with
    | [c, w, p, l, v] => csrEvent c w p (writeCreg (l == 1) (BitVec.ofNat 32 v)) s
    | _ => s) s

/-- `IFW_IFH_WRITE`: core, slot, split, 1 for IFH, value. -/
def execIfwIfhWrite (s : State) : Host.Outcome State Fault Refusal :=
  event (fun s => match s.nums with
    | [c, w, p, h, v] => csrEvent c w p (writeIf (h == 1) (BitVec.ofNat 32 v)) s
    | _ => s) s

/-- `XBND_WRITE`: core, slot, split, value. -/
def execXbndWrite (s : State) : Host.Outcome State Fault Refusal :=
  event (fun s => match s.nums with
    | [c, w, p, v] => csrEvent c w p (writeXbnd (BitVec.ofNat 32 v)) s
    | _ => s) s

/-- `LEASEMAX_WRITE`: core, slot, split, value. -/
def execLeasemaxWrite (s : State) : Host.Outcome State Fault Refusal :=
  event (fun s => match s.nums with
    | [c, w, p, v] => csrEvent c w p (writeLeasemax (BitVec.ofNat 32 v)) s
    | _ => s) s

/-- `FPINT_WRITE`: core, slot, split, value. -/
def execFpintWrite (s : State) : Host.Outcome State Fault Refusal :=
  event (fun s => match s.nums with
    | [c, w, p, v] => csrEvent c w p (writeFpint (BitVec.ofNat 32 v)) s
    | _ => s) s

/-- `SAMPCTL_WRITE`: core, slot, split, value. -/
def execSampctlWrite (s : State) : Host.Outcome State Fault Refusal :=
  event (fun s => match s.nums with
    | [c, w, p, v] => csrEvent c w p (writeSampctl (BitVec.ofNat 32 v)) s
    | _ => s) s

/-- `CSR_PLAIN_WRITE`: core, slot, split, CSR number, value. -/
def execCsrPlainWrite (s : State) : Host.Outcome State Fault Refusal :=
  event (fun s => match s.nums with
    | [c, w, p, n, v] => csrEvent c w p (writePlain n (BitVec.ofNat 32 v)) s
    | _ => s) s

/-! Sampling (R333, R334, R385). -/

/-- The reason code of a split that is not ready. -/
def whyNot (s : State) (core slot p : Nat) : Nat :=
  let w := s.wave core slot
  match (w.splits.getD p {}).park with
  | .join _ => 10
  | .barrier _ => 9
  | .sleep _ => 8
  | .yield _ _ => 16
  | .waiting why => why
  | .running =>
    if heldByTrap s core slot p || heldByBlock w p then 15
    else if !fetched s core slot p then 6
    else 5

/-- Where the sampled split stands: a sleeping or yielding one still at the instruction it sleeps in. -/
def samplePc (sp : Split) : Nat := match sp.park with
  | .sleep _ => (sp.pc - 8).toNat
  | .yield _ _ => (sp.pc - 8).toNat
  | _ => sp.pc.toNat

/-- The structural stall that may hold a word (R313): the port of the local store, the matrix unit, the NI's injection queue. -/
def stallOf (w : DWord) : Option Nat :=
  let maj := w.toNat / 2 ^ 56
  if 0x40 ≤ maj && maj ≤ 0x44 then some 1
  else if 0x62 ≤ maj && maj ≤ 0x65 then some 2
  else if (0x45 ≤ maj && maj ≤ 0x47) || maj = 0x4A then some 4
  else none

/-- Class and WHY of a ready split that did not issue (R385): held by the stall that its park gives, or, where its word may meet one,
by that or by none, which is timing and so free (log 23). -/
def readyClass (s : State) (sp : Split) : Nat × Nat := match sp.park, (wordAt sp.buf sp.pc.toNat).bind stallOf with
  | .waiting k, _ => (2, k)
  | _, some k => if Config.freeNat s.nonce % 2 = 0 then (2, k) else (1, 0)
  | _, none => (1, 0)

/-- The cycle of a core's island in which `clk` reaches a count. -/
def islandCycle (s : State) (core t : Nat) : Nat := t * s.mhz (islandOf core) / 2000

/-- The record of a wave at an instant: the split that issued in the cycle in which `clk` reaches it, else a ready one, else any. -/
def sampleOf (s : State) (core slot at_ : Nat) : Option Nat :=
  let w := s.wave core slot
  let live := (List.range 4).filter fun p => (w.splits.getD p {}).live
  let ready := allSplits.filter fun q => q.1 == slot && (readySplits s core ++ heldSplits s core).contains q
  let issued := match (s.core core).lastIssue with
    | some (v, p, pc, t) => if v = slot && islandCycle s core t = islandCycle s core at_ then some (p, pc) else none
    | none => none
  match issued with
  | some (p, pc) => some (sampleBits 0 0 0 p slot pc at_)
  | none =>
    match ready with
    | q :: _ =>
      let sp := w.splits.getD q.2 {}
      some (sampleBits 0 (readyClass s sp).2 (readyClass s sp).1 q.2 slot sp.pc.toNat at_)
    | [] => match live with
      | [] => none
      | p :: _ => some (sampleBits 0 (whyNot s core slot p) 2 p slot (samplePc (w.splits.getD p {})) at_)

/-- The next sampling instant of a core, if sampling is on. -/
def nextSample (c : Core) : Option Nat :=
  let per := c.sampper.toNat
  if c.sampctl.getLsbD 0 && decide (16 ≤ per) then some ((c.sampledAt / per + 1) * per % 2 ^ 64) else none

/-- The cycle of a core's sampling instant is over: its sample is taken before anything else happens (log 23). -/
def sampleDue (s : State) (core : Nat) : Bool := match nextSample (s.core core) with
  | some t => s.reached t && islandCycle s core t != islandCycle s core s.clk
  | none => false

/-- The resident wave slot after the last one sampled, in cyclic order. -/
def nextSampled (s : State) (core : Nat) : Option Nat :=
  ((List.range 16).map fun i => ((s.core core).sampled + 1 + i) % 16).find? fun w => (s.wave core w).live

/-- `SAMPLE_INSTANT`: core. -/
def execSampleInstant (s : State) : Host.Outcome State Fault Refusal :=
  event (fun s => match s.nums with
    | [core] => match nextSample (s.core core) with
      | none => s
      | some at_ =>
        if !s.reached at_ then s
        else
          let s := s.updCore core fun c => { c with sampledAt := at_ }
          match nextSampled s core with
          | none => s
          | some w =>
            let s := s.updCore core fun c => { c with sampled := w }
            match sampleOf s core w at_ with
            | none => s
            | some rec => writeSample core rec s
    | _ => s) s

end Sys2Proof.Machine
end

