-- ==== Sys2Proof/Machine/Traffic.lean ====
section
/-! DEFINITION. Memory traffic: pointers of asynchronous operations and where they lead (R156, R260, R269, R345), what homes
and NIs do with posted stores, atomics, reductions and watches (R95, R155, R262, R273), and the replies. -/

namespace Sys2Proof.Machine

/-! Pointers. -/

/-- The check that `atm`, `red`, `pst`, `bind`, `rel` and `acq` make of a pointer (R156, R269). -/
def accessCause (s : State) (size : Nat) (p : DWord) : Option Nat :=
  if ptrKind p = 3 || (ptrKind p = 0 && p.toNat / 2 ^ 57 ≠ 0) then some 0x17
  else if ptrKind p = 2 && !s.privileged then some 0x18
  else if ptrKind p = 1 && (s.frameOf s.curLid (ptrCore p)).isNone then some 0x17
  else if ptrKind p = 2 && !coreExists (ptrCore p) then some 0x17
  else if p.toNat % size ≠ 0 then some 0x06
  else if ptrKind p ≠ 0 && 0x2F0000 < ptrLow p + size then some 0x05
  else none

/-- The trap of a lane whose pointer fails. -/
def pointerTrap (s : State) (size : Nat) (p : DWord) : Option (Nat × DWord) := (accessCause s size p).map fun c => (c, p)

/-- Where an operation goes: memory key, key index, execution point, and whether that is a die-homed HBM page with device
bias. -/
structure Aim where
  key : Nat
  slot : Nat
  point : Nat
  die : Bool := false

/-- A checked pointer resolved, device pointers by translation at the core's hall unit (R77); a failure gives the cause and the
reason of R80. -/
def aim (s : State) (p : DWord) (need : Nat) : State × Except (Nat × Nat) Aim :=
  if ptrKind p = 0 then
    match translate s (hallOf s.curCore) s.curCtx p.toNat need with
    | (t, .error r) => (t, .error (causeOf r, r))
    | (t, .ok tr) => (t, .ok ⟨tr.dpa, pteKey tr.pte, pointOf t tr.dpa tr.pte,
        dpaSpace tr.dpa == 0 && !pteBit tr.pte 7 && pteHs tr.pte == 1⟩)
  else match lsTarget s s.curLid p with
    | none => (s, .error (0x17, 0))
    | some (k, slot) => (s, .ok ⟨k, slot, pointOf s k 0, false⟩)

/-- The key of a device message that its hall unit has not yet translated (R156): its bytes are given as VAs from it on. -/
def farKey : Nat := 2 ^ 66

/-- The same of a `pst`, `atm` or `red`: a device pointer is translated at the hall unit later (R77, R156). -/
def aimLater (s : State) (p : DWord) (need : Nat) : State × Except (Nat × Nat) Aim :=
  if ptrKind p = 0 then (s, .ok ⟨farKey, 0, 0, false⟩) else aim s p need

/-- The entries that a walk for a VA would read stand in lines that no request, lease or page operation holds (R78). -/
def walkFree (s : State) (hall ctx va : Nat) : Bool :=
  (cached (s.hall hall) ctx va).isSome ||
    (walkReads s (s.hall hall).walks ctx va walkLevels (s.root ctx)).all fun a =>
      unitFree s (lineOf a) 0 (packageHall (lineOf a % 2 ^ 33))

/-- The same for the issuing core's hall unit and launch. -/
def walkHere (s : State) (p : DWord) : Bool := ptrKind p != 0 || walkFree s (hallOf s.curCore) s.curCtx p.toNat

/-- The issuer of the current instruction, for a lane. -/
def issuerOf (s : State) (maj lane : Nat) : Issuer :=
  { core := s.curCore, slot := s.cur.slot, climber := s.cur.isClimber, split := s.cur.split, lane := lane
    pc := s.curPc.toNat, maj := maj }

/-- A message leaves its core; a paired group holds it until its interval matches (R355). -/
def send (op : Instr) (m : Msg) (s : State) : State :=
  if s.paired then
    s.updGroup s.curWave.gid fun g => { g with pair := g.pair.map fun p => { p with held := p.held ++ [⟨op, .msg m⟩] } }
  else s.post op (.msg m)

/-! Replies. -/

/-- The message acts on a pool line. -/
def onPool (m : Msg) : Bool := decide (m.tgt < 2 ^ 56) && dpaSpace m.tgt == 2

/-- A store is applied: one on a pool line is complete up to device scope, and at pool scope once the line is written to the pool
device (R262; log 76). -/
def acked (m : Msg) (s : State) : State :=
  if !isAgent m.src then s
  else if onPool m then
    (s.updLine (lineOf m.tgt) fun x => { x with unwritten := x.unwritten ++ [(m.src, m.id)] }).postAll [ackMsg m true]
  else s.postAll [ackMsg m false]

/-- An operation has failed: a waiting instruction is answered with the cause, any other gets a fault reply. -/
def refuse (m : Msg) (cause reason : Nat) (s : State) : State :=
  if m.src.slot = niSlot then s.postAll [niFault m.src.core m.group (m.arg2.setWidth 128) (niFailure cause reason)]
  else if !isAgent m.src then s
  else if m.kind = 1 then s.postAll [answerMsg m 0 (cause + 256 * reason)]
  else s.postAll [faultMsg m cause reason]

def homeFail (m : Msg) (reason : Nat) (s : State) : State := refuse m (causeOf reason) reason s

/-! At a home (R95, R260). -/

/-- A posted store or publish of one line. -/
def homePosted (m : Msg) (s : State) : State :=
  match lineFault s m.tgt m.key with
  | some r => homeFail m r s
  | none => match homeWrite s (lineOf m.tgt) m.key m.point m.bytes m.src m.id with
    | none => homeFail m 5 s
    | some t => acked m t

def opBytes (m : Msg) : Nat := if m.sz = .d then 8 else 4

/-- The new value of an atomic or reduction message on `old`. -/
def opNew (m : Msg) (old : Nat) : Nat := atomicNew m.sz m.aop old m.arg.toNat m.arg2.toNat

/-- The result of an `atm` and its acknowledgement, that of a `red`, or the answer of a `rel`. -/
def replies (result : Bool) (m : Msg) (old new : Nat) : List Task :=
  if m.kind = 1 then [answerMsg m new 0]
  else (if result then [⟨.atomicResult, .msg { m with arg := BitVec.ofNat 128 old, kind := 0 }⟩] else []) ++ [ackMsg m false]

/-- What an atomic or reduction gets when the pool link behind its line is lost before the line is written (R86). -/
def lostReplies (m : Msg) : List Task :=
  if m.kind = 1 then [answerMsg m 0 (reasonCause 6)] else [faultMsg m (causeOf 6) 6]

/-- The replies to an atomic or reduction leave: at a pool line, whose scope in effect is pool, once the line has been written to
the pool device (R260, R262, R391). -/
def opReply (result : Bool) (m : Msg) (old new : Nat) (s : State) : State :=
  if !isAgent m.src then s
  else if onPool m then s.updLine (lineOf m.tgt) fun x => { x with owed := x.owed ++ [⟨replies result m old new, lostReplies m⟩] }
  else s.postAll (replies result m old new)

/-- An atomic or reduction executes at its home, whole. -/
def homeAtomic (result : Bool) (m : Msg) (s : State) : State :=
  match readFault s m.tgt m.key with
  | some r => homeFail m r s
  | none =>
    let old := s.devRead m.tgt (opBytes m) m.key
    match homeWrite s (lineOf m.tgt) m.key m.point (cellsOf m.tgt (opBytes m) (opNew m old)) m.src m.id with
    | none => homeFail m 5 s
    | some t => opReply result m old (opNew m old) t

/-! At an NI (R155, R156). -/

/-- Bytes of one line written by an NI in a local store or an image, and in the partner's of a paired core (R355). -/
def niWrite (cells : List Host.Cell) (s : State) : State :=
  match cells with
  | [] => s
  | (k, _) :: _ =>
    let s := pokeUnder k (s.lineSlot (lineOf k)) cells s
    match (if isLsKey k then mirrorOf s (keyCore k) else none) with
    | none => s
    | some p => { s with mem := Memory.writeCells s.mem (cells.map fun c => (lsKey p (c.1 % 2 ^ 35), c.2)) }

/-- The cause with which an NI refuses an operation on [off, off + n) of a core: below XBND, or in its constant region. -/
def niRefuses (s : State) (core off n : Nat) : Option Nat :=
  if off < s.xbnd core then some 0x05 else if touchesConst s core off n then some 0x07 else none

/-- The same for `n` bytes at a key; a saved group's image refuses nothing (R345). -/
def keyRefuses (s : State) (k n : Nat) : Option Nat :=
  if isLsKey k then niRefuses s (keyCore k) (k % 2 ^ 35) n else none

/-- The message names a core of a package outside the domain, which it cannot reach (R365, R389). -/
def outside (s : State) (m : Msg) : Bool := isLsKey m.tgt && !s.inDomain (corePkg (keyCore m.tgt))

/-- The message cannot be delivered: its core lies in a package that no route reaches, or is out of service (R151, R365). -/
def farOff (s : State) (m : Msg) : Bool := outside s m || targetSealed s m

/-- The notice of such a message; that of an unreachable package has reason 7 (R365). -/
def lostNotice (s : State) (m : Msg) : Task := undeliverable (if outside s m then { m with reason := 7 } else m)

/-- Why an operation on a saved group's image fails at the line's home: its image is memory like any other (R67, R345). -/
def imageFault (s : State) (m : Msg) : Option Nat := if isLsKey m.tgt then none else readFault s m.tgt m.key

/-- A posted store at an NI. -/
def niPosted (m : Msg) (s : State) : State :=
  if farOff s m then s.postAll [lostNotice s m]
  else match m.bytes.findSome? (fun c => keyRefuses s c.1 1), imageFault s m with
    | some c, _ => refuse m c 0 s
    | none, some r => homeFail m r s
    | none, none => acked m (lsOverwriteCells (niWrite m.bytes s) m.bytes)

/-- An atomic or reduction at an NI. -/
def niAtomic (result : Bool) (m : Msg) (s : State) : State :=
  if farOff s m then s.postAll [lostNotice s m]
  else match keyRefuses s m.tgt (opBytes m), imageFault s m with
    | some c, _ => refuse m c 0 s
    | none, some r => homeFail m r s
    | none, none => niTouch s m.tgt (opBytes m) fun s =>
        let old := s.peek m.tgt (opBytes m)
        opReply result m old (opNew m old) (niWrite (cellsOf m.tgt (opBytes m) (opNew m old)) s)

/-! Watches (R273). -/

/-- (G − t) mod 2^32 < 2^31. -/
def watchMet (g t : Word) : Bool := decide ((g - t).toNat < 2 ^ 31)

/-- The word a watch looks at. -/
def watchWord (s : State) (k slot : Nat) : Word := BitVec.ofNat 32 (s.keyRead k 4 slot)

/-- A watch arrives at its execution point: it is answered, held in one of 64 entries, or answered with retry and sent
again 64 cycles later. -/
def watchArrives (m : Msg) (s : State) : State :=
  if farOff s m then s.postAll [lostNotice s m]
  else match keyRefuses s m.tgt 4, (if isLsKey m.tgt then none else readFault s m.tgt m.key) with
    | some c, _ => refuse m c 0 s
    | _, some r => homeFail m r s
    | none, none => niTouch s m.tgt 4 fun s =>
        let g := watchWord s m.tgt m.key
        if watchMet g m.imm then s.postAll [answerMsg m g.toNat 0]
        else if 64 ≤ (s.watches.filter fun w => w.point == m.point).length then
          s.postAll [⟨.watchRetry, .msg { m with due := s.clkAfter (64 * 2000 / s.mhz (islandOf m.src.core)) }⟩]
        else { s with watches := s.watches ++ [⟨m.tgt, m.key, m.point, m.imm, m.src, m.id⟩] }

/-- A held watch that is met is answered. -/
def watchFires (w : Watch) (s : State) : State :=
  { s with watches := s.watches.erase w }.postAll
    [answerMsg { src := w.src, id := w.id } (watchWord s w.key w.slot).toNat 0]

/-- `WATCH_RETRY`: the issuing NI sends the watch again. -/
def execWatchRetry (s : State) : Host.Outcome State Fault Refusal :=
  onMsg (fun m s => if s.reached m.due then s.post .watch (.msg { m with sseq := none }) else s.post .watchRetry (.msg m)) s

/-! Replies arriving. -/

/-- The same issuer on the partner core of a paired group (R355). -/
def partnerOf (s : State) (i : Issuer) : Option Issuer :=
  if i.climber then none else (mirrorOf s i.core).map fun c => { i with core := c }

/-- Something done for an issuer, and for its partner. -/
def forBoth (i : Issuer) (f : Issuer → State → State) (s : State) : State :=
  match partnerOf s i with
  | none => f i s
  | some j => f j (f i s)

/-- The scoreboarded registers of an `atm` receive their values (R269). -/
def writeResult (m : Msg) (i : Issuer) (s : State) : State :=
  let part (k : Nat) : Word := BitVec.ofNat 32 (m.arg.toNat / 2 ^ (32 * (m.dst.findIdx (· == k))))
  if i.climber then
    if awaits m.group m.dst (s.climber i.core i.slot).atms then
      ((realRegs m.dst).foldl (fun s k => s.setCreg i.core i.slot (k / 32) (part k)) s).updClimber i.core i.slot fun c =>
        { c with atms := dropPending m.group m.dst c.atms }
    else s
  else if awaits m.group m.dst (s.wave i.core i.slot).atms then
    let kept (r : Nat × List (Nat × Word)) : Nat × List (Nat × Word) :=
      if r.1 = i.slot then (r.1, (realRegs m.dst).foldl (fun x k => Sparse.set 0 x k (part k)) r.2) else r
    let s := updCheckpoint i.core i.slot (fun c => { c with regs := c.regs.map kept }) s
    updWaveKept i.core i.slot (fun w => { w with atms := dropPending m.group m.dst w.atms })
      ((realRegs m.dst).foldl (fun s k => s.setVreg i.core i.slot (k / 32) (k % 32) (part k)) s)
  else s

/-- `ATOMIC_RESULT`: form 0 writes registers, form 1 answers a waiting instruction. A sealed core writes none (R349). -/
def execAtomicResult (s : State) : Host.Outcome State Fault Refusal :=
  onMsg (fun m s => forBoth m.src (fun i s =>
    if (s.core i.core).sealed then s
    else if m.kind = 1 then answer s i m.id m.arg.toNat m.reason else writeResult m i s) s) s

/-- `FAULT_REPLY` (R81, R390). -/
def execFaultReply (s : State) : Host.Outcome State Fault Refusal :=
  onMsg (fun m s => forBoth m.src (fun i s => failOp s { m with src := i } m.kind m.reason) s) s

/-! Issue. -/

/-- The bytes in local store that an operation on `n` bytes at a pointer writes, by memory key; none at a device pointer. -/
def lsRange (s : State) (p : DWord) (n : Nat) : Nat × Nat :=
  if ptrKind p = 0 then (0, 0) else match lsTarget s s.curLid p with
    | some (k, _) => (k, n)
    | none => (0, 0)

/-- A new operation of the current agent on `n` bytes at a pointer: its number, and the state that holds it. -/
def newOp (s : State) (i : Issuer) (cls : Nat) (p : DWord) (n : Nat) : Nat × State :=
  let dev := ptrKind p = 0
  (s.nextId, (addOp s i
    { id := s.nextId, cls := cls, va := if dev then p.toNat else 0, len := if dev then n else 0, ls := lsRange s p n }).freshId)

/-- A message goes on its way before the later ones of its wave. -/
def sendOn (op : Instr) (m : Msg) (s : State) : State :=
  let before (t : Task) : Bool := match t.arg with
    | .msg n => !(n.src.core == m.src.core && n.src.slot == m.src.slot && n.src.climber == m.src.climber && decide (m.id < n.id))
    | _ => true
  { s with agenda := s.agenda.takeWhile before ++ ⟨op, .msg m⟩ :: s.agenda.dropWhile before }

/-- A device word is translated at the hall unit of its core, and its message sent on to its home (R77, R156); `need` are the
permissions. A failure comes back as a fault reply (R81). -/
def translateMsg (op : Instr) (need : Nat) (m : Msg) (s : State) : State :=
  match translate s (hallOf m.src.core) m.ctx m.va.toNat need with
  | (s, .error r) => refuse m (causeOf r) r s
  | (s, .ok t) => sendOn op { m with tgt := t.dpa, key := pteKey t.pte, point := pointOf s t.dpa t.pte } s

/-- The bytes of a line without those a higher lane replaces. -/
def lastWins : List Host.Cell → List Host.Cell
  | [] => []
  | c :: cs => if cs.any (fun d => d.1 == c.1) then lastWins cs else c :: lastWins cs

/-- The lines of VA that a device message has bytes in. -/
def vaLinesOf (m : Msg) : List Nat := (m.bytes.map fun c => (c.1 - farKey) / 128).eraseDups

/-- Lines of VA translated one after another: each with its line, key index and PTE, or with the reason why not. -/
def translateEach (hall ctx need : Nat) : List Nat → State → State × List (Nat × Except Nat Trans)
  | [], s => (s, [])
  | v :: vs, s =>
    match translate s hall ctx (v * 128) need with
    | (s, r) => match translateEach hall ctx need vs s with
      | (s, rs) => (s, (v, r) :: rs)

/-- The part of a message that its translation sends to one line under one key, or to none: `number` is its operation. -/
def partMsg (s : State) (m : Msg) (ts : List (Nat × Except Nat Trans)) (to_ : Option (Nat × Nat)) (number : Nat) : Msg :=
  let goes (v : Nat) : Option (Nat × Nat × Nat) := match ts.find? fun t => t.1 == v with
    | some (_, .ok t) => some (lineOf t.dpa, pteKey t.pte, t.pte)
    | _ => none
  let mine (c : Host.Cell) : Bool := (goes ((c.1 - farKey) / 128)).map (fun g => (g.1, g.2.1)) == to_
  let pte := (ts.findSome? fun t => (goes t.1).bind fun g => if some (g.1, g.2.1) == to_ then some g.2.2 else none).getD 0
  let line := (to_.map (·.1)).getD 0
  { m with
    id := number
    va := if number = m.id then m.va else match m.bytes.find? mine with
      | some c => BitVec.ofNat 64 (c.1 - farKey)
      | none => m.va
    dst := (ts.filter fun t => (goes t.1).map (fun g => (g.1, g.2.1)) == to_).map (·.1)
    bytes := lastWins ((m.bytes.filter mine).map fun (c : Host.Cell) => (line * 128 + c.1 % 128, c.2))
    tgt := line * 128, key := (to_.map (·.2)).getD 0, point := pointOf s (line * 128) pte }

/-- A posted store is translated at the hall unit of its core, line of VA by line of VA, and sent on to its home (R77, R156). Where its
lines no longer lead to one line under one key, because the entries changed since it was issued (R83), each part goes on its own;
a failure comes back as a fault reply (R81). -/
def translateStore (op : Instr) (m : Msg) (s : State) : State :=
  let (s, ts) := translateEach (hallOf m.src.core) m.ctx needWrite (vaLinesOf m) s
  let parts := (ts.map fun t => match t.2 with
    | .ok r => some (lineOf r.dpa, pteKey r.pte)
    | .error _ => none).eraseDups
  let why := (ts.findSome? fun t => match t.2 with
    | .error r => some r
    | .ok _ => none).getD 0
  let send (s : State) (to_ : Option (Nat × Nat)) (number : Nat) : State :=
    let part := partMsg s m ts to_ number
    if to_.isNone then refuse part (causeOf why) why s else sendOn op part s
  match parts with
  | [] => s
  | p :: ps => ps.foldl (fun s q =>
      let n := s.nextId
      send ((addOp s m.src { id := n, cls := 1, va := m.va.toNat / 128 * 128, len := 128 }).freshId) q n) (send s p m.id)

/-- One lane of an `atm` or `red`. -/
def sendAtomic (result : Bool) (maj : Nat) (sz : Sz) (aop : Aop) (scope : Nat) (ordered : Bool) (group : Nat)
    (p : Nat → DWord) (x y : Nat → Nat) (dst : Nat → List Nat) (s : State) (l : Nat) : State :=
  let i := issuerOf s maj l
  let (id, s) := newOp s i 1 (p l) sz.bytes
  let m : Msg := { src := i, va := p l, ctx := s.curCtx, ordered := ordered, scope := scope, sz := sz, aop := aop
                   arg := BitVec.ofNat 128 (x l), arg2 := BitVec.ofNat 128 (y l), dst := dst l, id := id, group := group }
  match aimLater s (p l) needBoth with
  | (s, .error (c, r)) => send .faultReply { m with kind := c, reason := r } s
  | (s, .ok a) =>
    send (if isLsKey a.key then .lsReductionAtomic else if result then .atomicRequest else .reductionDevice)
      { m with tgt := a.key, key := a.slot, point := a.point, imm := BitVec.ofNat 32 result.toNat } s

/-- The operand of a lane: the compare value and the new value of `cas`, else the value alone. -/
def operandX (s : State) (sz : Sz) (b l : Nat) : Nat := groupValue s b sz.regs l
def operandY (s : State) (sz : Sz) (b l : Nat) : Nat := groupValue s (b + sz.regs) sz.regs l

/-- The pointer of a lane with its offset. -/
def pointerAt (s : State) (a : RegNo) (off : Int) (l : Nat) : DWord := src64 s a.toNat l + BitVec.ofInt 64 off

/-- Scoreboard entries in use: a wave has 8 (R269). -/
def scoreboardFull (s : State) : Bool := !s.cur.isClimber && decide (8 ≤ s.curWave.atms.length)

/-- Registers of a lane that wait for results; those of `zero` hold the scoreboard's entry and are never written (R269). -/
def resultRegs (s : State) (d : RegNo) (sz : Sz) (l : Nat) : List Nat :=
  if d.toNat < (if s.cur.isClimber then 24 else 320) || isZero d then (List.range sz.regs).map fun k => regKey (d.toNat + k) l
  else []

/-- The entry of an `atm` in the scoreboard. -/
def addAtm (group : Nat) (regs : List Nat) (s : State) : State :=
  if regs.isEmpty then s
  else if s.cur.isClimber then s.updCurClimber fun c => { c with atms := c.atms ++ [⟨group, regs⟩] }
  else s.updCurWave fun w => { w with atms := w.atms ++ [⟨group, regs⟩], failed := w.failed.filter fun k => !regs.contains k }

/-- `ATM` (R269). -/
def execAtm (g : Guard) (sz : Sz) (aop : Aop) (scope : BitVec 3) (off : BitVec 10) (d : RegNo) (a : RegNo) (b : RegNo)
    (s : State) : Host.Outcome State Fault Refusal :=
  issue (.atm g sz aop scope off d a b) (fun s =>
    let ls := active s g
    let p := pointerAt s a off.toInt
    trapLanes s ls (fun l => pointerTrap s sz.bytes (p l))
      (if scoreboardFull s then .wait 7 s
       else
        let group := s.nextId
        let s' := addAtm group (ls.map (resultRegs s d sz)).flatten s
        .done (ls.foldl (sendAtomic true 0x45 sz aop scope.toNat false group p (operandX s sz b.toNat)
          (if aop = .cas then operandY s sz b.toNat else fun _ => 0) (resultRegs s d sz)) s'))) s

/-- `RED` (R270). -/
def execRed (g : Guard) (sz : Sz) (aop : Aop) (scope : BitVec 3) (off : BitVec 10) (ord : Bool) (a : RegNo) (b : RegNo)
    (s : State) : Host.Outcome State Fault Refusal :=
  issue (.red g sz aop scope off ord a b) (fun s =>
    let ls := active s g
    let p := pointerAt s a off.toInt
    trapLanes s ls (fun l => pointerTrap s sz.bytes (p l))
      (.done (ls.foldl (sendAtomic false 0x46 sz aop scope.toNat ord s.nextId p (operandX s sz b.toNat) (fun _ => 0)
        (fun _ => [])) s))) s

/-! Stores by line (R156, R104). -/

/-- The target line of a lane of a `pst`, as a number of its own: that of its memory key, under the key index of its page (R70), or,
where a device pointer does not translate, that of its VA. -/
def targetLine (s : State) (p : DWord) : Nat :=
  if ptrKind p = 0 then match (translate s (hallOf s.curCore) s.curCtx p.toNat needWrite).2 with
    | .ok t => lineOf t.dpa + pteKey t.pte * 2 ^ 68
    | .error _ => 2 ^ 66 + p.toNat / 128
  else match lsTarget s s.curLid p with
    | some (k, _) => k / 128
    | none => 2 ^ 67 + p.toNat / 128

/-- The lines that lanes store to, in order of their lowest lane, by the line `q` of each lane. -/
def storeLines (q : Nat → Nat) (ls : List Nat) : List Nat := (ls.map q).eraseDups

/-- The bytes lanes store in one line, as offset within the line and byte, a higher lane's later. -/
def lineBytes (q : Nat → Nat) (p : Nat → DWord) (v : Nat → Nat) (n line : Nat) (ls : List Nat) : List Host.Cell :=
  ((ls.filter fun l => q l == line).map fun l => cellsOf ((p l).toNat % 128) n (v l)).flatten

/-- The same for a device pointer not yet translated: by VA (R156). -/
def lineVas (q : Nat → Nat) (p : Nat → DWord) (v : Nat → Nat) (n line : Nat) (ls : List Nat) : List Host.Cell :=
  ((ls.filter fun l => q l == line).map fun l => cellsOf (farKey + (p l).toNat) n (v l)).flatten

/-- The first lane that stores to a line. -/
def lineLane (q : Nat → Nat) (line : Nat) (ls : List Nat) : Nat := (ls.find? fun l => q l == line).getD 0

/-- One line of a `pst` (class 1) or `pub` (3) sent. A `pub` is translated already; off die-homed HBM with device bias it is ordered
as a `pst.o` (R104). -/
def sendLine (op : Instr) (maj cls : Nat) (ordered : Bool) (sz : Sz) (group : Nat) (q : Nat → Nat) (p : Nat → DWord) (v : Nat → Nat)
    (ls : List Nat) (s : State) (line : Nat) : State :=
  let l := lineLane q line ls
  let i := issuerOf s maj l
  let base := BitVec.ofNat 64 ((p l).toNat / 128 * 128)
  let (id, s) := newOp s i cls base 128
  let vas := if ptrKind (p l) = 0 then ((ls.filter fun l => q l == line).map fun l => (p l).toNat / 128).eraseDups else []
  let s := (vas.drop 1).foldl (fun s x => addOp s i { id := id, cls := cls, va := x * 128, len := 128 }) s
  let m : Msg := { src := i, va := p l, ctx := s.curCtx, ordered := ordered, sz := sz, id := id, group := group
                   arg := BitVec.ofNat 128 (v l), dst := vas }
  match (if cls = 3 then aim s base needWrite else aimLater s base needWrite) with
  | (s, .error (c, r)) => send .faultReply { m with kind := c, reason := r } s
  | (s, .ok a) => send op { m with
      tgt := a.key, key := a.slot, point := a.point, ordered := ordered && !a.die
      bytes := lastWins (if a.key = farKey then lineVas q p v sz.bytes line ls
        else (lineBytes q p v sz.bytes line ls).map fun c => (a.key + c.1, c.2)) } s

/-- `PST` (R156). -/
def execPst (g : Guard) (sz : Sz) (off : BitVec 16) (a : RegNo) (b : RegNo) (s : State) : Host.Outcome State Fault Refusal :=
  issue (.pst g sz off a b) (fun s =>
    let ls := active s g
    let p := pointerAt s a (off &&& 0xFFFE).toInt
    trapLanes s ls (fun l => pointerTrap s sz.bytes (p l))
      (let q := fun l => targetLine s (p l)
       .done ((storeLines q ls).foldl (sendLine .postedStore 0x47 1 (off.getLsbD 0) sz s.nextId q p
        (groupValue s b.toNat sz.regs) ls) s))) s

/-! Publishing (R101, R104). -/

/-- A translation for each lane, in order, or the first failure. -/
def translateLanes (ctx : Nat) (p : Nat → DWord) : List Nat → State → State × Except (Nat × Nat) (List (Nat × Trans))
  | [], s => (s, .ok [])
  | l :: ls, s =>
    match translate s (hallOf s.curCore) ctx (p l).toNat needWrite with
    | (s, .error r) => (s, .error (l, r))
    | (s, .ok t) => match translateLanes ctx p ls s with
      | (s, .error e) => (s, .error e)
      | (s, .ok ts) => (s, .ok ((l, t) :: ts))

/-- A byte of a grain that the issuing core does not own, on a page with SW = 1. -/
def unownedByte (s : State) (t : Trans) (n : Nat) : Bool :=
  pteBit t.pte 5 && !(List.range n).all fun k =>
    s.dirs.any fun d => decide (d.dpa ≤ t.dpa + k) && decide (t.dpa + k < d.dpa + d.len) &&
      d.owners.any fun o => o.1 == (t.dpa + k - d.dpa) / 512 && o.2.1 == s.curCore

/-- The pointer check of `pub`, behind that of R33. -/
def pubTrap (s : State) (n : Nat) (p : DWord) : Option (Nat × DWord) :=
  if ptrKind p = 2 && !s.privileged then some (0x18, p)
  else if ptrKind p ≠ 0 || p.toNat / 2 ^ 57 ≠ 0 then some (0x17, p) else if p.toNat % n ≠ 0 then some (0x06, p) else none

/-- `PUB` (R104). The lines by which it groups its lanes are lines of VA, which is the model's reading (log 75). -/
def execPub (g : Guard) (sz : Sz) (off : BitVec 16) (a : RegNo) (b : RegNo) (s : State) : Host.Outcome State Fault Refusal :=
  issue (.pub g sz off a b) (fun s =>
    let ls := active s g
    let p := pointerAt s a off.toInt
    trapLanes s ls (fun l => pubTrap s sz.bytes (p l))
      (if !ls.all (fun l => walkHere s (p l)) then .wait 4 s
       else match translateLanes s.curCtx p ls s with
       | (t, .error (l, r)) => .trap (reasonCause r) (p l) t
       | (t, .ok ts) =>
         match ts.find? fun q => unownedByte t q.2 sz.bytes with
         | some (l, tr) =>
           let k := ((List.range sz.bytes).find? fun k => unownedByte t { tr with dpa := tr.dpa + k } 1).getD 0
           .trap 0x0D (p l + BitVec.ofNat 64 k) t
         | none =>
           let q := fun l => (p l).toNat / 128
           .done ((sortNats (storeLines q ls)).foldl (sendLine .publishWrite 0x4A 3 true sz t.nextId q p
             (groupValue t b.toNat sz.regs) ls) t))) s

/-! Fences, bindings, releases and acquires (R271-R273). -/

/-- An operation is complete at a scope. -/
def completeAt (scope : Nat) (o : Op) : Bool := o.applied && decide (scope ≤ 5)

/-- The operations of the issuer. -/
def State.curOps (s : State) : List Op := if s.cur.isClimber then s.curClimber.ops else s.curWave.ops

def State.curAtms (s : State) : List AtmEntry := if s.cur.isClimber then s.curClimber.atms else s.curWave.atms

/-- What the issuing split or climber waits for. -/
def State.curAwait (s : State) : Await := if s.cur.isClimber then s.curClimber.await else s.curSplit.await

def setAwait (a : Await) (s : State) : State :=
  if s.cur.isClimber then s.updCurClimber fun c => { c with await := a } else s.updCurSplit fun p => { p with await := a }

/-- Everything of the masked classes issued before number `n` is complete (R271). -/
def fenceMet (s : State) (mask : BitVec 4) (scope n : Nat) : Bool :=
  (!mask.getLsbD 0 || s.curAtms.all fun a => decide (n ≤ a.id)) &&
  s.curOps.all fun o => decide (n ≤ o.id) || !mask.getLsbD o.cls || (s.cur.isClimber && o.cls != 1) || completeAt scope o

/-- The class bit of `fence` at which a recorded failure traps: copies at bit 2, all else at bit 1 (R81, R128). -/
def faultClass (maj : Nat) : Nat := if 0x53 ≤ maj && maj ≤ 0x56 then 2 else 1

/-- The trap of the deferred-fault record. -/
def deferredTrap (s : State) : Exec :=
  .trap (dfrCause (s.dfr s.curCore s.cur.slot)) (dfrAddr (s.dfr s.curCore s.cur.slot)) s

/-- `FENCE` (R271). -/
def execFence (g : Guard) (mask : BitVec 4) (scope : BitVec 3) (s : State) : Host.Outcome State Fault Refusal :=
  issue (.fence g mask scope) (fun s =>
    let n := match s.curAwait with
      | .sent n => n
      | _ => s.nextId
    if !fenceMet s mask scope.toNat n then .wait 14 (setAwait (.sent n) (if n = s.nextId then s.freshId else s))
    else if !s.cur.isClimber && s.dfValid s.curCore s.cur.slot &&
        mask.getLsbD (faultClass (dfrMaj (s.dfr s.curCore s.cur.slot))) then deferredTrap s
    else .done s) s

/-- The binding table of the issuing group, 16 entries. -/
def bindings (s : State) : List Binding :=
  match s.curGroup with
  | some g => (List.range 16).map fun k => g.binds.getD k {}
  | none => []

/-- The traps of `bind` (R272). -/
def bindTrap (s : State) (obj reg : DWord) (len : Word) : Option (Nat × DWord) :=
  match accessCause s 4 obj with
  | some c => some (c, obj)
  | none =>
    if ptrKind reg = 2 && !s.privileged then some (0x18, reg)
    else if ptrKind reg ≠ 0 || reg.toNat / 2 ^ 57 ≠ 0 then some (0x17, reg)
    else if reg.toNat % 128 ≠ 0 then some (0x06, reg)
    else if len.toNat % 128 ≠ 0 then some (0x06, len.setWidth 64)
    else if len ≠ 0 && 2 ^ 57 < reg.toNat % 2 ^ 57 + len.toNat then some (0x17, reg)
    else none

/-- The table after a `bind`, and what D receives. -/
def bindTable (t : List Binding) (obj reg : DWord) (len : Word) : List Binding × Word :=
  if len = 0 then
    (t.map fun b => if b.valid && b.obj == obj then {} else b,
     BitVec.ofNat 32 (t.filter fun b => b.valid && b.obj == obj).length)
  else match (List.range t.length).find? fun k => t.getD k {} == ⟨true, obj, reg, len⟩ with
    | some k => (t, BitVec.ofNat 32 k)
    | none => match (List.range t.length).find? fun k => !(t.getD k {}).valid with
      | some k => (t.set k ⟨true, obj, reg, len⟩, BitVec.ofNat 32 k)
      | none => (t, 0xFFFFFFFF)

/-- `BIND` (R272). -/
def execBind (g : Guard) (d : RegNo) (a : RegNo) (b : RegNo) (c : RegNo) (s : State) : Host.Outcome State Fault Refusal :=
  issue (.bind g d a b c) (fun s =>
    let l := firstLane s g
    let obj := src64 s a.toNat l
    let reg := src64 s b.toNat l
    let len := src s c.toNat l
    match bindTrap s obj reg len with
    | some (k, f) => .trap k f s
    | none =>
      let r := bindTable (bindings s) obj reg len
      .done (putLanes (s.updGroup s.curWave.gid fun g => { g with binds := r.1 }) (active s g) d.toNat fun _ => r.2)) s

/-- A write of the wave is bound to an object (R267): a byte of it lies in a region of a valid entry that `isObj` accepts. -/
def boundTo (s : State) (isObj : DWord → Bool) (o : Op) : Bool :=
  o.len != 0 && (bindings s).any fun b => b.valid && isObj b.obj &&
    decide (o.va < b.reg.toNat + b.len.toNat) && decide (b.reg.toNat < o.va + o.len)

/-- The writes of the wave that are bound to the object now (R267). -/
def boundOps (s : State) (isObj : DWord → Bool) : List Nat := (s.curWave.ops.filter (boundTo s isObj)).map (·.id)

/-- Every operation of a list is complete at the scope. -/
def opsDone (s : State) (ids : List Nat) (scope : Nat) : Bool :=
  s.curWave.ops.all fun o => !ids.contains o.id || completeAt scope o

/-- What a release waits for: what its issue found bound, or finds now. -/
def releaseIds (s : State) (isObj : DWord → Bool) : List Nat := match s.curAwait with
  | .settling ids => ids
  | _ => boundOps s isObj

/-- A request of a waiting instruction is sent to an object's execution point: `f` makes its message. -/
def request (op : Nat → Instr) (maj : Nat) (obj : DWord) (need : Nat) (f : Msg → Msg) (s : State) : Exec :=
  let i := issuerOf s maj 0
  if !walkHere s obj then .wait 14 s
  else match aim s obj need with
  | (s, .error (c, r)) => .trap (c + 256 * r) obj s
  | (s, .ok a) =>
    let id := s.nextId
    .wait 14 (setAwait (.sent id) (send (op a.key) (f
      { src := i, tgt := a.key, key := a.slot, point := a.point, va := obj, ctx := s.curCtx, id := id, kind := 1 }) s.freshId))

/-- `REL` (R273): the waits for the writes bound when it issued, the increment sent, and its answer. -/
def execRel (g : Guard) (scope : BitVec 3) (d : RegNo) (a : RegNo) (s : State) : Host.Outcome State Fault Refusal :=
  issue (.rel g scope d a) (fun s =>
    let obj := src64 s a.toNat (firstLane s g)
    match s.curAwait with
    | .answered _ v c =>
      if c ≠ 0 then .trap c obj s
      else .done (putLanes s (active s g) d.toNat fun _ => BitVec.ofNat 32 v)
    | .sent _ => .wait 14 s
    | _ =>
      match accessCause s 4 obj with
      | some c => .trap c obj s
      | none =>
        let ids := releaseIds s (· == obj)
        if !opsDone s ids scope.toNat then .wait 14 (setAwait (.settling ids) s)
        else if s.dfValid s.curCore s.cur.slot then deferredTrap s
        else request (fun k => if isLsKey k then .lsReductionAtomic else .atomicRequest) 0x5C obj needBoth
          (fun m => { m with arg := 1, scope := scope.toNat }) s) s

/-- `ACQ` (R273): the watch sent, and what its execution point reports. -/
def execAcq (g : Guard) (scope : BitVec 3) (d : RegNo) (a : RegNo) (b : RegNo) (s : State) : Host.Outcome State Fault Refusal :=
  issue (.acq g scope d a b) (fun s =>
    let obj := src64 s a.toNat (firstLane s g)
    match s.curAwait with
    | .answered _ v c =>
      if c ≠ 0 then .trap c obj s
      else .done (putLanes s (active s g) d.toNat fun _ => BitVec.ofNat 32 v)
    | .sent _ => .wait 14 s
    | _ =>
      match accessCause s 4 obj with
      | some c => .trap c obj s
      | none => request (fun _ => .watch) 0x5B obj needRead
          (fun m => { m with imm := src s b.toNat (firstLane s g), scope := scope.toNat }) s) s

end Sys2Proof.Machine
end

