-- ==== Sys2Proof/Machine/Leases.lean ====
section
/-! DEFINITION. Leases (R105-R113) and subscriptions (R97-R103): the instructions, and what the home and the NI do. -/

namespace Sys2Proof.Machine

/-- The issuing wave's group is paired and this core is not the one that sends (R113). -/
def State.pairedHigh (s : State) : Bool :=
  !s.cur.isClimber && match s.curGroup with
    | some g => match g.pair with
      | some p => !p.low
      | none => false
    | none => false

/-- A message of a pair leaves from its low core alone, without waiting for the interval (R113). -/
def sendLow (op : Instr) (m : Msg) (s : State) : State := if s.pairedHigh then s else s.post op (.msg m)

/-- The number the issuer waits for: on the high core of a pair any answer that is forwarded. -/
def waitId (s : State) (id : Nat) : Nat := if s.pairedHigh then 0 else id

/-! Window pairs (R105). -/

/-- The index of the pair a wave holds. -/
def pairOf (c : Core) (slot : Nat) : Option Nat := (List.range c.pairs.length).find? fun k => c.pairs.getD k none == some slot

/-- A pair is free for a wave: none waits before it. -/
def freePair (c : Core) (slot : Nat) : Option Nat :=
  if (c.pairWait.headD slot) = slot then (List.range c.pairs.length).find? fun k => (c.pairs.getD k none).isNone else none

def takePair (core slot k : Nat) (s : State) : State :=
  s.updCore core fun c => { c with pairs := c.pairs.set k (some slot), pairWait := c.pairWait.filter (· != slot) }

def dropPair (core slot : Nat) (s : State) : State :=
  s.updCore core fun c => { c with pairs := c.pairs.map fun (o : Option Nat) => o.filter (· != slot) }

def windowBase (k : Nat) : Nat := 0x2FE000 + 128 * k

/-- The window of a wave's next lease: the even one of its pair, or the odd one. -/
def nextWindow (s : State) (core slot : Nat) : Nat :=
  2 * (pairOf (s.core core) slot).getD 0 + (if (s.wave core slot).leases.isEmpty then 0 else 1)

/-! `lease` (R106). -/

/-- The lease request, once a pair is held. -/
def sendLease (tr : Trans) (va : DWord) (s : State) : Exec :=
  let id := s.nextId
  .wait 16 (setAwait (.sent (waitId s id)) (sendLow .leaseRequest
    { src := issuerOf s 0x48 0, tgt := tr.dpa / 128 * 128, key := pteKey tr.pte, va := va, ctx := s.curCtx, ordered := true
      point := pointOf s tr.dpa tr.pte, id := id, kind := 1
      arg := BitVec.ofNat 128 (s.core s.curCore).leasemax.toNat } s.freshId))

/-- The lease block opens with the outermost `lease` (R107). -/
def openBlock (s : State) : State :=
  s.updCurWave fun w => { w with block := match w.block with
    | some b => some b
    | none => some ⟨s.cur.split, 0, w.tm⟩ }

/-- A wave without a lease gives up its pair, its place among those waiting for one, and its block (R105, R106). -/
def closeBlock (s : State) : State :=
  if s.curWave.leases.isEmpty then
    ((dropPair s.curCore s.cur.slot s).updCore s.curCore fun c => { c with pairWait := c.pairWait.filter (· != s.cur.slot) }).updCurWave
      fun w => { w with block := none }
  else s

/-- `LEASE` before its request. No block opens on a core that is to halt (R347). -/
def beginLease (va : DWord) (s : State) : Exec :=
  let c := s.curCore
  let w := s.curWave
  if ptrKind va = 2 && !s.privileged then .trap 0x18 va (closeBlock s)
  else if ptrKind va ≠ 0 || va.toNat / 2 ^ 57 ≠ 0 then .trap 0x17 va (closeBlock s)
  else if (s.core c).halted && w.block.isNone then .wait 16 s
  else if 2 ≤ w.leases.length then .trap 0x0E va s
  else if !walkHere s va then .wait 16 s
  else match translate s (hallOf c) s.curCtx va.toNat needBoth with
    | (t, .error r) => .trap (reasonCause r) va (closeBlock t)
    | (t, .ok tr) =>
      if w.leases.any fun l => decide (lineOf tr.dpa ≤ l.line) then .trap 0x0E va t
      else if dpaSpace tr.dpa = 0 && dpaPkg tr.dpa ≠ t.pkg then .trap 0x0F 3 (closeBlock t)
      else if !w.leases.isEmpty then sendLease tr va t
      else match freePair (t.core c) t.cur.slot with
        | some k => sendLease tr va (openBlock (takePair c t.cur.slot k t))
        | none => .wait 16 (openBlock (t.updCore c fun v =>
            { v with pairWait := if v.pairWait.contains t.cur.slot then v.pairWait else v.pairWait ++ [t.cur.slot] }))

/-- `LEASE` (R106): its traps, its wait for a pair, its request, and the grant or failure. -/
def execLease (g : Guard) (off : BitVec 16) (d : RegNo) (a : RegNo) (s : State) : Host.Outcome State Fault Refusal :=
  issue (.lease g off d a) (fun s =>
    let va := pointerAt s a off.toInt (firstLane s g)
    match s.curAwait with
    | .answered _ v c =>
      if c ≠ 0 then .trap c va (closeBlock s)
      else .done (putLanes s (active s g) d.toNat fun _ => BitVec.ofNat 32 (v + va.toNat % 128))
    | .sent _ => .wait 16 s
    | _ => beginLease va s) s

/-- The router of an execution point (R142). -/
def pointCore (s : State) (point : Nat) : Nat :=
  if point < 320 then unitCore s point
  else if point = 320 then coreWord s.pkg 0 0 0
  else if point < 400 then coreWord s.pkg (point - 319) (if point % 2 = 1 then 0 else 31) 10
  else point - 400

/-- The abort point of a lease with a deadline (R108). -/
def abortPoint (s : State) (point core deadline : Nat) : Nat :=
  let r := pointCore s point
  let n := 3 * hops r core + 16 * stairs r core + 2
  (2 ^ 64 + deadline - (n * 2000 + 1199) / 1200 - 4) % 2 ^ 64

/-- The home grants a lease, or answers with the reason it cannot (R106, R108). -/
def homeLease (m : Msg) (s : State) : State :=
  match readFault s m.tgt m.key with
  | some r => s.post .leaseAnswer (.msg { m with reason := reasonCause r, kind := 0 })
  | none =>
    let deadline := s.clkAfter (m.arg.toNat * 2000 / s.mhz (islandOf (pointCore s m.point)))
    (s.updLine (lineOf m.tgt) fun x => { x with lease := some ⟨m.id, m.src, deadline, m.point⟩ }).post .leaseGrant
      (.msg { m with bytes := cellsOf 0 128 (s.devRead m.tgt 128 m.key), arg := BitVec.ofNat 128 deadline
                     arg2 := BitVec.ofNat 128 (abortPoint s m.point m.src.core deadline) })

/-- The split of a wave that waits for an answer. -/
def waitingSplit (w : Wave) (id : Nat) : Option Nat := (List.range 4).find? fun p => (w.splits.getD p {}).await == .sent id

/-- The grant fills the window; a wave that no longer waits gives the lease back. -/
def grantTo (m : Msg) (id : Nat) (i : Issuer) (s : State) : State :=
  let w := s.wave i.core i.slot
  match waitingSplit w id with
  | none => if id = 0 then s else s.post .leaseAbort (.msg { src := i, tgt := m.tgt, id := id, ordered := true, point := m.point })
  | some _ =>
    let k := nextWindow s i.core i.slot
    let l : Lease := ⟨m.id, k, lineOf m.tgt, m.key, true, 0, m.arg.toNat, m.arg2.toNat, m.point⟩
    let s := { s with mem := Memory.writeCells s.mem (m.bytes.map fun (c : Host.Cell) => (lsKey i.core (windowBase k) + c.1, c.2)) }
    answer (s.updWave i.core i.slot fun w => { w with leases := l :: w.leases }) i id (windowBase k) 0

/-- A message that a core has passed on to its partner through the pair link (R113). -/
def overLink (m : Msg) : Bool := m.group == 1

/-- A message for an issuer, which a paired core passes on to its partner; there it waits until the partner's split does, which
waits for number 0 (R113). -/
def toBoth (op : Instr) (m : Msg) (f : Nat → Issuer → State → State) (s : State) : State :=
  if overLink m then f 0 m.src s
  else match partnerOf s m.src, waitingSplit (s.wave m.src.core m.src.slot) m.id with
    | some j, some _ => (f m.id m.src s).post op (.msg { m with src := j, group := 1 })
    | _, _ => f m.id m.src s

/-- The partner of a passed-on message does not yet wait for it. -/
def linkEarly (s : State) (m : Msg) : Bool :=
  overLink m && (partnerOf s m.src).isSome && (waitingSplit (s.wave m.src.core m.src.slot) 0).isNone

/-- `LEASE_GRANT` (R106). -/
def execLeaseGrant (s : State) : Host.Outcome State Fault Refusal :=
  onMsg (fun m s => if (s.core m.src.core).sealed then s else toBoth .leaseGrant m (grantTo m) s) s

/-- `LEASE_ANSWER`: the number it carries is 1 for a commit; a cause for a failed request (R106, R110). -/
def execLeaseAnswer (s : State) : Host.Outcome State Fault Refusal :=
  onMsg (fun m s => toBoth .leaseAnswer m (fun id i s => answer s i id m.arg.toNat m.reason) s) s

/-! `lrel` (R110). -/

/-- The dirty bytes of a window, at their place in the line. -/
def dirtyCells (s : State) (core : Nat) (l : Lease) : List Host.Cell :=
  ((List.range 128).filter fun k => l.dirty.getLsbD k).map fun k =>
    (l.line * 128 + k, Memory.byte s.mem (lsKey core (windowBase l.window + k)))

/-- The innermost lease is given up; with the last, the pair and the block (R110). -/
def popLease (s : State) : State :=
  closeBlock (s.updCurWave fun w => { w with leases := w.leases.tail })

/-- `lrel` closes the interval of a paired wave early (R113). -/
def closeInterval (s : State) : State := if s.paired then s.updCurWave fun w => { w with stopped := true } else s

/-- `LREL` (R110). -/
def execLrel (g : Guard) (d : RegNo) (s : State) : Host.Outcome State Fault Refusal :=
  issue (.lrel g d) (fun s =>
    let out (v : Nat) : Exec := .done (putLanes (popLease s) (active s g) d.toNat fun _ => BitVec.ofNat 32 v)
    match s.curWave.leases with
    | [] => .trap 0x0E 0 s
    | l :: _ =>
      match s.curAwait with
      | .answered _ v c => out (if c = 0 then v else 0)
      | .sent _ => .wait 16 s
      | _ =>
        if !l.live then .done (closeInterval (putLanes (popLease s) (active s g) d.toNat fun _ => 0))
        else
          let m : Msg := { src := issuerOf s 0x49 0, tgt := l.line * 128, key := l.key, bytes := dirtyCells s s.curCore l
                           ordered := true, id := l.id, kind := 1, point := l.point }
          .wait 16 (closeInterval (send .leaseCommit m (setAwait (.sent (waitId s l.id)) s)))) s

/-- The line's lease is the one a message names. -/
def leaseIs (s : State) (m : Msg) : Bool := match (s.line (lineOf m.tgt)).lease with
  | some l => l.id == m.id
  | none => false

/-- The home of a leased line. -/
def leasePoint (s : State) (m : Msg) : Nat := match (s.line (lineOf m.tgt)).lease with
  | some l => l.point
  | none => m.point

/-- The home applies a commit as one write, or refuses it: the lease has ended, the line is poisoned or gone, or the commit is a
paired wave's whose interval matched past the abort point, which comes with the deadline in `due` (R110, R111, R113). A commit sent
before the abort point is not late: it arrives before the deadline (R108, R388). -/
def homeCommit (m : Msg) (s : State) : State :=
  let say (v : Nat) (s : State) : State :=
    s.post .leaseAnswer (.msg { m with arg := BitVec.ofNat 128 v, reason := 0, bytes := [] })
  let ended (s : State) : State := s.updLine (lineOf m.tgt) fun x => { x with lease := none }
  if !leaseIs s m then say 0 s
  else
    if m.due ≠ 0 || (readFault s m.tgt m.key).isSome then say 0 (ended s)
    else match homeWrite (ended s) (lineOf m.tgt) m.key (leasePoint s m) m.bytes m.src m.id with
      | none => say 0 (ended s)
      | some t => say 1 t

/-- The home ends a lease that its holder gives up (R111). -/
def homeAbort (m : Msg) (s : State) : State :=
  if leaseIs s m then s.updLine (lineOf m.tgt) fun x => { x with lease := none } else s

/-- `LEASE_ABORT_POINT`: core, slot. The first instruction of the block that has not issued issues now, and the checks of
R34 raise LEASE_BLOCK in it (R108). -/
def execLeaseAbortPoint (s : State) : Host.Outcome State Fault Refusal :=
  event (fun s => match s.nums with
    | [core, slot] =>
      let w := s.wave core slot
      match w.block with
      | some b =>
        let p := b.split
        let sp := w.splits.getD p {}
        if inBlock w && sp.await == .none && mayIssue s core slot p && w.leases.any (fun l => l.live && s.reached l.abort) then
          match wordAt sp.buf sp.pc.toNat with
          | some x => { s with cur := .wave core slot p, ir := x }
          | none => s
        else s
      | none => s
    | _ => s) s

/-! Subscriptions (R97-R103). -/

/-- A subscription record (R98). -/
structure SubRecord where
  va : Nat
  lsb : Nat
  len : Nat
  wfirst : Nat
  wcnt : Nat
  rsv : Nat

def subRecord (s : State) (core a : Nat) : SubRecord :=
  let v := s.ls core a 32
  { va := bitsAt v 0 64, lsb := bitsAt v 64 32, len := bitsAt v 96 32, wfirst := bitsAt v 128 16, wcnt := bitsAt v 144 16
    rsv := bitsAt v 224 32 }

/-- The record is well formed (R98). -/
def subFormed (s : State) (core a : Nat) : Bool :=
  let r := subRecord s core a
  a % 32 == 0 && decide (s.xbnd core ≤ a) && decide (a + 32 ≤ 0x2F0000) && r.rsv == 0 && r.lsb % 128 == 0 &&
    decide (s.xbnd core ≤ r.lsb) && decide (r.lsb + r.len ≤ 0x2F0000) && decide (r.wfirst + r.wcnt ≤ r.len / 512)

/-- The request of `subs`, once the conditions of R97 seen at the core hold. A page that may not be read, or whose key slot is empty,
is reported behind the conditions that the home sees (R97, R102). -/
def beginSubs (a : Nat) (s : State) (put : State → Nat → Exec) : Exec :=
  let c := s.curCore
  if !subFormed s c a then put s 5
  else
    let r := subRecord s c a
    if r.va / 2 ^ 62 = 0 && r.va / 2 ^ 57 ≠ 0 then .trap 0x17 (BitVec.ofNat 64 r.va) s
    else if r.va / 2 ^ 62 ≠ 0 then put s 3
    else if !walkHere s (BitVec.ofNat 64 r.va) then .wait 16 s
    else match locate s (hallOf c) s.curCtx r.va with
    | (t, .error e) => .trap (reasonCause e) (BitVec.ofNat 64 r.va) t
    | (t, .ok tr) =>
      if dpaSpace tr.dpa ≠ 0 || pteBit tr.pte 7 || pteHs tr.pte ≠ 1 then put t 3
      else if pteHome tr.pte ≠ coreDie c || dpaPkg tr.dpa ≠ t.pkg then put t 3
      else if r.va % 512 ≠ 0 || r.len % 512 ≠ 0 || r.len < 512 || 0x40000 < r.len || tr.page + tr.bytes < r.va + r.len then put t 5
      else
        let id := t.nextId
        .wait 16 (setAwait (.sent id) (send .subscriptionControl
          { src := issuerOf t 0x4B 0, tgt := tr.dpa, key := pteKey tr.pte, va := BitVec.ofNat 64 a, id := id, kind := 1
            point := pointOf t tr.dpa tr.pte, arg := BitVec.ofNat 128 r.len, reason := (refused t needRead tr).getD 0 } t.freshId))

/-- `SUBS` (R102). -/
def execSubs (g : Guard) (d : RegNo) (a : RegNo) (s : State) : Host.Outcome State Fault Refusal :=
  issue (.subs g d a) (fun s =>
    let put (t : State) (v : Nat) : Exec := .done (putLanes t (active s g) d.toNat fun _ => BitVec.ofNat 32 v)
    let x := (src s a.toNat (firstLane s g)).toNat
    match s.curAwait with
    | .sent _ => .wait 16 s
    | .answered _ v c => if c ≠ 0 then .trap c (BitVec.ofNat 64 (subRecord s s.curCore x).va) s else put s v
    | _ => beginSubs x s put) s

/-- The subscriptions of a core, and those its partner made for both (R355). -/
def subsHere (s : State) (core : Nat) : List Sub := (s.core core).subs ++ match mirrorOf s core with
  | some p => (s.core p).subs
  | none => []

/-- `UNSUB` (R102). -/
def execUnsub (g : Guard) (d : RegNo) (a : RegNo) (s : State) : Host.Outcome State Fault Refusal :=
  issue (.unsub g d a) (fun s =>
    let put (t : State) (v : Nat) : Exec := .done (putLanes t (active s g) d.toNat fun _ => BitVec.ofNat 32 v)
    let x := (src s a.toNat (firstLane s g)).toNat
    match s.curAwait with
    | .sent _ => .wait 16 s
    | .answered _ v _ => put s v
    | _ =>
      match (subsHere s s.curCore).find? fun u => u.record == x with
      | none => put s 1
      | some u =>
        let id := s.nextId
        .wait 16 (setAwait (.sent id) (send .subscriptionControl
          { src := issuerOf s 0x4C 0, tgt := u.dpa, va := BitVec.ofNat 64 x, id := id, kind := 1, sz := .d } s.freshId))) s

/-- Conditions of R97 that the home sees, in order: the status of the first that fails, or 0. -/
def subsStatus (s : State) (core point dpa : Nat) (r : SubRecord) : Nat :=
  let overlap (d : Dir) : Bool := decide (d.dpa < dpa + r.len) && decide (dpa < d.dpa + d.len)
  let grains := (List.range r.wcnt).map fun k => r.wfirst + k
  let here := s.dirs.find? fun d => d.dpa == dpa && d.len == r.len
  if s.dirs.any fun d => overlap d && !(d.dpa == dpa && d.len == r.len) then 4
  else if (match here with
      | some d => d.owners.any fun o => grains.contains o.1 && o.2.1 != core
      | none => false) then 1
  else if 16 ≤ (s.core core).subs.length || (here.isNone && 1024 ≤ (s.dirs.filter fun d => d.point == point).length) then 2
  else 0

/-- A sharer joins a directory entry (R99). -/
def joinDir (core record : Nat) (grains : List Nat) (d : Dir) : Dir :=
  let sharers := d.sharers ++ [(core, record)]
  { d with sharers := sharers, coarse := d.coarse || decide (4 < sharers.length), owners := d.owners ++ grains.map fun g => (g, core, record) }

/-- A directory entry for a new range, in ways of the home's store that lines leave (R92, R99). -/
def newDir (point dpa len count : Nat) (s : State) : State :=
  let d : Dir := ⟨dpa, len, count, [], false, [], point⟩
  d.ways.foldl (fun s k => makeRoom 16 point k s) { s with dirs := s.dirs ++ [d] }

/-- A range has its entry, or ways for one (R94). -/
def dirRoom (s : State) (point dpa len : Nat) : Bool :=
  s.dirs.any (fun d => d.dpa == dpa && d.len == len) ||
    (let t := newDir point dpa len 0 s
     (Dir.ways ⟨dpa, len, 0, [], false, [], point⟩).all fun k => decide (setTaken t point k ≤ 16))

/-- The DPAs of the lines of a subscription request's range. -/
def rangeLines (m : Msg) : List Nat := (List.range (m.arg.toNat / 128)).map fun k => m.tgt + 128 * k

/-- The directory entry of a range. -/
def State.dirOf (s : State) (dpa len : Nat) : Option Dir := s.dirs.find? fun d => d.dpa == dpa && d.len == len

/-- A sharer is registered, its copy filled from the range as it is now, and its entry made in the NI (R99, R102); a new range's
counter starts at a free value (log 5). -/
def enterSub (core record gid : Nat) (grains : List Nat) (point dpa len lsb key : Nat) (s : State) : State :=
  let s := if (s.dirOf dpa len).isSome then s else newDir point dpa len (Config.freeNat s.nonce % 2 ^ 31) s
  let n0 := match s.dirOf dpa len with
    | some d => d.count
    | none => 0
  let s := { s with dirs := s.dirs.map fun (d : Dir) => if d.dpa == dpa && d.len == len then joinDir core record grains d else d }
  let s := (List.range (len / 128)).foldl (fun s k => fillLs s core (lsb + 128 * k) 128 (s.devRead (dpa + 128 * k) 128 key)) s
  (echo (lsKey core lsb) len s).updCore core fun c => { c with subs := c.subs ++ [Sub.mk record dpa len lsb gid n0] }

/-- The home registers a sharer, takes the snapshot and fills the copy (R102), every line of the range being held by nothing. A record whose address another live record of the core has is refused first,
which is the model's choice (log 73). -/
def homeSubscribe (m : Msg) (s : State) : State :=
  let core := m.src.core
  let at_ := m.va.toNat
  let r := subRecord s core at_
  let lines := rangeLines m
  let live := (s.core core).subs.any fun u => u.record == at_
  let st := if live then 4 else subsStatus s core m.point m.tgt r
  if st ≠ 0 then s.postAll [answerMsg m st 0]
  else if m.reason ≠ 0 then s.postAll [answerMsg m 0 (reasonCause m.reason)]
  else match lines.findSome? fun l => readFault s l m.key with
    | some e => s.postAll [answerMsg m 0 (reasonCause e)]
    | none =>
      let grains := (List.range r.wcnt).map fun k => r.wfirst + k
      let s := enterSub core at_ (s.wave core m.src.slot).gid grains m.point m.tgt r.len r.lsb m.key s
      let n0 := match s.dirOf m.tgt r.len with
        | some d => d.count
        | none => 0
      (echo (lsKey core (at_ + 20)) 8 ((s.setLs core (at_ + 20) 4 (2 * n0)).setLs core (at_ + 24) 4 1)).postAll [answerMsg m 0 0]

/-- The home and the NI end a subscription (R102). -/
def homeUnsubscribe (m : Msg) (s : State) : State :=
  match (s.core m.src.core).subs.find? fun u => u.record == m.va.toNat with
  | none => s.postAll [answerMsg m 1 0]
  | some u => (endSub m.src.core 0 u s).postAll [answerMsg m 0 0]

/-- An update is newer than what a subscription has applied: its snapshot holds the older ones (R100, R102). -/
def newerUpdate (u : Sub) (n : Nat) : Bool := decide (1 ≤ (n + 2 ^ 31 - u.seq) % 2 ^ 31) && decide ((n + 2 ^ 31 - u.seq) % 2 ^ 31 < 2 ^ 30)

/-- The three writes of an update (R100), each a step of its own: SEQ odd, the bytes, SEQ even. -/
def applyUpdate (m : Msg) (core : Nat) (u : Sub) (s : State) : State :=
  let n := m.arg.toNat
  if !newerUpdate u n then s
  else if m.kind = 1 then
    let mine := m.bytes.filter fun (c : Host.Cell) => decide (u.dpa ≤ c.1) && decide (c.1 < u.dpa + u.len)
    let s := { s with mem := Memory.writeCells s.mem (mine.map fun (c : Host.Cell) => (lsKey core (u.lsb + (c.1 - u.dpa)), c.2)) }
    echo (lsKey core u.lsb) u.len s
  else
    let s := if u.record = noRecord then s
      else echo (lsKey core (u.record + 20)) 4 <| s.setLs core (u.record + 20) 4 ((if m.kind = 0 then 2 * n + 2 ^ 32 - 1 else 2 * n) % 2 ^ 32)
    if m.kind = 0 then s
    else s.updCore core fun c => { c with subs := c.subs.map fun v => if v = u then { v with seq := n } else v }

/-- `SUBSCRIPTION_UPDATE` (R100): form 0, 1 or 2 for its three writes; an NI with no entry for the range discards it. One that a
sealed core cannot take ends the subscription as `unsub` does (R103). -/
def execSubscriptionUpdate (s : State) : Host.Outcome State Fault Refusal :=
  onMsg (fun m s =>
    let core := keyCore m.tgt
    let mine := (s.core core).subs.filter fun u => u.dpa == m.va.toNat
    if (s.core core).sealed then mine.foldl (fun s u => endSub core 0 u s) s
    else
      let s := mine.foldl (fun s u => applyUpdate m core u s) s
      if m.kind < 2 && !mine.isEmpty then
        { s with agenda := ⟨.subscriptionUpdate, .msg { m with kind := m.kind + 1 }⟩ :: s.agenda }
      else s) s

end Sys2Proof.Machine
end

