-- ==== Sys2Proof/Machine/Landings.lean ====
section
/-! DEFINITION. Landings (R121-R125, R135) and rings (R136-R138): the instructions and the updates behind them. -/

namespace Sys2Proof.Machine

/-! Landings. -/

/-- The check of a landing's offset at a core (R124): the cause. -/
def landingCause (s : State) (core off : Nat) : Option Nat :=
  if off % 16 ≠ 0 then some 0x06
  else if off < s.xbnd core || 0x2F0000 < off + 16 || touchesConst s core off 16 then some 0x05
  else none

/-- A landing changed at its bank; the bank word it reads may be bad (R122, R166). -/
def updateLanding (k : Nat) (f : Landing → Landing) (s : State) : State :=
  niTouch s k 16 fun s => s.setLanding k (f (s.landing k))

/-- A landing written by the issuing wave; a paired group logs the bytes (R355). -/
def writeLanding (k : Nat) (t : Landing) (s : State) : State := (logUndo (keyCore k) (keyOff k) 16 s).setLanding k t

/-- A form of the LND family on a landing of the issuing core: `body` gets its memory key. -/
def landingForm (i : Instr) (g : Guard) (a : RegNo) (body : State → Nat → Nat → Exec) (s : State) :
    Host.Outcome State Fault Refusal :=
  issue i (fun s =>
    let x := src s a.toNat (firstLane s g)
    match landingCause s s.curCore x.toNat with
    | some c => .trap c (x.setWidth 64) s
    | none =>
      let k := lsKey s.curCore x.toNat
      if lsBad s k 16 then .seal s else body (lsRepair s k 16) k (firstLane s g)) s

/-- D receives a word in every active lane. -/
def putAll (s : State) (g : Guard) (d : RegNo) (v : Nat) : State := putLanes s (active s g) d.toNat fun _ => BitVec.ofNat 32 v

/-- `LND_INIT` (R125). -/
def execLndInit (g : Guard) (scope : BitVec 3) (a : RegNo) (b : RegNo) (c : RegNo) (s : State) :
    Host.Outcome State Fault Refusal :=
  landingForm (.lndInit g scope a b c) g a (fun s k l =>
    let arr := (src s b.toNat l).toNat % 2 ^ 16
    let bytes := (src s c.toNat l).toNat
    .done (writeLanding k ⟨bytes, arr, 0, false, scope.toNat, bytes, arr, 0, false⟩ s)) s

/-- The issuer's writes before this instruction, copies apart: those a release by landing or ring covers (R123, R138, R266; log 77). -/
def earlierWrites (s : State) : List Nat := match s.curAwait with
  | .settling ids => ids
  | _ => (s.curOps.filter fun o => o.cls != 2 && o.cls != 4).map (·.id)

/-- A release takes effect once the writes it covers are complete at its scope (R266); until then its split waits as in any other
form of LND or RING (R206, R343). -/
def afterWrites (scope : Nat) (body : State → Exec) (s : State) : Exec :=
  if opsDone s (earlierWrites s) scope then body s else .wait 11 (setAwait (.settling (earlierWrites s)) s)

/-- `LND_ARR` (R125): a release at the landing's SCOPE (R123). -/
def execLndArr (g : Guard) (d : RegNo) (a : RegNo) (b : RegNo) (s : State) : Host.Outcome State Fault Refusal :=
  landingForm (.lndArr g d a b) g a (fun s k l =>
    afterWrites (s.landing k).scope (fun s =>
      let old := s.landing k
      .done (putAll (writeLanding k (old.update (src s b.toNat l).toNat 0) s) g d old.status)) s) s

/-- `LND_EXP` (R125). -/
def execLndExp (g : Guard) (d : RegNo) (a : RegNo) (b : RegNo) (s : State) : Host.Outcome State Fault Refusal :=
  landingForm (.lndExp g d a b) g a (fun s k l =>
    let old := s.landing k
    .done (putAll (writeLanding k (old.expect (src s b.toNat l).toNat) s) g d old.status)) s

/-- The phase differs from B[0]. -/
def phaseLeft (t : Landing) (b : Word) : Bool := t.ph != b.getLsbD 0

/-- `LND_WAIT` (R125). -/
def execLndWait (g : Guard) (d : RegNo) (a : RegNo) (b : RegNo) (s : State) : Host.Outcome State Fault Refusal :=
  landingForm (.lndWait g d a b) g a (fun s k l =>
    let t := s.landing k
    if phaseLeft t (src s b.toNat l) || t.flt then .done (putAll s g d t.status) else .wait 11 s) s

/-- `LND_TEST` (R125). -/
def execLndTest (g : Guard) (d : RegNo) (a : RegNo) (b : RegNo) (s : State) : Host.Outcome State Fault Refusal :=
  landingForm (.lndTest g d a b) g a (fun s k l =>
    let t := s.landing k
    .done (putAll s g d (t.status + 2 * (phaseLeft t (src s b.toNat l)).toNat))) s

/-- The command behind an operation, queued at an engine or on its way there. -/
def State.commandOf (s : State) (id : Nat) : Option CopyCmd :=
  ((s.halls.flatMap fun h => h.2.queue) ++ s.agenda.filterMap fun t => match t.op, t.arg with
    | .copyAccept, .copy c => some c
    | _, _ => none).find? fun c => c.id == id

/-- Where the landing of an operation lies now: its command follows a saved group (R129). -/
def opLanding (s : State) (o : Op) : Option Nat := match s.commandOf o.id with
  | some c => landingKey s c
  | none => o.landing.bind fun p => (lsTarget s s.curLid p).map (·.1)

/-- A copy of the issuing wave that names the landing is in flight. -/
def landingBusy (s : State) (k : Nat) : Bool := s.curWave.ops.any fun o => o.landing.isSome && opLanding s o == some k

/-- `LND_INV` (R125). -/
def execLndInv (g : Guard) (d : RegNo) (a : RegNo) (s : State) : Host.Outcome State Fault Refusal :=
  landingForm (.lndInv g d a) g a (fun s k _ =>
    if landingBusy s k then .wait 11 s
    else
      let t := s.landing k
      .done (putAll (writeLanding k { t with parr := t.iarr, pbytes := t.ibytes, flt := false, fidx := 0, eng := 0 } s) g d t.status)) s

/-- Why nothing at a key can be reached, as a cause and a reason: its core lies in no package of the domain (R365, R389), or is out
of service. R350 names no fate of a RING form there; the model raises what it gives the others (log 92). -/
def farCause (s : State) (k : Nat) : Option Nat :=
  if !isLsKey k then none
  else if !s.inDomain (corePkg (keyCore k)) then some (0x1A + 256 * 7)
  else if s.outOfService (keyCore k) then some 0x1A
  else none

/-- The check of `twait`'s landing pointer (R124, R135): it lies in the wave's package (log 80). -/
def twaitCause (s : State) (p : DWord) : Option (Nat × DWord) :=
  if ptrKind p = 0 || ptrKind p = 3 then some (0x17, p)
  else if ptrKind p = 2 && !s.privileged then some (0x18, p)
  else match lsTarget s s.curLid p with
    | none => some (0x17, p)
    | some (k, _) =>
      if ptrKind p = 2 && !coreExists (ptrCore p) then some (0x17, p)
      else if isLsKey k && corePkg (keyCore k) ≠ corePkg s.curCore then some (0x05, p)
      else if isLsKey k then (landingCause s (keyCore k) (ptrLow p)).map fun c => (c, p)
      else if ptrLow p % 16 ≠ 0 then some (0x06, p)
      else none

/-- `TWAIT` (R135). -/
def execTwait (g : Guard) (d : RegNo) (a : RegNo) (b : RegNo) (c : RegNo) (s : State) : Host.Outcome State Fault Refusal :=
  issue (.twait g d a b c) (fun s =>
    let l := firstLane s g
    let p := src64 s b.toNat l
    let promise := src64 s a.toNat l
    match twaitCause s p with
    | some (k, f) => .trap k f s
    | none =>
      let k := ((lsTarget s s.curLid p).map (·.1)).getD 0
      let t := s.landing k
      if let some c := farCause s k then .trap c p s
      else if isLsKey k && lsBad s k 16 then (if keyCore k = s.curCore then .seal s else .wait 8 (sealCore (keyCore k) s))
      else if t.flt || phaseLeft t (src s c.toNat l) then .done (putAll s g d t.status)
      else if promise.toNat ≤ s.clk then .trap 0x0C promise s
      else .wait 8 s) s

/-- `PROMISE_EXPIRY`: core, slot, split. A `twait` that reaches its promise is tried again, and traps or returns (R135). -/
def execPromiseExpiry (s : State) : Host.Outcome State Fault Refusal :=
  event (fun s => match s.nums with
    | [core, slot, p] =>
      let sp := (s.wave core slot).splits.getD p {}
      if sp.park == .waiting 8 && mayIssue s core slot p then
        match wordAt sp.buf sp.pc.toNat with
        | some x => { s with cur := .wave core slot p, ir := x }
        | none => s
      else s
    | _ => s) s

/-! Rings (R136). Fields are addressed at the header's memory key. -/

structure Ring where
  log2n : Nat
  szc : Nat
  att : Nat
  scope : Nat
  dbase : Nat
  rsvp : Word
  cmtp : Word
  minc : Word
  rsv : Nat

def word32 (s : State) (k : Nat) : Word := BitVec.ofNat 32 (s.peek k 4)

/-- A write of `n` bytes at a key by the current agent; a paired group logs those of its own store, and what comes from another core is
applied in both stores of a pair (R355). -/
def writeKey (k n v : Nat) (s : State) : State :=
  if isLsKey k && keyCore k == s.curCore then (logUndo s.curCore (keyOff k) n s).poke k n v else echo k n (s.poke k n v)

def setWord32 (k : Nat) (v : Word) (s : State) : State := writeKey k 4 v.toNat s

def State.ring (s : State) (h : Nat) : Ring :=
  let v := s.peek h 4
  { log2n := v % 16, szc := v / 16 % 4, att := v / 256 % 256, scope := v / 2 ^ 16 % 8, dbase := (word32 s (h + 4)).toNat
    rsvp := word32 s (h + 8), cmtp := word32 s (h + 12), minc := word32 s (h + 48)
    rsv := v / 64 % 4 + v / 2 ^ 19 + s.peek (h + 56) 8 }

def Ring.n (r : Ring) : Nat := 2 ^ r.log2n
def Ring.size (r : Ring) : Nat := 16 * 2 ^ r.szc
def Ring.ok (r : Ring) : Bool := decide (r.log2n ≤ 12) && r.rsv == 0

def cursor (s : State) (h k : Nat) : Word := word32 s (h + 16 + 4 * k)
def setCursor (h k : Nat) (v : Word) (s : State) : State := setWord32 (h + 16 + 4 * k) v s
def attached (r : Ring) (k : Nat) : Bool := decide (r.att / 2 ^ k % 2 = 1)

/-- The position of the slowest attached cursor, with none the old value. -/
def slowest (s : State) (h : Nat) : Word :=
  let r := s.ring h
  match (List.range 8).filter (attached r) with
  | [] => r.minc
  | k :: ks => ks.foldl (fun m j => if (r.rsvp - m).toNat < (r.rsvp - cursor s h j).toNat then cursor s h j else m) (cursor s h k)

def refreshMinc (h : Nat) (s : State) : State := setWord32 (h + 48) (slowest s h) s

/-- The sequence word of a slot. -/
def seqKey (h ix : Nat) : Nat := h + 64 + 4 * ix

/-- CMTP passes every committed position. -/
def advanceCmtp (h : Nat) : Nat → State → State
  | 0, s => s
  | fuel + 1, s =>
    let r := s.ring h
    if r.cmtp != r.rsvp && word32 s (seqKey h (r.cmtp.toNat % r.n)) == r.cmtp + 1 then
      advanceCmtp h fuel (setWord32 (h + 12) (r.cmtp + 1) s)
    else s

/-- Position `p` is committed: its sequence word, and CMTP. -/
def commitAt (h : Nat) (p : Word) (s : State) : State :=
  let n := (s.ring h).n
  advanceCmtp h (n + 1) (setWord32 (seqKey h (p.toNat % n)) (p + 1) s)

/-- The uncommitted position in [CMTP, RSVP) held in a slot. -/
def openPosition (s : State) (h ix : Nat) : Option Word :=
  let r := s.ring h
  let span := (r.rsvp - r.cmtp).toNat
  let first := (ix + r.n - r.cmtp.toNat % r.n) % r.n
  (((List.range (span / r.n + 1)).map fun j => first + j * r.n).filter fun d => decide (d < span)).findSome? fun d =>
    let p := r.cmtp + BitVec.ofNat 32 d
    if word32 s (seqKey h ix) == p + 1 then none else some p

/-- The sequence words that a commit of a slot reads (R137): the slot's, and those from CMTP to the first uncommitted one. -/
def commitReads (s : State) (h ix : Nat) : List Nat :=
  let r := s.ring h
  let slots := (List.range (r.rsvp - r.cmtp).toNat).map fun j => (r.cmtp.toNat + j) % r.n
  let past := (List.range slots.length).takeWhile fun j => slots.getD j 0 == ix || word32 s (seqKey h (slots.getD j 0)) == r.cmtp + BitVec.ofNat 32 (j + 1)
  (ix :: slots.take (past.length + 1)).map (seqKey h)

/-- The slot index that a local address names. -/
def slotIndex (s : State) (h off : Nat) : Nat := (off - (s.ring h).dbase) / (s.ring h).size

/-- A word that a commit would read is uncorrectable (R166). -/
def commitBad (s : State) (h off : Nat) : Bool :=
  isLsKey h && decide (slotIndex s h off < (s.ring h).n) && !s.badLs.isEmpty &&
    (commitReads s h (slotIndex s h off)).any fun k => lsBad s k 4

/-- A commit of the slot that holds local address `off` (R137): 0, or 1 when it is refused and counted. -/
def ringCommit (h off : Nat) (s : State) : State × Nat :=
  let r := s.ring h
  let ix := (off - r.dbase) / r.size
  match (if r.dbase ≤ off && ix < r.n then openPosition s h ix else none) with
  | some p => (commitAt h p s, 0)
  | none => (setWord32 (h + 52) (word32 s (h + 52) + 1) s, 1)

/-- The check of a header pointer (R137). -/
def ringCause (s : State) (p : DWord) : Option (Nat × DWord) :=
  if ptrKind p = 0 then some (0x17, p)
  else match accessCause s 64 p with
    | some c => some (c, p)
    | none => match lsTarget s s.curLid p with
      | none => some (0x17, p)
      | some (h, _) =>
        if isLsKey h && (ptrLow p < s.xbnd (keyCore h) || touchesConst s (keyCore h) (ptrLow p) 64) then some (0x05, p)
        else if !(s.ring h).ok then some (0x05, p)
        else none

/-- A blocking form consumes an uncorrectable word: the core that holds it is sealed (R166, R349). -/
def sealAt (k : Nat) (s : State) : Exec := if keyCore k = s.curCore then .seal s else .wait 11 (sealCore (keyCore k) s)

/-- A form of the RING family on a header: `body` gets the memory key, the pointer and the lowest active lane. -/
def ringForm (i : Instr) (g : Guard) (a : RegNo) (body : State → Nat → DWord → Nat → Exec) (s : State) :
    Host.Outcome State Fault Refusal :=
  issue i (fun s =>
    let l := firstLane s g
    let p := src64 s a.toNat l
    match ringCause s p with
    | some (c, f) => .trap c f s
    | none => match lsTarget s s.curLid p with
      | none => .trap 0x17 p s
      | some (h, _) =>
        if let some c := farCause s h then .trap c p s
        else if isLsKey h && lsBad s h 64 then sealAt h s
        else body s h p l) s

/-- The pointer to a slot: the header's, with another offset. -/
def slotPointer (r : Ring) (p : DWord) (pos : Word) : DWord :=
  BitVec.ofNat 64 (p.toNat / 2 ^ 35 * 2 ^ 35 + r.dbase + pos.toNat % r.n * r.size)

/-- A pair of registers receives a 64-bit value in every active lane. -/
def putAll64 (s : State) (g : Guard) (d : RegNo) (v : DWord) : State := putLanes64 s (active s g) d.toNat fun _ => v

/-- The checks of `ring.init`: reserved bits of C and LOG2N, for which LS_RANGE with the header's address is the model's choice
(log 79); the header's place, and the region's. -/
def ringInitCause (s : State) (a b c : Word) : Option (Nat × DWord) :=
  let n := 2 ^ (c.toNat % 16)
  let size := 16 * 2 ^ (c.toNat / 16 % 4)
  let inside (x len : Nat) : Bool :=
    decide (s.xbnd s.curCore ≤ x) && decide (x + len ≤ 0x2F0000) && !touchesConst s s.curCore x len
  if 64 ≤ c.toNat || 12 < c.toNat % 16 then some (0x05, a.setWidth 64)
  else if a.toNat % 64 ≠ 0 then some (0x06, a.setWidth 64)
  else if b.toNat % size ≠ 0 then some (0x06, b.setWidth 64)
  else if !inside a.toNat (64 + 4 * n) then some (0x05, a.setWidth 64)
  else if !inside b.toNat (n * size) then some (0x05, b.setWidth 64)
  else none

/-- `RING_INIT` (R137). -/
def execRingInit (g : Guard) (scope : BitVec 3) (a : RegNo) (b : RegNo) (c : RegNo) (s : State) :
    Host.Outcome State Fault Refusal :=
  issue (.ringInit g scope a b c) (fun s =>
    let l := firstLane s g
    let x := src s a.toNat l
    let y := src s b.toNat l
    let z := src s c.toNat l
    match ringInitCause s x y z with
    | some (k, f) => .trap k f s
    | none =>
      let s := logUndo s.curCore x.toNat (64 + 4 * 2 ^ (z.toNat % 16)) s
      let s := fillLs s s.curCore x.toNat (64 + 4 * 2 ^ (z.toNat % 16)) 0
      .done ((s.setLs s.curCore x.toNat 4 (z.toNat + scope.toNat * 2 ^ 16)).setLs s.curCore (x.toNat + 4) 4 y.toNat)) s

/-- A form sleeps on a ring: it holds a waiter entry of the NI (R137). -/
def sleepOn (h : Nat) (s : State) : Exec := .wait 11 (setAwait (.atRing (keyCore h)) s)

/-- `RING_RSV` (R137). -/
def execRingRsv (g : Guard) (d : RegNo) (a : RegNo) (s : State) : Host.Outcome State Fault Refusal :=
  ringForm (.ringRsv g d a) g a (fun s h p _ =>
    let r := s.ring h
    if r.att ≠ 0 && r.n ≤ (r.rsvp - r.minc).toNat then sleepOn h s
    else .done (putAll64 (setWord32 (h + 8) (r.rsvp + 1) s) g d (slotPointer r p r.rsvp))) s

/-- Two local-store pointers lead into one store. -/
def sameStore (s : State) (p q : DWord) : Bool :=
  (ptrKind q == 1 || ptrKind q == 2) && match lsTarget s s.curLid p, lsTarget s s.curLid q with
    | some (a, _), some (b, _) => a + ptrLow q == b + ptrLow p
    | _, _ => false

/-- `RING_CMT` (R137): a release at the ring's SCOPE (R138). A slot pointer into another store names no slot. -/
def execRingCmt (g : Guard) (d : RegNo) (a : RegNo) (b : RegNo) (s : State) : Host.Outcome State Fault Refusal :=
  ringForm (.ringCmt g d a b) g a (fun s h p l =>
    let q := src64 s b.toNat l
    if ptrKind q = 2 && !s.privileged then .trap 0x18 q s
    else afterWrites (s.ring h).scope (fun s =>
      if sameStore s p q && commitBad s h (ptrLow q) then sealAt h s
      else
      let r := if sameStore s p q then ringCommit h (ptrLow q) s
        else (setWord32 (h + 52) (word32 s (h + 52) + 1) s, 1)
      .done (putAll r.1 g d r.2)) s) s

/-- `RING_ATT` (R137). -/
def execRingAtt (g : Guard) (d : RegNo) (a : RegNo) (s : State) : Host.Outcome State Fault Refusal :=
  ringForm (.ringAtt g d a) g a (fun s h _ _ =>
    let r := s.ring h
    match (List.range 8).find? fun k => !attached r k with
    | none => .done (putAll s g d 0xFFFFFFFF)
    | some k =>
      let s := setCursor h k (if r.att ≠ 0 then r.minc else r.rsvp) s
      let s := writeKey (h + 1) 1 (r.att + 2 ^ k) s
      .done (putAll (refreshMinc h s) g d k)) s

/-- A cursor operand names an attached cursor; one with B[31:3] not zero names none, which is the model's choice (log 79). -/
def cursorOk (r : Ring) (b : Word) : Bool := decide (b.toNat < 8) && attached r b.toNat

/-- `RING_WAIT` (R137). -/
def execRingWait (g : Guard) (d : RegNo) (a : RegNo) (b : RegNo) (s : State) : Host.Outcome State Fault Refusal :=
  ringForm (.ringWait g d a b) g a (fun s h p l =>
    let r := s.ring h
    let k := src s b.toNat l
    if !cursorOk r k then .trap 0x05 p s
    else
      let c := cursor s h k.toNat
      let ahead := (r.cmtp - c).toNat
      if ahead = 0 || 2 ^ 31 ≤ ahead then sleepOn h s else .done (putAll64 s g d (slotPointer r p c))) s

/-- `RING_REL` (R137). -/
def execRingRel (g : Guard) (d : RegNo) (a : RegNo) (b : RegNo) (s : State) : Host.Outcome State Fault Refusal :=
  ringForm (.ringRel g d a b) g a (fun s h _ l =>
    let r := s.ring h
    let k := src s b.toNat l
    let c := cursor s h k.toNat
    let ahead := (r.cmtp - c).toNat
    if !cursorOk r k || ahead = 0 || 2 ^ 31 ≤ ahead then .done (putAll s g d 1)
    else .done (putAll (refreshMinc h (setCursor h k.toNat (c + 1) s)) g d 0)) s

/-- `RING_DET` (R137). -/
def execRingDet (g : Guard) (d : RegNo) (a : RegNo) (b : RegNo) (s : State) : Host.Outcome State Fault Refusal :=
  ringForm (.ringDet g d a b) g a (fun s h _ l =>
    let r := s.ring h
    let k := src s b.toNat l
    if !cursorOk r k then .done (putAll s g d 1)
    else
      let s := writeKey (h + 1) 1 (r.att - 2 ^ k.toNat) s
      .done (putAll (refreshMinc h s) g d 0)) s

end Sys2Proof.Machine
end

