-- ==== Sys2Proof/Machine/Copies.lean ====
section
/-! DEFINITION. Copy engines (R114-R120, R126-R129) and the copy instructions (R130-R134), collectives included (R368). -/

namespace Sys2Proof.Machine

/-! Reductions of elements (R62, R132, R133). -/

/-- The float format of an element type. -/
def typeFmt (t : Nat) : Option FFmt := if t = 6 then some .f16 else if t = 7 then some .bf16 else if t = 8 then some .f32 else none

/-- The signed value of an element: types 0, 2 and 4 are signed. -/
def typeInt (t v : Nat) : Int := if t % 2 = 0 then signedOf (8 * typeBytes t) v else v

/-- A reduction of two elements (R62, R132): 0 add, 1 min, 2 max, 3 and, 4 or, 5 xor. -/
def reduceElem (t op a b : Nat) : Nat :=
  match op, typeFmt t with
  | 0, some f => f.add a b
  | 0, none => (a + b) % 2 ^ (8 * typeBytes t)
  | 1, some f => f.minNum a b
  | 1, none => if typeInt t a ≤ typeInt t b then a else b
  | 2, some f => f.maxNum a b
  | 2, none => if typeInt t a ≤ typeInt t b then b else a
  | 3, _ => a &&& b
  | 4, _ => a ||| b
  | _, _ => a ^^^ b

def tileNumber : TileOp → Nat
  | .none => 0
  | .add => 0
  | .min => 1
  | .max => 2
  | .and => 3
  | .or => 4
  | .xor => 5

/-! The queue (R115). -/

/-- A command of the agenda that awaits acceptance; those of copy nodes apart, which hold no entry of a wave's yet. -/
def awaiting (hall : Nat) (t : Task) : Option CopyCmd := match t.op, t.arg with
  | .copyAccept, .copy c => if c.hall = hall && c.tuple.isNone && holdsEntry c then some c else none
  | _, _ => none

/-- Commands of a hall that hold entries, those on their way to the engine included. -/
def entries (s : State) (hall : Nat) : List CopyCmd := ((s.hall hall).queue.filter holdsEntry) ++ s.agenda.filterMap (awaiting hall)

def sharedHeld (s : State) (hall : Nat) : Nat := ((entries s hall).filter (·.shared)).length

def ownHeld (s : State) (hall core slot : Nat) : Bool :=
  (entries s hall).any fun c => !c.shared && c.src.core == core && c.src.slot == slot

/-- The entry a command of a wave may take (R314, R315): none, or whether it is a shared one. -/
def freeEntry (s : State) (hall core slot : Nat) (coll : Bool) : Option Bool :=
  if s.stopped core then none
  else if !coll && !ownHeld s hall core slot then some false
  else if sharedHeld s hall < 256 then some true
  else none

/-! Sides of a copy. -/

/-- An engine's translation: its own cache of 64 entries, then its hall unit's (R77). -/
def engineTranslate (s : State) (hall ctx va need : Nat) : State × Except Nat Trans :=
  match (s.hall hall).engineTlb.find? fun t => t.ctx == ctx && decide (t.va ≤ va) && decide (va < t.va + t.bytes) with
  | some t =>
    let r := transOf va t.pte.toNat t.va t.bytes
    (s, match refused s need r with
      | some e => .error e
      | none => .ok r)
  | none =>
    match translate s hall ctx va need with
    | (s, .error r) => (s, .error r)
    | (s, .ok r) => (s.updHall hall fun h =>
        { h with engineTlb := (⟨ctx, r.page, r.bytes, BitVec.ofNat 128 r.pte⟩ :: h.engineTlb).take 64 }, .ok r)

/-- The engine's translation of a pointer need not wait for a walk's homes (R78). -/
def engineFree (s : State) (c : CopyCmd) (p : DWord) : Bool :=
  ptrKind p != 0 ||
    ((s.hall c.hall).engineTlb.any fun t => t.ctx == c.ctx && decide (t.va ≤ p.toNat) && decide (p.toNat < t.va + t.bytes)) ||
    walkFree s c.hall c.ctx p.toNat

/-- One side of a line transfer resolved: memory key, key index, execution point, and whether it is a device page, an HBM page, and
one with EX. -/
structure SideKey where
  key : Nat
  slot : Nat
  point : Nat
  dev : Bool
  hbm : Bool
  ex : Bool

/-- A side resolved, or its failure as reason and class (R126): reasons 6 and 7 of a device side; a core that is sealed, or in no package
of the domain (R350, R365, log 97). -/
def sideKey (s : State) (c : CopyCmd) (p : DWord) (need : Nat) : State × Except (Nat × Nat) SideKey :=
  if ptrKind p = 0 then
    match engineTranslate s c.hall c.ctx p.toNat need with
    | (s, .error r) => (s, .error (r, 0))
    | (s, .ok t) => match lineFault s t.dpa (pteKey t.pte) with
      | some r => (s, .error (r, 0))
      | none => (s, .ok ⟨t.dpa, pteKey t.pte, pointOf s t.dpa t.pte, true, dpaSpace t.dpa == 0, pteBit t.pte 4⟩)
  else match cmdTarget s c p with
    | none => (s, .error (0, 1))
    | some (k, slot) =>
      if (farCause s k).isSome then (s, .error (0, 3))
      else (s, .ok ⟨k, slot, pointOf s k 0, false, false, false⟩)

/-- Why a destination of `n` bytes stops the copy: reason, class and side (R75, R126). Below XBND only an HBM page with EX may be
copied, and a device page without EX lacks the permission. -/
def destStop (s : State) (p : DWord) (d src : SideKey) (n : Nat) : Option (Nat × Nat × Nat) :=
  if ptrKind p = 0 then none
  else if 0x2F0000 < ptrLow p + n then some (0, 1, 1)
  else if isLsKey d.key && decide (ptrLow p < s.xbnd (keyCore d.key)) && !(src.hbm && src.ex) then
    (if src.dev && !src.ex then some (2, 0, 0) else some (0, 1, 1))
  else none

/-- Why a source cannot be read (R126). -/
def sourceStop (s : State) (d : SideKey) : Option (Nat × Nat) :=
  if isLsKey d.key then none else (readFault s d.key d.slot).map fun r => (r, 0)

/-- A device line may be read at once: requests hold nothing there but a lease, behind which copies read (R88, R95, R109). -/
def readFree (s : State) (l : Nat) : Bool :=
  (s.line l).queue.isEmpty && (s.line l).state != .filling && !s.pageOps.any fun p => decide (p.old ≤ l * 128) && decide (l * 128 < p.old + p.bytes)

/-- The source of an element may be read at once. -/
def sourceFree (s : State) (c : CopyCmd) (p : DWord) : Bool :=
  engineFree s c p && match (sideKey s c p needRead).2 with
    | .ok a => isLsKey a.key || readFree s (lineOf a.key)
    | .error _ => true

/-! Ending a command. -/

def maxOf (xs : List Nat) : Nat := xs.foldl max 0

def findCopy (s : State) (hall id : Nat) : Option CopyCmd := (s.hall hall).queue.find? fun c => c.id == id

def updCopy (hall id : Nat) (f : CopyCmd → CopyCmd) (s : State) : State :=
  s.updHall hall fun h => { h with queue := h.queue.map fun c => if c.id == id then f c else c }

/-- An operation of a wave that has not completed, wherever its wave now is (R262). -/
def State.opOf (s : State) (id : Nat) : Option Op :=
  ((s.waves.map fun p => p.2.ops).flatten ++ (s.saved.flatMap fun v => v.waves.flatMap fun p => p.2.ops) ++
    (s.launches.map fun l => l.ops).flatten).find? fun o => o.id == id

/-- Operations of a list are complete at a scope, wherever their wave now is. -/
def settledAt (s : State) (ids : List Nat) (scope : Nat) : Bool := ids.all fun id => match s.opOf id with
  | some o => completeAt scope o
  | none => true

/-- The header of the ring that a `.rc` commits to. -/
def copyRing (s : State) (c : CopyCmd) : Option Nat := c.ring.bind fun p => (cmdTarget s c p).map (·.1)

/-- A `.rc` commit is a release at the ring's SCOPE (R138). -/
def commitFree (s : State) (c : CopyCmd) : Bool := match copyRing s c with
  | none => true
  | some h => settledAt s c.prior (s.ring h).scope

/-- The header of a `.rc` whose commit would read an uncorrectable word (R166). -/
def commitPoison (s : State) (c : CopyCmd) : Option Nat :=
  (copyRing s c).bind fun h => if (s.ring h).ok && commitBad s h (ptrLow c.to_) then some h else none

/-- A `.rc` commits the slot that holds its destination; a refusal is recorded with CLASS 4 (R130, R138), FIRST being the
destination pointer, which is the model's choice (log 78). -/
def commitSlot (c : CopyCmd) (s : State) : State :=
  match copyRing s c with
  | none => s
  | some h =>
      let r := if (s.ring h).ok then ringCommit h (ptrLow c.to_) s else (s, 1)
      let entry := dfrBits c.to_.toNat 0 c.src.pc (copyMaj c) 0x05 0 4 0 0 0
      if r.2 = 0 then r.1 else recordOp r.1 c.id entry

/-- The last byte is written: a `.rc` commits its slot; the command is complete (R130, R138, R262). A commit that meets an
uncorrectable word seals the ring's core, and the copy stops with CLASS 3 (R129, R166). -/
def finishCopy (c : CopyCmd) (s : State) : State :=
  match commitPoison s c with
  | some h => sealCore (keyCore h) s
  | none =>
    let s := commitSlot c (dropCopy s c)
    completeOp s c.src c.id

/-- An ordered command waits for the wave's earlier copies (R118). -/
def orderedHeld (s : State) (c : CopyCmd) : Bool := c.ordered && c.after.any fun id => (s.opOf id).isSome

/-- Everything a command has issued is applied, and it has no more to issue. -/
def copyApplied (s : State) (c : CopyCmd) : Bool := (c.stop.isSome || !isColl c) && !copyLeft c && !inFlight s c.id

/-- A command that can end: it has stopped, or issued everything and may commit; nothing of it is on its way, and the pool has
acknowledged its lines (R86, R126, R262). -/
def copyOver (s : State) (c : CopyCmd) : Bool :=
  copyApplied s c && !unwrittenBy s c.src c.id && (c.stop.isSome || (commitFree s c && !orderedHeld s c))

/-- A command with nothing in flight ends if it has stopped or issued everything; while pool lines of it stand unwritten it is complete
up to device scope (R262). -/
def settleCopy (hall id : Nat) (s : State) : State :=
  match findCopy s hall id with
  | none => s
  | some c =>
    if !copyOver s c then (if copyApplied s c then onOps s c.src c.id (applyOp c.id) else s)
    else match c.stop with
      | some (done, reason, cls, side) => copyFault s c done reason cls side
      | none => finishCopy c s

/-- The earlier of two stops. -/
def earlierStop (old : Option (Nat × Nat × Nat × Nat)) (done reason cls side : Nat) : Option (Nat × Nat × Nat × Nat) := match old with
  | some q => if q.1 ≤ done then some q else some (done, reason, cls, side)
  | none => some (done, reason, cls, side)

/-- A command stops `done` bytes from its start; lines from there on are not written. -/
def stopCopy (hall id done reason cls side : Nat) (s : State) : State :=
  settleCopy hall id (updCopy hall id (fun c => { c with stop := earlierStop c.stop done reason cls side }) (dropLines id done s))

/-! Line transfers. -/

/-- A line of a copy with its source: the bytes of the destination line by their offsets in it; `imm` 0, or 1 + 16 × type + operation for
a reduction; the landing in `anch`; the bytes it debits in `arg`; its place in the copy in `va`, and the end of what it carries in
`due`. -/
def lineMsg (c : CopyCmd) (at_ end_ debit : Nat) (a : SideKey) (cells : List Host.Cell) (imm : Nat) : Msg :=
  { src := c.src, due := end_, tgt := a.key, key := a.slot, point := a.point, bytes := cells, id := c.id, reason := c.hall, ctx := c.lid
    anch := c.landing.getD 0, kind := c.landing.isSome.toNat, arg := BitVec.ofNat 128 debit, va := BitVec.ofNat 64 at_
    imm := BitVec.ofNat 32 imm }

/-- Bytes of a resolved source. -/
def sideRead (s : State) (k : SideKey) (n : Nat) : Nat := s.keyRead k.key n k.slot

/-- An element read for its command: its number, the sides resolved, and its bytes at their destination. -/
structure Elem where
  num : Nat
  src : SideKey
  dst : SideKey
  cells : List Host.Cell

/-- Sources and destinations of elements of `size` bytes resolved one after another: each element read, and, if one fails, its number, reason, class and side. -/
def collectGo (c : CopyCmd) (size : Nat) : List Nat → State → List Elem →
    State × List Elem × Option (Nat × Nat × Nat × Nat)
  | [], s, acc => (s, acc, none)
  | i :: rest, s, acc =>
    match sideKey s c (elemPointer c 0 i) needRead with
    | (s, .error (r, cls)) => (s, acc, some (i, r, cls, 0))
    | (s, .ok a) => match sourceStop s a with
      | some (r, cls) => (s, acc, some (i, r, cls, 0))
      | none => match sideKey s c (elemPointer c 1 i) needWrite with
        | (s, .error (r, cls)) => (s, acc, some (i, r, cls, 1))
        | (s, .ok b) => match destStop s (elemPointer c 1 i) b a size with
          | some (r, cls, side) => (s, acc, some (i, r, cls, side))
          | none =>
            if isLsKey a.key && lsBad s a.key size then (sealCore (keyCore a.key) s, acc, some (i, 0, 3, 0))
            else
              let s := if isLsKey a.key then lsRepair s a.key size else touch (lineOf a.key) a.slot a.point s
              collectGo c size rest s (acc ++ [⟨i, a, b, cellsOf b.key size (sideRead s a size)⟩])

/-- The operation code of a tile's line writes. -/
def unitImm (c : CopyCmd) : Nat :=
  match c.kind with
  | .tile .none _ => 0
  | .tile op v => 1 + 16 * shapeType v + tileNumber op
  | _ => 0

/-- Of elements of a tile that alias, either value stands (R132): a free choice among those of one destination (log 5). -/
def freeAlias (seed : Nat) (elems : List (List Host.Cell)) : List Host.Cell :=
  let start (e : List Host.Cell) : Nat := (e.headD (0, 0)).1
  ((elems.map start).eraseDups.flatMap fun k =>
    let same := elems.filter fun e => start e == k
    same.getD (Config.freeNat (seed + 2 ^ 64 * k) % same.length) [])

/-- An element lies before the stop of its command. -/
def beforeStop (c : CopyCmd) (i : Nat) : Bool := c.stop.all fun q => decide (i * elemBytes c < q.1)

/-- The line transfer of lane `i` issues no earlier than that of lane `j`. -/
def notBefore (c : CopyCmd) (i j : Nat) : Bool := match c.kind with
  | .gather _ lanes => decide (gatherUnit lanes j ≤ gatherUnit lanes i)
  | _ => false

/-- A byte that a higher lane of the gather, before its stop, has written or writes with it, by where the pointers lead (R131). What a
later transfer writes over it arrives behind it. -/
def shadowed (s : State) (c : CopyCmd) (lane byte : Nat) : Bool :=
  (List.range (sidePointers c 1).length).any fun j => decide (lane < j) && beforeStop c j && notBefore c lane j &&
    match (sideKey s c (elemPointer c 1 j) needWrite).2 with
    | .ok b => decide (b.key ≤ byte) && decide (byte < b.key + elemBytes c)
    | .error _ => false

/-- The bytes that elements of a unit write. -/
def unitCells (s : State) (c : CopyCmd) (got : List Elem) : List Host.Cell :=
  match c.kind with
  | .gather _ _ => lastWins (got.flatMap fun e => e.cells.filter fun (x : Host.Cell) => !shadowed s c e.num x.1)
  | .tile .none _ => freeAlias s.nonce (got.map (·.cells))
  | _ => got.flatMap (·.cells)

/-- Bytes at keys as offsets in the line of the pointer `p`, which leads to `key`; and back. -/
def toOffsets (p : DWord) (key : Nat) (cells : List Host.Cell) : List Host.Cell :=
  cells.map fun (x : Host.Cell) => (x.1 + p.toNat % 128 - key, x.2)

def fromOffsets (p : DWord) (key : Nat) (cells : List Host.Cell) : List Host.Cell :=
  cells.map fun (x : Host.Cell) => (key + x.1 - p.toNat % 128, x.2)

/-- Why an element cannot be moved now: reason, class and side; a partial write of a poisoned line among them (R126, R349). -/
def elemStop (s : State) (c : CopyCmd) (i : Nat) : Option (Nat × Nat × Nat) :=
  match (sideKey s c (elemPointer c 0 i) needRead).2 with
  | .error (r, cls) => some (r, cls, 0)
  | .ok a => match sourceStop s a, (sideKey s c (elemPointer c 1 i) needWrite).2 with
    | some (r, cls), _ => some (r, cls, 0)
    | none, .error (r, cls) => some (r, cls, 1)
    | none, .ok b => match destStop s (elemPointer c 1 i) b a (elemBytes c) with
      | some e => some e
      | none =>
        let bytes := (unitMates c i).flatMap fun j => (List.range (elemBytes c)).map ((elemPointer c 1 j).toNat + ·)
        if !isLsKey b.key && poisonedLine s (lineOf b.key) && (unitImm c ≠ 0 || bytes.eraseDups.length < 128) then some (5, 0, 1) else none

/-- The first element of the transfers left of a gather or tile that cannot be moved: the copy stops there (R126). -/
def firstStop (s : State) (c : CopyCmd) : Option (Nat × Nat × Nat × Nat) :=
  ((List.range (copyTotal c - c.issued)).flatMap fun k => unitElems c (c.issued + k)).foldl (fun best i =>
    if best.any fun q => decide (q.1 ≤ i) then best else match elemStop s c i with
      | some (r, cls, side) => some (i, r, cls, side)
      | none => best) none

/-- Elements of a command read, and their line with the engine; `next` is the state of the command after them. Where one fails, those
before it are written, and the command stops at it (R126, R127). DONE is in bytes for a `cpg` too, its lanes done by their size
(log 75). -/
def moveElems (c next : CopyCmd) (size : Nat) (es : List Nat) (s : State) : State :=
  let write (got : List Elem) (s : State) : State := match got with
    | [] => s
    | e :: _ =>
      let cells := unitCells s c got
      if poisonedLine s (lineOf e.dst.key) && !isLsKey e.dst.key && ((cells.map (·.1)).eraseDups.length < 128 || unitImm c ≠ 0) then
        stopCopy c.hall c.id (e.num * size) 5 0 1 s
      else s.post .lineData (.msg (lineMsg c (e.num * size) ((maxOf (got.map (·.num)) + 1) * size) (got.length * size) e.src
        (toOffsets (elemPointer c 1 e.num) e.dst.key cells) (unitImm c)))
  match collectGo c size es s [] with
  | (s, got, none) => write got (updCopy c.hall c.id (fun d => { d with issued := next.issued, stop := next.stop }) s)
  | (s, got, some (i, r, cls, side)) => stopCopy c.hall c.id (i * size) r cls side (write got s)

/-- A gather or tile issues its next group or line, of what lies before the first element that cannot be moved. -/
def unitStep (c : CopyCmd) (s : State) : State :=
  let c := match firstStop s c with
    | some (i, r, cls, side) => { c with stop := earlierStop c.stop (i * elemBytes c) r cls side }
    | none => c
  moveElems c { c with issued := c.issued + 1 } (elemBytes c) ((unitElems c c.issued).filter (beforeStop c)) s

/-- The next chunk of a linear copy, in one source line and one destination line; one into local store ends with a 4-byte word of
the destination, each of which is written whole (R116). None where the rest of the source line has no whole word. -/
def chunk (c : CopyCmd) : Nat :=
  let a := c.from_.toNat + c.issued
  let b := c.to_.toNat + c.issued
  let n := min (c.bytes - c.issued) (min (128 - a % 128) (128 - b % 128))
  if ptrKind c.to_ = 0 || c.issued + n = c.bytes then n else n - (b + n) % 4

/-- The bytes of a destination word that two source lines fill. -/
def straddle (c : CopyCmd) : Nat := min (c.bytes - c.issued) (4 - (c.to_.toNat + c.issued) % 4)

/-- The next chunk of a `cp` issues. -/
def linearStep (c : CopyCmd) (s : State) : State :=
  let n := chunk c
  let o := c.issued
  let dst := elemPointer c 1 o
  if n = 0 then moveElems c { c with issued := o + straddle c } 1 ((List.range (straddle c)).map (o + ·)) s
  else match sideKey s c (elemPointer c 0 o) needRead with
  | (s, .error (r, cls)) => stopCopy c.hall c.id o r cls 0 s
  | (s, .ok a) =>
    match sourceStop s a with
    | some (r, cls) => stopCopy c.hall c.id o r cls 0 s
    | none => match sideKey s c dst needWrite with
      | (s, .error (r, cls)) => stopCopy c.hall c.id o r cls 1 s
      | (s, .ok b) => match destStop s dst b a n with
        | some (r, cls, side) => stopCopy c.hall c.id o r cls side s
        | none =>
          if !isLsKey b.key && poisonedLine s (lineOf b.key) && n < 128 then stopCopy c.hall c.id o 5 0 1 s
          else
            let issued := updCopy c.hall c.id fun c => { c with issued := o + n }
            let line (v : Nat) : Arg := .msg (lineMsg c o (o + n) n a (cellsOf (dst.toNat % 128) n v) 0)
            if isLsKey a.key then niTouch s a.key n fun s => (issued s).post .lineData (line (sideRead s a n))
            else (issued s).post .copyReadRequest (line 0)

/-- The elements that the next transfer of a command reads at once. -/
def nextElems (c : CopyCmd) : List Nat := match c.kind with
  | .linear => if chunk c = 0 then (List.range (straddle c)).map (c.issued + ·) else []
  | _ => unitElems c c.issued

/-- The next transfer need wait at no home and for no walk. -/
def transferFree (s : State) (c : CopyCmd) : Bool :=
  engineFree s c (elemPointer c 0 c.issued) && engineFree s c (elemPointer c 1 c.issued) &&
    (nextElems c).all fun i => sourceFree s c (elemPointer c 0 i) && engineFree s c (elemPointer c 1 i)

/-- The command whose line the engine issues next: the first in order of acceptance that has lines left (R116). -/
def nextCopy (s : State) (hall : Nat) : Option CopyCmd :=
  match (s.hall hall).queue.find? copyLeft with
  | none => none
  | some c => if orderedHeld s c || !transferFree s c then none else some c

/-- A command of an engine that can end. -/
def overCopy (s : State) (hall : Nat) : Option CopyCmd := (s.hall hall).queue.find? (copyOver s)

/-- `COPY_LINE_TRANSFER`: hall. A command that can end does so; otherwise the engine issues the next line. -/
def execCopyLineTransfer (s : State) : Host.Outcome State Fault Refusal :=
  event (fun s => match s.nums with
    | [hall] => match overCopy s hall, nextCopy s hall with
      | some c, _ => settleCopy hall c.id s
      | none, none => s
      | none, some c => match c.kind with
        | .linear => linearStep c s
        | _ => unitStep c s
    | _ => s) s

/-! Lines arriving. -/

/-- A source line read at its home (R117). -/
def homeCopyRead (m : Msg) (s : State) : State :=
  match readFault s m.tgt m.key with
  | some r => stopCopy m.reason m.id m.va.toNat r 0 0 s
  | none =>
    let n := m.bytes.length
    s.post .lineData (.msg { m with bytes := cellsOf ((m.bytes.headD (0, 0)).1) n (s.devRead m.tgt n m.key) })

/-- The destination pointer of a line with its engine. -/
def linePlace (c : CopyCmd) (m : Msg) : DWord := elemPointer c 1 (m.va.toNat / elemBytes c)

/-- `LINE_DATA`: a line reaches the engine, which translates its destination and sends it on (R82). -/
def execLineData (s : State) : Host.Outcome State Fault Refusal :=
  onMsg (fun m s => match findCopy s m.reason m.id with
    | none => s
    | some c => match sideKey s c (linePlace c m) needWrite with
      | (s, .error (r, cls)) => stopCopy m.reason m.id m.va.toNat r cls 1 s
      | (s, .ok b) => s.post .copyLineWrite (.msg { m with
          sseq := none, tgt := b.key, key := b.slot, point := b.point, bytes := fromOffsets (linePlace c m) b.key m.bytes })) s

/-- A line of a copy that an engine must hold a later one for (R126, R127): what may still stop the copy at it would leave the later one
written behind the stop. What only a seal could stop, a line on its way into a local store for a copy that cannot be cancelled, is none
(log 93); nor may lines of a gather pass each other, whose bytes may be the same (R131). -/
def holdsLater (s : State) (m : Msg) (t : Task) : Bool := match lineOffset m.id t, t.arg with
  | some o, .msg n => decide (o < m.va.toNat) &&
      (!(t.op matches .copyLineWrite) || m.kind ≠ 0 || !isLsKey n.tgt || match findCopy s m.reason m.id with
        | some c => (match c.kind with
          | .gather _ _ => true
          | _ => false)
        | none => false)
  | _, _ => false

/-- A line with its engine waits for earlier lines of its copy, or for the walk of its destination (R78). -/
def lineHeld (s : State) (m : Msg) : Bool := s.inTransit.any (holdsLater s m) || match findCopy s m.reason m.id with
  | some c => !engineFree s c (linePlace c m)
  | none => false

/-- A line's bytes after a write: as they are, or reduced element by element into what is stored. -/
def lineCells (m : Msg) (s : State) : List Host.Cell :=
  if m.imm = 0 then m.bytes
  else
    let code := m.imm.toNat - 1
    let size := typeBytes (code / 16)
    let starts := (List.range (m.bytes.length / size)).map fun i => i * size
    starts.foldl (fun acc i =>
      let cs := (m.bytes.drop i).take size
      let k := (cs.headD (0, 0)).1
      let old := bytesToNat ((List.range size).map fun j =>
        match acc.find? fun (x : Host.Cell) => x.1 == k + j with
        | some x => x.2
        | none => BitVec.ofNat 8 (s.keyRead (k + j) 1 m.key))
      cellsOf k size (reduceElem (code / 16) (code % 16) old (bytesToNat (cs.map (·.2)))) ++ acc) []

/-- A line that the issuer of a copy writes into its own store, or for it into its partner's: each core of a pair makes it (R355). -/
def ownLine (s : State) (m : Msg) : Bool :=
  isLsKey m.tgt && (m.src.core == keyCore m.tgt || mirrorOf s m.src.core == some (keyCore m.tgt))

/-- The landing of a line write is debited, at its partner's store too (R122, R355). -/
def debitLanding (m : Msg) (s : State) : State :=
  if m.kind = 0 then s
  else match (match findCopy s m.reason m.id with
      | some c => landingKey s c
      | none => (lsTarget s m.ctx m.anch).map (·.1)) with
    | none => s
    | some k =>
      let t := updateLanding k (fun l => l.update 0 m.arg.toNat) s
      if ownLine s m then t else echo k 16 t

/-- A line of a copy has been applied: its landing is debited, that of a pool line once the pool acknowledges it (R86, R122,
R126). -/
def countLine (m : Msg) (s : State) : State :=
  let s := updCopy m.reason m.id (fun c => { c with high := max c.high m.due }) s
  if onPool m then s.updLine (lineOf m.tgt) fun x =>
    { x with owed := x.owed ++ [⟨[⟨.writeAcknowledgement, .msg { m with kind := m.kind + 2, bytes := [] }⟩], []⟩] }
  else debitLanding m s

/-- `WRITE_ACKNOWLEDGEMENT`: form 0 at every scope, form 1 up to device scope; forms 2 and 3 bring an engine the pool's
acknowledgement of a line, with no landing or one (R126, R262). -/
def execWriteAcknowledgement (s : State) : Host.Outcome State Fault Refusal :=
  onMsg (fun m s =>
    if 2 ≤ m.kind then settleCopy m.reason m.id (debitLanding { m with kind := m.kind - 2 } s)
    else if m.kind = 1 then onOps s m.src m.id (applyOp m.id) else completeOp s m.src m.id) s

/-- A pool line that a copy wrote waits for its device. -/
def noteUnwritten (m : Msg) (s : State) : State :=
  if onPool m then s.updLine (lineOf m.tgt) fun x =>
    { x with unwritten := if x.unwritten.contains (m.src, m.id) then x.unwritten else x.unwritten ++ [(m.src, m.id)] }
  else s

/-- A line write is applied at its home: whole, or the copy stops there (R116, R126). -/
def homeCopyWrite (m : Msg) (s : State) : State :=
  match (match lineFault s m.tgt m.key with
    | some r => some r
    | none => if m.imm = 0 then none else readFault s m.tgt m.key) with
  | some r => stopCopy m.reason m.id m.va.toNat r 0 1 s
  | none =>
    match homeWrite s (lineOf m.tgt) m.key m.point (lineCells m s).reverse m.src m.id with
    | none => stopCopy m.reason m.id m.va.toNat 5 0 1 s
    | some t => settleCopy m.reason m.id (countLine m (noteUnwritten m t))

/-- The bytes of a line written in a local store; a copy of a paired core into itself is not repeated on its partner. -/
def niCopyBytes (m : Msg) (s : State) : State :=
  let cells := (lineCells m s).reverse
  let s := if ownLine s m then { s with mem := Memory.writeCells s.mem cells } else niWrite cells s
  settleCopy m.reason m.id (countLine m (lsOverwriteCells s cells))

/-- A line write is applied in a local store; a reduction consumes the words it reads (R166). At a core out of reach the copy stops
(log 97). -/
def niCopyWrite (m : Msg) (s : State) : State :=
  if farOff s m then stopCopy m.reason m.id m.va.toNat 0 3 1 s
  else if m.imm = 0 then niCopyBytes m s
  else if m.bytes.any fun c => lsBad s c.1 1 then sealCore (keyCore m.tgt) s
  else niCopyBytes m (m.bytes.foldl (fun s c => lsRepair s c.1 1) s)

/-! Acceptance and promises (R119). -/

/-- `n` cycles of a clock in `clk` counts. -/
def inClk (n mhz : Nat) : Nat := (n * 2000 + mhz - 1) / mhz

/-- A side of a command: local store of a core, HBM, the host link, or a pool port. -/
inductive Side where
  | ls (core : Nat)
  | hbm
  | host
  | pool (port : Nat)
  deriving DecidableEq, Repr

/-- The side a pointer leads to; one that does not translate counts as HBM. -/
def sideOf (s : State) (c : CopyCmd) (p : DWord) (need : Nat) : State × Side :=
  if ptrKind p = 0 then
    match engineTranslate s c.hall c.ctx p.toNat need with
    | (s, .error _) => (s, .hbm)
    | (s, .ok t) => (s, match dpaSpace t.dpa with
      | 0 => .hbm
      | 1 => .host
      | _ => .pool (s.regionPort (poolRegion t.dpa)))
  else match cmdTarget s c p with
    | some (k, _) => (s, if isLsKey k then .ls (keyCore k) else .hbm)
    | none => (s, .ls 0)

/-- Lines of [a, a + n). -/
def lineCount (a n : Nat) : Nat := if n = 0 then 0 else (a + n - 1) / 128 - a / 128 + 1

/-- Packages between two of the torus (R146). -/
def flights (s : State) (a b : Nat) : Nat :=
  let d (x y size : Nat) : Nat := min (absDiff x y) (size - absDiff x y)
  d (a % 128) (b % 128) s.torusX + d (a / 128) (b / 128) s.torusY

/-- Destination lines of a command. -/
def copyLines (c : CopyCmd) : Nat :=
  match c.kind with
  | .linear => lineCount c.to_.toNat c.bytes
  | .coll _ _ => lineCount c.to_.toNat c.bytes
  | _ => copyTotal c

def members (s : State) (tab : Nat) : Members := Sparse.get {} s.tables tab

/-- The rank of this package in a table. -/
def myRank (s : State) (tab : Nat) : Option Nat :=
  let t : Members := Sparse.get {} s.tables tab
  (List.range t.ranks.length).find? fun k => (t.ranks.getD k (0, false)).1 == s.pkg

/-- Elements of SRC and of DST for a kind, by COUNT and table size. -/
def collSizes (kind count m : Nat) : Nat × Nat :=
  match kind with
  | 1 => (count * m, count)
  | 2 => (count, count * m)
  | _ => (count, count)

/-- The descriptor of a collective, as it stands (R129). -/
def descBits (s : State) (c : CopyCmd) (desc : DWord) : Nat := match cmdTarget s c desc with
  | some (k, _) => s.peek k 64
  | none => 0

/-- A field of a descriptor written, and of a partner's (R355). -/
def putDesc (c : CopyCmd) (desc : DWord) (off v : Nat) (s : State) : State := match cmdTarget s c desc with
  | some (k, _) => echo (k + off) 4 (s.poke (k + off) 4 v)
  | none => s

/-- Bytes of SRC that this member reads: in a `bcast` the root alone reads any (R133). -/
def collSource (s : State) (kind : Nat) (v : Nat) : Nat :=
  if kind = 3 && (myRank s (bitsAt v 200 8)).getD 0 ≠ bitsAt v 208 16 then 0
  else (collSizes kind (bitsAt v 160 32) (members s (bitsAt v 200 8)).size).1 * typeBytes (bitsAt v 192 4)

/-- Source lines of a command. -/
def sourceLines (s : State) (c : CopyCmd) : Nat :=
  match c.kind with
  | .linear => lineCount c.from_.toNat c.bytes
  | .gather _ lanes => (gatherGroups lanes).length
  | .tile _ v => ((List.range (shapeCount v)).map fun i => (c.from_.toNat + tupleOffset v 136 i) / 128).eraseDups.length
  | .coll kind desc => lineCount c.from_.toNat (collSource s kind (descBits s c desc))

def Side.base : Side → Nat
  | .ls _ => 40
  | .hbm => 840
  | .pool _ => 1640
  | .host => 2000

/-- Journey between the engine and a local-store side. -/
def sideTail (s : State) (hall : Nat) : Side → Nat
  | .ls c => 2 * hops (unitCore s hall) c + 16 * stairs (unitCore s hall) c + 400 * flights s s.pkg (corePkg c)
  | _ => 0

/-- The pointers whose sides a command's acceptance finds, with the lines of each: the first of a range, or each group's. -/
def sideLines (s : State) (c : CopyCmd) (side : Nat) : List (DWord × Nat) := match c.kind with
  | .gather _ lanes => (List.range (gatherGroups lanes).length).map fun k => (elemPointer c side ((unitElems c k).headD 0), 1)
  | _ => if side = 0 then (if sourceLines s c = 0 then [] else [(c.from_, sourceLines s c)]) else [(c.to_, copyLines c)]

/-- The sides of a command with their lines. -/
def sidesOf (s : State) (c : CopyCmd) (side : Nat) : State × List (Side × Nat) :=
  (sideLines s c side).foldl (fun (r : State × List (Side × Nat)) q =>
    let x := sideOf r.1 c q.1 (if side = 0 then needRead else needWrite)
    (x.1, r.2 ++ [(x.2, q.2)])) (s, [])

/-- An engine may accept a command: no walk for its first pages waits (R78). -/
def acceptFree (s : State) (c : CopyCmd) : Bool :=
  ([0, 1].flatMap fun side => (sideLines s c side).map (·.1)).all (engineFree s c)

/-- The number of a slot's grantor: the host link, or a pool port. -/
def Side.grantor : Side → Option Nat
  | .host => some 1
  | .pool p => some (2 + p)
  | _ => none

/-- The cores among sides. -/
def sideCores (xs : List (Side × Nat)) : List Nat := (xs.filterMap fun q => match q.1 with
  | .ls c => some c
  | _ => none).eraseDups

/-- The grantors among sides, each with the lines asked of it. -/
def sideGrants (xs : List (Side × Nat)) : List (Nat × Nat) :=
  (xs.filterMap fun q => q.1.grantor).eraseDups.map fun g => (g, ((xs.filter fun q => q.1.grantor == some g).map (·.2)).sum)

/-- An engine accepts a command: it translates the first pages, computes the promise and reserves (R119). -/
def acceptCopy (c : CopyCmd) (s : State) : State × Nat :=
  let (s, a) := sidesOf s c 0
  let (s, b) := sidesOf s c 1
  let n := copyLines c
  let ndev := (((a ++ b).filter fun q => q.1 == .hbm).map (·.2)).sum
  let grants := sideGrants (a ++ b)
  let npool := (grants.map (·.2)).sum
  let cores := sideCores (a ++ b)
  let turns (x : Nat) : Nat := inClk ((4 * n + 2) / 3) (s.mhz (islandOf x))
  let h := s.hall c.hall
  let eng := inClk ((n + 1) / 2) (s.mhz (islandOf (unitCore s c.hall)))
  let start := maxOf (grants.map fun g => Sparse.get 0 s.slots g.1)
  let ts := max (max (max s.clk h.eClk) (maxOf (cores.map fun x => (s.core x).copyTurns)))
    (max (if ndev = 0 then 0 else h.gClk) start)
  let span := max (max eng (maxOf (cores.map turns))) (max (2 * ndev) (2 * npool))
  let tail (xs : List (Side × Nat)) : Nat := maxOf (xs.map fun q => sideTail s c.hall q.1)
  let base := maxOf ((a ++ b).map fun q => q.1.base)
  let s := cores.foldl (fun s x => s.updCore x fun v => { v with copyTurns := ts + turns x }) s
  let s := { s with slots := grants.foldl (fun m (g : Nat × Nat) => Sparse.upd 0 m g.1 fun e => max e s.clk + 2 * g.2) s.slots }
  let s := s.updHall c.hall fun h =>
    { h with eClk := ts + eng, gClk := if ndev = 0 then h.gClk else ts + 2 * ndev, queue := h.queue ++ [c] }
  (s, (ts + span + base + tail a + tail b) % 2 ^ 64)

/-- Bytes a command may write in device memory, for the binding table: a whole range, or anything (R267). -/
def copyRange (c : CopyCmd) : Nat × Nat :=
  match c.kind with
  | .linear => if ptrKind c.to_ = 0 then (c.to_.toNat, c.bytes) else (0, 0)
  | _ => (0, 2 ^ 57)

/-- Bytes it may write in local stores (R268): a range, or anything. -/
def copyLsRange (s : State) (c : CopyCmd) : Nat × Nat :=
  match c.kind with
  | .linear => if ptrKind c.to_ = 0 then (0, 0) else match cmdTarget s c c.to_ with
    | some (k, _) => (k, c.bytes)
    | none => (0, 0)
  | _ => (0, 2 ^ 67)

/-- `COPY_ACCEPT` (R119). Nothing is accepted from a halted core (R347). A collective's RANK is written (R133). A `.rc` of no bytes takes
no entry and has only its slot to commit. -/
def execCopyAccept (s : State) : Host.Outcome State Fault Refusal :=
  event (fun s => match s.arg with
    | .copy c =>
      if c.bytes = 0 && !isColl c then s.updHall c.hall fun h => { h with queue := h.queue ++ [c] }
      else if s.stopped c.src.core || (c.tuple.isSome && decide (256 ≤ sharedHeld s c.hall)) || !acceptFree s c then
        s.post .copyAccept (.copy c)
      else
        let (t, promise) := acceptCopy c s
        let t := match c.kind with
          | .coll _ desc =>
            (putDesc c desc 36 ((myRank t (bitsAt (descBits t c desc) 200 8)).getD 0) t).post .collCommit
              (.msg { src := c.src, id := c.id, reason := c.hall })
          | _ => t
        answer t c.src c.id promise 0
    | _ => s) s

/-! The instructions. -/

/-- The checks of R130 on one pointer with `n` bytes. -/
def copyPointerCause (s : State) (p : DWord) (n : Nat) : Option (Nat × DWord) :=
  if ptrKind p = 3 || (ptrKind p = 0 && p.toNat / 2 ^ 57 ≠ 0) then some (0x17, p)
  else if ptrKind p = 2 && !s.privileged then some (0x18, p)
  else if ptrKind p = 1 && (s.frameOf s.curLid (ptrCore p)).isNone then some (0x17, p)
  else if ptrKind p = 2 && !coreExists (ptrCore p) then some (0x17, p)
  else if ptrKind p ≠ 0 && 0x2F0000 < ptrLow p + n then some (0x05, p)
  else none

/-- A kind-01 pointer to an offset of the issuing core. -/
def ownPointer (s : State) (off : Nat) : DWord := BitVec.ofNat 64 (2 ^ 62 + s.logicalCore * 2 ^ 35 + off)

/-- The landing of a copy: at the destination core, or at the issuing core for a device destination (R124). -/
def landingPointer (s : State) (dst : DWord) (off : Nat) : DWord :=
  if ptrKind dst = 0 then ownPointer s off else BitVec.ofNat 64 (dst.toNat / 2 ^ 35 * 2 ^ 35 + off)

/-- The check of a landing named by an offset; 0 names none. One outside the wave's package raises LS_RANGE, which is the
model's choice (log 80). -/
def landingTrap (s : State) (p : DWord) (off : Nat) : Option (Nat × DWord) :=
  if off = 0 then none
  else match lsTarget s s.curLid p with
    | none => some (0x05, BitVec.ofNat 64 off)
    | some (k, _) =>
      if !isLsKey k then (if off % 16 ≠ 0 then some (0x06, BitVec.ofNat 64 off) else none)
      else if corePkg (keyCore k) ≠ corePkg s.curCore then some (0x05, BitVec.ofNat 64 off)
      else (landingCause s (keyCore k) off).map fun c => (c, BitVec.ofNat 64 off)

/-- The issuing wave's earlier writes that a command waits for: all but copies for a `.rc` commit (log 77), those to its SRC for
a collective (R268). -/
def priorOps (s : State) (c : CopyCmd) : List Nat := match c.kind with
  | .coll kind desc =>
    let n := collSource s kind (descBits s c desc)
    let at_ := if ptrKind c.from_ = 0 then c.from_.toNat else ((cmdTarget s c c.from_).map (·.1)).getD 0
    let hit (r : Nat × Nat) : Bool := r.2 != 0 && decide (r.1 < at_ + n) && decide (at_ < r.1 + r.2)
    (s.curOps.filter fun o => if ptrKind c.from_ = 0 then hit (o.va, o.len) else hit o.ls).map (·.id)
  | _ => if c.ring.isSome then earlierWrites s else []

/-- A command of the issuing wave sent to its engine. It is in flight from its issue (R262, R271). -/
def sendCopy (maj : Nat) (shared : Bool) (c : CopyCmd) (s : State) : State :=
  let i := issuerOf s maj 0
  let r := copyRange c
  let cmd : CopyCmd := { c with
    id := s.nextId, hall := hallOf s.curCore, src := i, ctx := s.curCtx, priv := s.privileged, lid := s.curLid
    shared := shared, after := if c.ordered then (s.curOps.filter fun o => o.cls == 2).map (·.id) else [] }
  let cmd := { cmd with prior := priorOps s cmd }
  let s := (addOp s i { id := s.nextId, cls := 2, va := r.1, len := r.2, ls := copyLsRange s cmd, landing := c.landing }).freshId
  if s.paired then
    s.updGroup s.curWave.gid fun g => { g with pair := g.pair.map fun p => { p with held := p.held ++ [⟨.copyAccept, .copy cmd⟩] } }
  else s.post .copyAccept (.copy cmd)

/-- A command sent, and the wait for its promise; or the wait for an entry (R115). -/
def submitCopy (maj : Nat) (c : CopyCmd) (s : State) : Exec :=
  match freeEntry s (hallOf s.curCore) s.curCore s.cur.slot (isColl c) with
  | none => .wait 3 s
  | some sh => .wait 16 (setAwait (.sent s.nextId) (sendCopy maj sh c s))

/-- The wait for the promise, which D:D+1 receives. -/
def awaitCopy (g : Guard) (d : RegNo) (begin_ : State → Exec) (s : State) : Exec :=
  match s.curAwait with
  | .sent _ => .wait 16 s
  | .answered _ v _ => .done (putAll64 s g d (BitVec.ofNat 64 v))
  | _ => begin_ s

/-- A command before its engine fills it in. -/
def newCopy (kind : CopyKind) (a b : DWord) (n : Nat) (landing : Option DWord) : CopyCmd :=
  { id := 0, hall := 0, src := .device, ctx := 0, priv := false, lid := 0, kind := kind, from_ := a, to_ := b, bytes := n
    landing := landing }

/-- `cp` at issue (R130). -/
def beginCp (ordered ring : Bool) (g : Guard) (d a b c : RegNo) (s : State) : Exec :=
  let l := firstLane s g
  let p := src64 s a.toNat l
  let q := src64 s b.toNat l
  let n := (src s c.toNat l).toNat
  let off := (src s (c.toNat + 1) l).toNat
  match copyPointerCause s p n with
  | some (k, f) => .trap k f s
  | none => match copyPointerCause s q n with
    | some (k, f) => .trap k f s
    | none =>
      if ring && ptrKind q = 0 then .trap 0x17 q s
      else
        let at_ := landingPointer s q off
        match (if ring then none else landingTrap s at_ off) with
        | some (k, f) => .trap k f s
        | none =>
          let cmd : CopyCmd := { newCopy .linear p q n (if ring || off = 0 then none else some at_) with
            ordered := ordered, ring := if ring then some at_ else none }
          if n = 0 then .done (putAll64 (if ring then sendCopy 0x53 true cmd s else s) g d (BitVec.ofNat 64 s.clk))
          else submitCopy 0x53 cmd s

/-- `CP` (R130). -/
def execCp (g : Guard) (ordered : Bool) (ring : Bool) (d : RegNo) (a : RegNo) (b : RegNo) (c : RegNo) (s : State) :
    Host.Outcome State Fault Refusal :=
  issue (.cp g ordered ring d a b c) (awaitCopy g d (beginCp ordered ring g d a b c)) s

/-- The trap of the first lane and pointer that fail a check. -/
def lanePointers (s : State) (ls : List Nat) (size : Nat) (p q : Nat → DWord) : Option (Nat × DWord) :=
  match ls.findSome? fun l => match copyPointerCause s (p l) size with
    | some e => some e
    | none => copyPointerCause s (q l) size with
  | some e => some e
  | none => ls.findSome? fun l =>
      if (p l).toNat % size ≠ 0 then some (0x06, p l) else if (q l).toNat % size ≠ 0 then some (0x06, q l) else none

/-- `cpg` at issue (R131). A landing address of 0 names none, as for the other copies, which R131 does not say (log 75). -/
def beginCpg (sz : BitVec 2) (g : Guard) (a b c : RegNo) (s : State) : Exec :=
  let ls := active s g
  let size := 4 * 2 ^ sz.toNat
  let p := src64 s a.toNat
  let q := src64 s b.toNat
  let off := (src s c.toNat (firstLane s g)).toNat
  match lanePointers s ls size p q with
  | some (k, f) => .trap k f s
  | none => match landingTrap s (ownPointer s off) off with
    | some (k, f) => .trap k f s
    | none =>
      let lanes := ls.map fun l => ((p l).toNat, (q l).toNat)
      submitCopy 0x55 (newCopy (.gather size lanes) (p (firstLane s g)) (q (firstLane s g)) (ls.length * size)
        (if off = 0 then none else some (ownPointer s off))) s

/-- `CPG` (R131). -/
def execCpg (g : Guard) (sz : BitVec 2) (d : RegNo) (a : RegNo) (b : RegNo) (c : RegNo) (s : State) :
    Host.Outcome State Fault Refusal :=
  issue (.cpg g sz d a b c) (awaitCopy g d (beginCpg sz g a b c)) s

/-- A shape record is valid (R132). -/
def shapeOk (v : BitVec 256) : Bool :=
  bitsAt v.toNat 6 26 == 0 && bitsAt v.toNat 128 8 == 0 && decide (shapeType v < 9) &&
    ([1, 2, 3].all fun k => decide (k ≤ shapeRank v) ||
      (shapeExt v k == 1 && shapeStrides v 136 k == 0 && shapeStrides v 196 k == 0))

/-- A record of a descriptor lies in the data region at its alignment. -/
def recordOk (s : State) (a n : Nat) : Bool := a % n == 0 && decide (s.xbnd s.curCore ≤ a) && decide (a + n ≤ 0x2F0000)

/-- Bytes from the first to the last element on a side of a tile. -/
def tileSpan (v : BitVec 256) (lo : Nat) : Nat := tupleOffset v lo (shapeCount v - 1) + typeBytes (shapeType v)

/-- `cpt` at issue (R132). -/
def beginCpt (op : TileOp) (g : Guard) (a b c : RegNo) (s : State) : Exec :=
  let l := firstLane s g
  let x := src s a.toNat l
  let p := src64 s b.toNat l
  let q := src64 s c.toNat l
  let v := BitVec.ofNat 256 (s.ls s.curCore x.toNat 32)
  if !recordOk s x.toNat 32 || !shapeOk v then .trap 0x05 (x.setWidth 64) s
  else if lsBad s (lsKey s.curCore x.toNat) 32 then .seal s
  else
    let es := typeBytes (shapeType v)
    match copyPointerCause s p (tileSpan v 136) with
    | some (k, f) => .trap k f s
    | none => match copyPointerCause s q (tileSpan v 196) with
      | some (k, f) => .trap k f s
      | none =>
        if p.toNat % es ≠ 0 then .trap 0x06 p s
        else if q.toNat % es ≠ 0 then .trap 0x06 q s
        else
          let off := shapeLand v
          let at_ := landingPointer s q off
          match landingTrap s at_ off with
          | some (k, f) => .trap k f s
          | none => submitCopy 0x54 (newCopy (.tile op v) p q (shapeCount v * es) (if off = 0 then none else some at_)) s

/-- `CPT` (R132). -/
def execCpt (g : Guard) (op : TileOp) (d : RegNo) (a : RegNo) (b : RegNo) (c : RegNo) (s : State) :
    Host.Outcome State Fault Refusal :=
  issue (.cpt g op d a b c) (awaitCopy g d (beginCpt op g a b c)) s

/-! Collectives (R133, R368). -/

/-- A descriptor is valid. -/
def collOk (s : State) (v : Nat) : Bool :=
  bitsAt v 128 32 == 0 && bitsAt v 320 192 == 0 && decide (bitsAt v 192 4 < 9) && decide (bitsAt v 196 4 < 7) &&
    (bitsAt v 196 4 != 6 || decide (6 ≤ bitsAt v 192 4)) && (myRank s (bitsAt v 200 8)).isSome

/-- `coll` at issue (R133). SRC and DST are checked as `cp` checks its pointers, also a SRC that no line is read from, which is the
model's choice (log 75). -/
def beginColl (kind : Nat) (g : Guard) (a : RegNo) (s : State) : Exec :=
  let x := src s a.toNat (firstLane s g)
  let v := s.ls s.curCore x.toNat 64
  if !recordOk s x.toNat 64 || !collOk s v then .trap 0x05 (x.setWidth 64) s
  else if lsBad s (lsKey s.curCore x.toNat) 64 then .seal s
  else
    let es := typeBytes (bitsAt v 192 4)
    let sizes := collSizes kind (bitsAt v 160 32) (members s (bitsAt v 200 8)).size
    let p := BitVec.ofNat 64 (bitsAt v 0 64)
    let q := BitVec.ofNat 64 (bitsAt v 64 64)
    let off := bitsAt v 224 32
    match copyPointerCause s p (sizes.1 * es) with
    | some (k, f) => .trap k f s
    | none => match copyPointerCause s q (sizes.2 * es) with
      | some (k, f) => .trap k f s
      | none => match landingTrap s (ownPointer s off) off with
        | some (k, f) => .trap k f s
        | none =>
          submitCopy 0x56 (newCopy (.coll kind (ownPointer s x.toNat)) p q (sizes.2 * es)
            (if off = 0 then none else some (ownPointer s off))) s

/-- `COLL_ALLRED` (R133). -/
def execCollAllred (g : Guard) (d : RegNo) (a : RegNo) (s : State) : Host.Outcome State Fault Refusal :=
  issue (.collAllred g d a) (awaitCopy g d (beginColl 0 g a)) s

/-- `COLL_REDSCT` (R133). -/
def execCollRedsct (g : Guard) (d : RegNo) (a : RegNo) (s : State) : Host.Outcome State Fault Refusal :=
  issue (.collRedsct g d a) (awaitCopy g d (beginColl 1 g a)) s

/-- `COLL_ALLGAT` (R133). -/
def execCollAllgat (g : Guard) (d : RegNo) (a : RegNo) (s : State) : Host.Outcome State Fault Refusal :=
  issue (.collAllgat g d a) (awaitCopy g d (beginColl 2 g a)) s

/-- `COLL_BCAST` (R133). -/
def execCollBcast (g : Guard) (d : RegNo) (a : RegNo) (s : State) : Host.Outcome State Fault Refusal :=
  issue (.collBcast g d a) (awaitCopy g d (beginColl 3 g a)) s

/-- One level of the reduction: adjacent pairs, an unpaired value carried up. -/
def pairLevel (f : Nat → Nat → Nat) : List Nat → List Nat
  | x :: y :: r => f x y :: pairLevel f r
  | r => r

/-- The reduction tree over the live members in increasing rank order. -/
def pairTree (f : Nat → Nat → Nat) : Nat → List Nat → Nat
  | _, [] => 0
  | _, [x] => x
  | 0, x :: _ => x
  | n + 1, xs => pairTree f n (pairLevel f xs)

/-- The sum divided by LIVE, to nearest even; a NaN is canonical (R47). -/
def meanElem (t live v : Nat) : Nat :=
  match typeFmt t with
  | none => v
  | some f => match f.val v with
    | .fin neg m e => if m = 0 then v else (f.quotient .rn neg m e live 0).1
    | .nan => f.nan
    | .inf _ => v

/-- A range of bytes cut where a pointer's lines end: offset and length of each piece. -/
def piecesOf (p : DWord) (off n : Nat) : List (Nat × Nat) :=
  let a := (p.toNat + off) % 128
  (List.range ((a + n + 127) / 128)).filterMap fun k =>
    let lo := max (128 * k) a
    let hi := min (128 * (k + 1)) (a + n)
    if lo < hi then some (off + (lo - a), hi - lo) else none

/-- Bytes at SRC of a collective, piece by piece: what was read, and where and why it stopped, as offset, reason and class (R126,
R129). -/
def collRead (c : CopyCmd) : List (Nat × Nat) → State → Nat → State × Nat × Option (Nat × Nat × Nat)
  | [], s, v => (s, v, none)
  | (off, n) :: rest, s, v =>
    match sideKey s c (c.from_ + BitVec.ofNat 64 off) needRead with
    | (s, .error (r, cls)) => (s, v, some (off, r, cls))
    | (s, .ok a) => match sourceStop s a with
      | some (r, cls) => (s, v, some (off, r, cls))
      | none =>
        if isLsKey a.key && lsBad s a.key n then (sealCore (keyCore a.key) s, v, some (off, 0, 3))
        else
          let s := if isLsKey a.key then lsRepair s a.key n else touch (lineOf a.key) a.slot a.point s
          collRead c rest s (v + sideRead s a n * 2 ^ (8 * off))

/-- Where this member's SRC holds what stands at an offset of DST; for elements that other members alone hold, its start (log 25). -/
def collFrom (kind slice me off : Nat) : Nat :=
  match kind with
  | 1 => me * slice + off
  | 2 => if off / slice = me then off % slice else 0
  | _ => off

/-- The source of `n` bytes of DST, for the check of a destination below XBND (R75): an HBM page with EX where both ends are. A member
that reads no SRC has none. -/
def collSide (s : State) (c : CopyCmd) (reads : Bool) (off n : Nat) : SideKey :=
  match (sideKey s c (c.from_ + BitVec.ofNat 64 off) needRead).2, (sideKey s c (c.from_ + BitVec.ofNat 64 (off + n - 1)) needRead).2 with
  | .ok a, .ok b => if reads then ⟨a.key, a.slot, a.point, a.dev, a.hbm && b.hbm, a.ex && b.ex⟩ else ⟨0, 0, 0, false, false, false⟩
  | _, _ => ⟨0, 0, 0, false, false, false⟩

/-- Bytes at DST of a collective written, piece by piece: the bytes written, and where and why it stopped. Below XBND of a core
only an HBM page with EX is copied (R126). -/
def collWrite (c : CopyCmd) (src : State → Nat → Nat → SideKey) (v : Nat) : List (Nat × Nat) → State → Nat → State × Nat × Option (Nat × Nat × Nat × Nat)
  | [], s, done => (s, done, none)
  | (off, n) :: rest, s, done =>
    let p := c.to_ + BitVec.ofNat 64 off
    match sideKey s c p needWrite with
    | (s, .error (r, cls)) => (s, done, some (off, r, cls, 1))
    | (s, .ok b) => match destStop s p b (src s off n) n with
      | some (r, cls, side) => (s, done, some (off, r, cls, side))
      | none =>
        let cells := cellsOf b.key n (v / 2 ^ (8 * off))
        if isLsKey b.key then collWrite c src v rest (lsOverwrite (niWrite cells s) b.key n) (done + n)
        else match homeWrite s (lineOf b.key) b.slot b.point cells c.src c.id with
          | none => (s, done, some (off, 5, 0, 1))
          | some s => collWrite c src v rest (noteUnwritten { src := c.src, id := c.id, tgt := b.key } s) (done + n)

/-- An element of a member's SRC: this member's own, or a free value, for the other packages are outside the model
(log 25). -/
def memberElem (s : State) (own : Nat) (es me r i : Nat) : Nat :=
  if r = me then own / 2 ^ (8 * es * i) % 2 ^ (8 * es)
  else Config.freeNat (s.nonce + 2 ^ 64 * (1 + i + 2 ^ 32 * r)) % 2 ^ (8 * es)

/-- What DST receives, as one number. -/
def collResult (s : State) (kind v own me : Nat) (live : List Nat) : Nat :=
  let t := bitsAt v 192 4
  let es := typeBytes t
  let op := bitsAt v 196 4
  let count := bitsAt v 160 32
  let red (i : Nat) : Nat :=
    let x := pairTree (reduceElem t (if op = 6 then 0 else op)) 32 (live.map fun r => memberElem s own es me r i)
    if op = 6 then meanElem t live.length x else x
  let join (n : Nat) (f : Nat → Nat) : Nat := (List.range n).foldl (fun acc i => acc + f i * 2 ^ (8 * es * i)) 0
  match kind with
  | 0 => join count red
  | 1 => join count fun i => red (me * count + i)
  | 2 => join (count * (members s (bitsAt v 200 8)).size) fun i => memberElem s own es me (i / count) (i % count)
  | _ => join count fun i => memberElem s own es me (bitsAt v 208 16) i

/-- The bytes of DST that a member receives, as offset and length: an `allgat` leaves the slices of failed ranks (R133). -/
def collSlices (kind size count : Nat) (live : List Nat) : List (Nat × Nat) :=
  if kind = 2 then live.map fun r => (r * count, count) else [(0, size)]

/-- LIVE members of a collective's table. -/
def liveRanks (tab : Members) : List Nat := (List.range tab.ranks.length).filter fun k => (tab.ranks.getD k (0, false)).2

/-- The landing of a collective is debited by the bytes received, at its partner's store too (R133, R355). -/
def debitColl (c : CopyCmd) (got : Nat) (s : State) : State := match landingKey s c with
  | some k => echo k 16 (updateLanding k (fun l => l.update 0 got) s)
  | none => s

/-- A collective that has written its DST completes: LIVE is written and the landing debited (R133). -/
def finishColl (c : CopyCmd) (desc : DWord) (live got : Nat) (s : State) : State :=
  completeOp (debitColl c got (putDesc c desc 32 live (dropCopy s c))) c.src c.id

/-- This member's part of a collective over the live members of its table (R133, R368): SRC is read, by the root alone in a `bcast`;
what could be read is reduced and written, up to a stop, and the member reports its DST written. A stop at SRC of a kind whose elements
lie elsewhere in DST writes nothing (log 25). -/
def writeColl (c : CopyCmd) (kind : Nat) (desc : DWord) (s : State) : State :=
  let v := descBits s c desc
  let tab := members s (bitsAt v 200 8)
  let live := liveRanks tab
  let es := typeBytes (bitsAt v 192 4)
  let sizes := collSizes kind (bitsAt v 160 32) tab.size
  let me := (myRank s (bitsAt v 200 8)).getD 0
  let slice := bitsAt v 160 32 * es
  if kind = 3 && !live.contains (bitsAt v 208 16) then copyFault (putDesc c desc 32 0 s) c 0 0 3 0
  else
    let reads := decide (collSource s kind v ≠ 0)
    let (s, own, bad) := collRead c (piecesOf c.from_ 0 (collSource s kind v)) s 0
    let upTo := match bad with
      | some (off, _, _) => if kind = 0 || kind = 3 then off / es * es else 0
      | none => sizes.2 * es
    let src (s : State) (off n : Nat) : SideKey := collSide s c reads (collFrom kind slice me off) n
    let slices := (collSlices kind (sizes.2 * es) slice live).filterMap fun q =>
      if q.1 < upTo then some (q.1, min q.2 (upTo - q.1)) else none
    let (s, got, fail) := collWrite c src (collResult s kind v own me live) (slices.flatMap fun q => piecesOf c.to_ q.1 q.2) s 0
    match fail, bad with
    | some (off, r, cls, side), _ => copyFault (debitColl c got s) c off r cls side
    | none, some (_, r, cls) => copyFault (debitColl c got s) c upTo r cls 0
    | none, none =>
      (updCopy c.hall c.id (fun c => { c with written := some (tab.epoch, live, got) }) s).post .collCommit
        (.msg { src := c.src, id := c.id, reason := c.hall, kind := 1 })

/-- The commit of a collective reaches this member from the lowest live rank (R368): LIVE and the landing are written, once the pool has
acknowledged what DST received (R86). Where a member has been removed since DST was written, whether a survivor has had the commit of
the old epoch is for the others to know, and free (log 25): the collective completes with the old LIVE, or starts again from SRC. -/
def commitColl (c : CopyCmd) (desc : DWord) (w : Nat × List Nat × Nat) (s : State) : State :=
  if (members s (bitsAt (descBits s c desc) 200 8)).epoch = w.1 || Config.freeNat s.nonce % 2 = 0 then finishColl c desc w.2.1.length w.2.2 s
  else (updCopy c.hall c.id (fun c => { c with written := none }) s).post .collCommit (.msg { src := c.src, id := c.id, reason := c.hall })

/-- A collective may go on: the wave's earlier writes to SRC are complete at system scope (R268), and nothing holds a line of its
SRC or DST at its home; once it has written DST, the pool has acknowledged it. -/
def collReady (s : State) (c : CopyCmd) : Bool :=
  let free (p : DWord) (n : Nat) : Bool := ptrKind p != 0 || vaFree s c.ctx p.toNat n
  if c.written.isSome then !unwrittenBy s c.src c.id
  else settledAt s c.prior 6 && match c.kind with
    | .coll kind desc => free c.from_ (collSource s kind (descBits s c desc)) && free c.to_ c.bytes
    | _ => true

/-- `COLL_COMMIT` (R368): form 0, this member's own part; form 1, the commit. -/
def execCollCommit (s : State) : Host.Outcome State Fault Refusal :=
  onMsg (fun m s => match findCopy s m.reason m.id with
    | none => s
    | some c => match c.kind with
      | .coll kind desc =>
        if c.stop.isSome then s
        else if !collReady s c then s.post .collCommit (.msg m)
        else match c.written with
          | some w => commitColl c desc w s
          | none => writeColl c kind desc s
      | _ => s) s

/-! Queue instructions (R134). -/

/-- `CPQ_ST` (R134). -/
def execCpqSt (g : Guard) (d : RegNo) (s : State) : Host.Outcome State Fault Refusal :=
  issue (.cpqSt g d) (fun s =>
    let h := hallOf s.curCore
    let mine := ((entries s h).filter fun c => c.src.core == s.curCore && c.src.slot == s.cur.slot).length
    .done (putAll s g d ((256 - sharedHeld s h) + (!ownHeld s h s.curCore s.cur.slot).toNat * 512 + mine * 2 ^ 16))) s

/-- A command is stopped by its wave behind what it has written (R126, R134). -/
def cancelCopy (s : State) (c : CopyCmd) : State := stopCopy c.hall c.id c.high 0 2 0 s

/-- One that its engine has not accepted, or that its group holds until its interval matches, stops as it is. -/
def cancelWaiting (hit : CopyCmd → Bool) (s : State) : State :=
  let stop (t : Task) : Task := match t.op, t.arg with
    | .copyAccept, .copy c => if hit c then ⟨.copyAccept, .copy { c with stop := some (0, 0, 2, 0) }⟩ else t
    | _, _ => t
  let s := { s with agenda := s.agenda.map stop }
  s.updGroup s.curWave.gid fun g => { g with pair := g.pair.map fun p => { p with held := p.held.map stop } }

/-- The commands of the issuing wave that engines hold, and those on their way to one (R129, R134, R355). -/
def queuedHere (s : State) : List CopyCmd := (s.halls.flatMap fun h => h.2.queue).filter fun c => hasOp c.id s.curWave.ops

def waitingHere (s : State) : List CopyCmd :=
  let cmd (t : Task) : Option CopyCmd := match t.op, t.arg with
    | .copyAccept, .copy c => some c
    | _, _ => none
  let held : List Task := match s.curGroup.bind (·.pair) with
    | some p => p.held
    | none => []
  ((s.agenda ++ held).filterMap cmd).filter fun c => hasOp c.id s.curWave.ops

/-- `CPQ_CNL` (R134). -/
def execCpqCnl (g : Guard) (d : RegNo) (a : RegNo) (s : State) : Host.Outcome State Fault Refusal :=
  issue (.cpqCnl g d a) (fun s =>
    let p := src64 s a.toNat (firstLane s g)
    match twaitCause s p with
    | some (k, f) => .trap k f s
    | none =>
      let key := (lsTarget s s.curLid p).map (·.1)
      let hit (c : CopyCmd) : Bool := c.landing.isSome && landingKey s c == key && c.stop.isNone && c.written.isNone
      let queued := (queuedHere s).filter fun c => hit c && !copyApplied s c
      let waiting := (waitingHere s).filter hit
      .done (putAll (cancelWaiting (fun c => waiting.any (·.id == c.id)) (queued.foldl cancelCopy s)) g d (queued.length + waiting.length))) s

/-- `CPQ_FR` (R134). -/
def execCpqFr (g : Guard) (free : Bool) (d : RegNo) (a : RegNo) (s : State) : Host.Outcome State Fault Refusal :=
  issue (.cpqFr g free d a) (fun s =>
    let x := (src s a.toNat (firstLane s g)).toNat
    let ix := x / 256 % 256
    let hall := x / 2 ^ 16 % 512
    let entry : BitVec 128 := match (s.hall hall).faults.find? fun f => f.1 == ix with
      | some f => f.2.1
      | none => 0
    let t := if free then s.updHall hall fun h => { h with faults := h.faults.filter fun f => f.1 != ix } else s
    .done (putGroup t (active s g) d.toNat 4 fun _ k => (entry >>> (32 * k)).setWidth 32)) s

end Sys2Proof.Machine
end

