-- ==== Sys2Proof/Machine/Home.lean ====
section
/-! DEFINITION. Homes (R92-R96): the order in which a home serves a line, fills and write-backs, leases and page operations
that hold requests back (R88-R90, R109), the host's and the pool's requests (R84, R86, R96, R359), and undeliverable
messages (R350). -/

namespace Sys2Proof.Machine

/-- A task's message and its line, for requests that homes serve. -/
def taskMsg (t : Task) : Option Msg := match t.arg with
  | .msg m => some m
  | _ => none

/-! Pages being flipped or moved (R88-R90). -/

/-- The page operation that covers a line. -/
def pageOpOn (s : State) (l : Nat) : Option PageOp :=
  s.pageOps.find? fun p => decide (p.old ≤ l * 128) && decide (l * 128 < p.old + p.bytes)

def isCopyRead : Instr → Bool
  | .copyReadRequest => true
  | _ => false

def isWatch : Instr → Bool
  | .watch => true
  | _ => false

/-- A message addressed to the page's new place, and executed there. -/
def forwardMsg (s : State) (p : PageOp) (m : Msg) : Msg :=
  let go (k : Nat) : Nat := p.new + (k - p.old)
  { m with tgt := go m.tgt, bytes := m.bytes.map (fun (c : Host.Cell) => (go c.1, c.2))
           point := pointOf s (go m.tgt) (s.devRead p.pte 16 0), moved := p.id }

/-- What a page operation makes of a request: none, held, or sent on to the new home. -/
def pageGate (op : Instr) (m : Msg) (s : State) : Option State :=
  match pageOpOn s (lineOf m.tgt) with
  | none => none
  | some p =>
    if p.move && isCopyRead op then none
    else if p.move && decide (3 ≤ p.step) then some (s.post op (.msg (forwardMsg s p m)))
    else some { s with pageOps := s.pageOps.map fun (q : PageOp) => if q.id = p.id then { q with queue := q.queue ++ [⟨op, .msg m⟩] } else q }

/-! Serving a line (R95). -/

/-- The host's access met a poisoned line (R67): `reply` holds the poison indication, status 5 under opcode 0. -/
def poisonReply (s : State) : State := { s with reply := some ⟨0, 5, [], .success⟩ }

/-- A request applied at its home. -/
def homeServe (op : Instr) (m : Msg) (s : State) : State :=
  match op with
  | .postedStore => homePosted m s
  | .publishWrite => homePosted m s
  | .atomicRequest => homeAtomic true m s
  | .reductionDevice => homeAtomic false m s
  | .copyReadRequest => homeCopyRead m s
  | .copyLineWrite => homeCopyWrite m s
  | .leaseRequest => homeLease m s
  | .watch => watchArrives m s
  | .hostCxlMemWrite => (homeWrite s (lineOf m.tgt) 0 m.point m.bytes .device 0).getD (poisonReply s)
  | _ => s

/-- A write that covers its line, and so needs no fill (R391). -/
def fullWrite (op : Instr) (m : Msg) : Bool := match op with
  | .postedStore => decide ((m.bytes.map (·.1)).eraseDups.length = 128)
  | .publishWrite => decide ((m.bytes.map (·.1)).eraseDups.length = 128)
  | .copyLineWrite => m.imm == 0 && decide ((m.bytes.map (·.1)).eraseDups.length = 128)
  | .hostCxlMemWrite => decide ((m.bytes.map (·.1)).eraseDups.length = 128)
  | _ => false

/-- A request served. A line that the hall store holds under another key index is fetched again before (R70); one that no hall store
holds is read in its stack, and its corrected errors are repaired and counted (R67). -/
def serveMsg (op : Instr) (m : Msg) (s : State) : State :=
  let l := lineOf m.tgt
  homeServe op m (if (s.line l).state = .invalid then (if fullWrite op m then s else repairLine l s)
    else (retag l m.key s).updLine l fun x => { x with used := s.nonce })

/-- A host CXL.cache request for a sector (R96): shared, or owned. -/
def serveSnoop (sector : Nat) (own : Bool) (s : State) : State :=
  { s with sectors := Sparse.set 0 s.sectors sector (if own then 2 else 1) }

/-- A pool device's snoop (R84): BISnpCur (0) leaves the line as it is (log 94), BISnpData (1) has it written back and kept shared,
BISnpInv (2) ends the copies, and another host of the pool may write it (log 7). The port answers with the state it keeps: 2 exclusive,
1 shared, 0 none. -/
def servePool (l kind : Nat) (s : State) : State :=
  let s := if (s.line l).state = .dirty then writeBack l s else s
  let s := if kind = 2 then
      (s.setLineBytes l (Config.poolContents s.nonce l).toNat).updLine l fun x => { x with state := .invalid, key := none }
    else s
  let kept := if (s.line l).state = .invalid then 0 else if kind = 0 then 2 else 1
  { s with birsp := Sparse.set (0, 0) s.birsp (s.regionPort (poolRegion (l * 128))) (l, kept) }

/-- The host reads bytes of one HBM line: the data, under slot 0 (R68), or the poison indication (R67). -/
def serveHostRead (a n : Nat) (s : State) : State :=
  let s := if (s.line (lineOf a)).state = .invalid then repairLine (lineOf a) s else retag (lineOf a) 0 s
  if (readFault s a 0).isSome then poisonReply s
  else { s with reply := some ⟨0, 0, (natToBytes n (s.devRead a n 0)).map (·.toNat), .success⟩ }

/-- A queued request served. -/
def serveTask (t : Task) (s : State) : State :=
  match t.arg with
  | .msg m => serveMsg t.op m s
  | .nums [a, b] => match t.op with
    | .hostCxlCacheSnoop => serveSnoop a (b == 1) s
    | .backInvalidationSnoop => servePool a b s
    | .hostCxlMemRead => serveHostRead a b s
    | _ => s
  | _ => s

/-- A request must wait until its line is in the hall store: for a fill, or, a write of the whole line, for a way (R92-R94,
R391). -/
def needsFill (s : State) (l : Nat) (t : Task) : Bool := match t.arg with
  | .msg m => (s.line l).state == .invalid && cachable s l m.point && (lineFault s m.tgt m.key).isNone &&
      !(fullWrite t.op m && hasRoom s (storeHall l m.point) l)
  | _ => false

/-- A request that a lease does not hold (R109): a read by a copy. -/
def passesLease (op : Instr) : Bool := isCopyRead op

/-- A request needs a Dirty line written back, for another key index or for a snoop, and its link is away (R70, R84, R86). -/
def needsLink (s : State) (l : Nat) (t : Task) : Bool := match t.op, t.arg with
  | .backInvalidationSnoop, _ => (s.line l).state == .dirty && !linkUp s l
  | _, .msg m => tagWaits s l m.key
  | _, _ => false

/-- A request waits at its line (R95, R109): for a fill, a link, the lease's end, or behind others. -/
def waitsAt (s : State) (l : Nat) (t : Task) : Bool :=
  (s.line l).state == .filling || needsFill s l t || needsLink s l t ||
    (if (s.line l).lease.isSome then !passesLease t.op else !(s.line l).queue.isEmpty)

/-- A request joins the queue of its line. -/
def enqueue (l : Nat) (t : Task) (s : State) : State := s.updLine l fun x => { x with queue := x.queue ++ [t] }

/-- The requests a line holds are served in their order, but for those that must wait still. -/
def serveLine (l : Nat) (s : State) : State := match (s.line l).queue with
  | [] => s
  | q => q.foldl (fun s t => if waitsAt s l t then enqueue l t s else serveTask t s) (s.updLine l fun x => { x with queue := [] })

/-- A line that the first of its waiting requests needs filled begins its fill, once a way is free (R94). -/
def startFill (l : Nat) (s : State) : State := match (s.line l).queue with
  | t :: _ => match t.arg with
    | .msg m => if needsFill s l t && hasRoom s (storeHall l m.point) l then allocate l m.point .filling s else s
    | _ => s
  | [] => s

/-- A line has waiting requests, the first of which it can serve, or be filled for. -/
def fillReady (s : State) (l : Nat) : Bool :=
  (s.line l).state != .filling && (s.line l).lease.isNone && match (s.line l).queue with
    | t :: _ => !needsLink s l t && (!needsFill s l t || (match t.arg with
      | .msg m => hasRoom s (storeHall l m.point) l
      | _ => false))
    | [] => false

/-- A request at its home: held by a page operation, a lease or a fill, or served. -/
def atHome (op : Instr) (m : Msg) (s : State) : State :=
  let l := lineOf m.tgt
  match pageGate op m s with
  | some t => t
  | none => if waitsAt s l ⟨op, .msg m⟩ then startFill l (enqueue l ⟨op, .msg m⟩ s) else serveMsg op m s

/-- A request in device memory or in a local store. -/
def homeOrNi (op : Instr) (ni : Msg → State → State) (s : State) : Host.Outcome State Fault Refusal :=
  onMsg (fun m s => if isLsKey m.tgt then ni m s else atHome op m s) s

/-- `PUBLISH_WRITE` (R104). -/
def execPublishWrite (s : State) : Host.Outcome State Fault Refusal := homeOrNi .publishWrite niPosted s

/-- `COPY_READ_REQUEST` (R117). -/
def execCopyReadRequest (s : State) : Host.Outcome State Fault Refusal := homeOrNi .copyReadRequest homeCopyRead s

/-- `COPY_LINE_WRITE` (R116). -/
def execCopyLineWrite (s : State) : Host.Outcome State Fault Refusal := homeOrNi .copyLineWrite niCopyWrite s

/-- `LEASE_REQUEST` (R106). -/
def execLeaseRequest (s : State) : Host.Outcome State Fault Refusal := onMsg (fun m s => atHome .leaseRequest m s) s

/-- The home hall of a line of a die-homed range, from that of the range's first (R76). -/
def dieHome (point a : Nat) : Nat := point / 40 * 40 + lineOf a % 2 ^ 33 % 40

/-- A subscription may be taken: nothing holds a line of its range, and each line and the range's entry have their ways (R94, R95,
R102). -/
def rangeFree (s : State) (m : Msg) : Bool :=
  ((rangeLines m).all fun a => unitFree s (lineOf a) m.key (dieHome m.point a)) && dirRoom s m.point m.tgt m.arg.toNat

/-- `SUBSCRIPTION_CONTROL` (R102): form `.d` ends a subscription; another is taken once nothing holds a line of its range, which is
read through the hall stores. -/
def execSubscriptionControl (s : State) : Host.Outcome State Fault Refusal :=
  onMsg (fun m s =>
    if m.sz = .d then homeUnsubscribe m s
    else match pageGate .subscriptionControl m s with
      | some t => t
      | none =>
        if !rangeFree s m then s.post .subscriptionControl (.msg m)
        else if (lineFault s m.tgt m.key).isSome || m.reason ≠ 0 then homeSubscribe m s
        else homeSubscribe m ((rangeLines m).foldl (fun s a => touch (lineOf a) m.key (dieHome m.point a) s) s)) s

/-- `LEASE_COMMIT` (R110): the line's queue is served after it. One that a paired core sends past the abort point arrives after the
deadline (R113). -/
def execLeaseCommit (s : State) : Host.Outcome State Fault Refusal :=
  onMsg (fun m s =>
    if m.due ≠ 0 && !s.reached m.due then s.post .leaseCommit (.msg m) else serveLine (lineOf m.tgt) (homeCommit m s)) s

/-- A commit sent in time is on its way to a lease (R108). -/
def commitComing (s : State) (h : HomeLease) : Bool := s.agenda.any fun t => match t.op, t.arg with
  | .leaseCommit, .msg m => m.id == h.id && m.due == 0
  | _, _ => false

/-- `LEASE_ABORT` (R111). -/
def execLeaseAbort (s : State) : Host.Outcome State Fault Refusal :=
  onMsg (fun m s => serveLine (lineOf m.tgt) (homeAbort m s)) s

/-- `LEASE_DEADLINE`: line (R108, R111). A commit sent in time has arrived before. -/
def execLeaseDeadline (s : State) : Host.Outcome State Fault Refusal :=
  event (fun s => match s.nums with
    | [l] => match (s.line l).lease with
      | some h => if s.reached h.deadline && !commitComing s h then serveLine l (s.updLine l fun x => { x with lease := none }) else s
      | none => s
    | _ => s) s

/-- `WATCH` (R273): form 0 arrives; a held watch is answered when its word has reached the target. -/
def execWatch (s : State) : Host.Outcome State Fault Refusal :=
  event (fun s => match s.arg with
    | .msg m => if isLsKey m.tgt then watchArrives m s else atHome .watch m s
    | .nums [id] => match s.watches.find? fun w => w.id == id with
      | some w => if watchMet (watchWord s w.key w.slot) w.target then watchFires w s else s
      | none => s
    | _ => s) s

/-! Fills and write-backs. -/

/-- `HOME_FILL_WRITEBACK`: line, 1 for a write-back (R93, R94). A fill ends, or a line whose requests wait for a way begins. -/
def execHomeFillWriteback (s : State) : Host.Outcome State Fault Refusal :=
  event (fun s => match s.nums with
    | [l, 0] =>
      if (s.line l).state = .filling then serveLine l (fillLine l s)
      else if fillReady s l then startFill l (serveLine l s)
      else s
    | [l, 1] => if (s.line l).state = .dirty && linkUp s l then writeBack l s else s
    | _ => s) s

/-- A sector's place in address order: its stack, and its offset there (R66, R67). -/
def stackPlace (k : Nat) : Nat := stackOf (k * 64) * 2 ^ 36 + stackOffset (k * 64)

/-- The sectors with errors, the scrubber's next one: the first in address order from where it stands, or from the start (R67). -/
def nextScrub (s : State) : Option Nat :=
  let ks := (s.badHbm.filter fun p => dpaSpace (p.1 * 64) == 0).map (·.1)
  let least (ks : List Nat) : Option Nat := ks.foldl (fun best k => match best with
    | none => some k
    | some b => if stackPlace k < stackPlace b then some k else some b) none
  match least (ks.filter fun k => decide (s.scrub ≤ stackPlace k)) with
  | some k => some k
  | none => least ks

/-- `PATROL_SCRUB`: sector (R67). A line that no hall store holds is poisoned by its sector as it stands. -/
def execPatrolScrub (s : State) : Host.Outcome State Fault Refusal :=
  event (fun s => match s.nums with
    | [k] =>
      let bad := Sparse.get 0 s.badHbm k
      let s := { s with scrub := stackPlace k + 1 }
      if bad = 1 then
        { s with badHbm := Sparse.set 0 s.badHbm k 0, corrected := Sparse.upd 0 s.corrected (stackOf (k * 64)) (· + 1) }
      else if bad = 2 && (s.line (k / 2)).state = .clean then s.updLine (k / 2) fun x => { x with state := .poisoned }
      else s
    | _ => s) s

/-- `SOFT_ERROR`: the struck bits are erroneous from now on (R166, R67, R254). -/
def execSoftError (s : State) : Host.Outcome State Fault Refusal :=
  event (fun s => match s.arg with
    | .error t ok =>
      let v := if ok then 1 else 2
      let put (m : List (Nat × Nat)) (k : Nat) : List (Nat × Nat) := Sparse.set 0 m k (max v (Sparse.get 0 m k))
      match t with
      | .localStore k => { s with badLs := put s.badLs k }
      | .hallStore l => { s with badHall := put s.badHall l }
      | .hbm k => { s with badHbm := put s.badHbm k }
      | .matrixArray c => { s with badArray := put s.badArray c }
    | _ => s) s

/-- `LS_POISON_SEAL`: core. An uncorrectable word of its local store has been consumed (R166, R349). -/
def execLsPoisonSeal (s : State) : Host.Outcome State Fault Refusal :=
  event (fun s => match s.nums with
    | [c] => sealCore c s
    | _ => s) s

/-! The pool (R84-R87). -/

/-- The first byte of a command, in the order of its elements, whose destination line the pool has not acknowledged (R86, R126). -/
def firstUnwritten (s : State) (c : CopyCmd) : Nat :=
  let mine (l : Nat) : Bool := (s.line l).unwritten.any fun u => u.1 == c.src && u.2 == c.id
  let range (n : Nat) : List Nat := 0 :: (List.range (n / 128 + 1)).map fun i => i * 128 + (128 - c.to_.toNat % 128)
  let elems := match c.kind with
    | .linear => range c.issued
    | .coll _ _ => range c.bytes
    | .gather _ lanes => List.range lanes.length
    | .tile _ v => List.range (shapeCount v)
  ((elems.find? fun i => match sideKey s c (elemPointer c 1 i) needWrite with
    | (_, .ok k) => mine (lineOf k.key)
    | _ => false).map (· * elemBytes c)).getD c.bytes

/-- A line of a lost or dropped region leaves the hall store: its waiting requests fail, and so do atomics applied and not yet
written (R86). -/
def dropPoolLine (l : Nat) (s : State) : State :=
  let owed := (s.line l).owed.flatMap (·.lost)
  serveLine l ((s.updLine l fun x =>
    { x with state := .invalid, key := none, lease := none, unwritten := [], owed := [] }).postAll owed)

/-- An operation in flight of an issuer. -/
def opOf (s : State) (i : Issuer) (id : Nat) : Option Op :=
  let os := if i.climber then (s.climber i.core i.slot).ops else match waveOfOp s i id with
    | some (c, w) => (s.wave c w).ops
    | none => []
  os.find? fun o => o.id == id

/-- Stores whose bytes the pool device will not receive fail with reason 6; a copy in an engine stops there (R81, R86). -/
def failUnwritten (us : List (Issuer × Nat)) (s : State) : State :=
  us.eraseDups.foldl (fun s u =>
    if !isAgent u.1 || copyQueued s u.2 then s
    else
      let va := match opOf s u.1 u.2 with
        | some o => o.va
        | none => 0
      s.postAll [faultMsg { src := u.1, tgt := 0, id := u.2, va := BitVec.ofNat 64 va } (causeOf 6) 6]) s

/-- Lines of pool regions leave the hall stores; what they held unwritten is lost. Leases on them end, copies that wrote there stop at
the first line not acknowledged, and atomics not yet written, and stores not acknowledged by the device, fail (R81, R86; log 74). -/
def loseLines (lines : List Nat) (entries : State → State) (s : State) : State :=
  let acks := (lines.map fun l => (s.line l).unwritten).flatten
  let stops := ((s.halls.map fun h => h.2.queue).flatten.filter fun c => acks.any fun u => u.1 == c.src && u.2 == c.id).map
    fun c => (c, firstUnwritten s c)
  let s := (lines.filter fun l => (s.line l).state == .dirty).foldl (fun s l => s.setLineBytes l (Config.poolContents s.nonce l).toNat) (entries s)
  let s := lines.foldl (fun s l => dropPoolLine l s) s
  let s := stops.foldl (fun s c => stopCopy c.1.hall c.1.id c.2 6 0 1 (if isColl c.1 then debitColl c.1 c.2 s else s)) s
  failUnwritten acks s

/-- What a link's loss does: its regions are FAULTED; what their lines held unwritten is lost and counted (R86). -/
def losePort (port : Nat) (s : State) : State :=
  let gone (r : Nat) : Bool := s.regionOnline r && s.regionPort r == port
  let regions := (s.regions.map (·.1)).filter gone
  let mine (l : Nat) : Bool := dpaSpace (l * 128) == 2 && regions.contains (poolRegion (l * 128))
  let lines := (s.lines.map (·.1)).filter mine
  let lost := lines.filter fun l => (s.line l).state == .dirty
  let acks := (lines.map fun l => (s.line l).unwritten).flatten
  let faulted (e : Nat × DWord) : Nat × DWord :=
    if regions.contains e.1 then (e.1, (e.2 &&& 0x3FFFFFFFFFFFFFFF) ||| 0x8000000000000000) else e
  let s := loseLines lines (fun s => { s with regions := s.regions.map faulted }) s
  let p : Link := Sparse.get {} s.ports port
  let s := { s with ports := Sparse.set {} s.ports port { p with lost := true, active := false, count := p.count + lost.length + acks.length } }
  regions.foldl (fun s r => report s (reportBits 5 0 0 0 0 0 0 r s.clk 0)) s

/-- `POOL_LINK_LOSS`: port (R86), 2,000,000 counts after the link left the active state, or at once on a viral
indication. -/
def execPoolLinkLoss (s : State) : Host.Outcome State Fault Refusal :=
  event (fun s => match s.nums with
    | [port] => if (Sparse.get ({} : Link) s.ports port).lost then s else losePort port s
    | _ => s) s

/-- `BACK_INVALIDATION_SNOOP`: line, 0 BISnpCur, 1 BISnpData, 2 BISnpInv (R84, R109); not served in minimal mode (R370). -/
def execBackInvalidationSnoop (s : State) : Host.Outcome State Fault Refusal :=
  event (fun s => match s.nums with
    | [l, kind] =>
      if dpaSpace (l * 128) ≠ 2 || s.min then s
      else if waitsAt s l ⟨.backInvalidationSnoop, .nums [l, kind]⟩ then enqueue l ⟨.backInvalidationSnoop, .nums [l, kind]⟩ s
      else servePool l kind s
    | _ => s) s

/-! The host (R96, R359). -/

/-- The host's memory commands are served: not in minimal mode (R370). -/
def hostServed (s : State) : Bool := s.up && !s.min

/-- The DPA behind an offset of HDM decoder 0: the same offset of this package's HBM. -/
def hdmDpa (s : State) (h : Nat) : Nat := s.pkg * 2 ^ 40 + h

/-- The host memory command names HBM of this package, through decoder 0. -/
def hostHbm (s : State) (a : Nat) : Bool := a == hdmDpa s (a % 2 ^ 40)

/-- `HOST_CXL_MEM_READ`: DPA or ring-window key, length, within one line. The data the host receives stand in `reply` under
opcode 0; the home serves the read in the order of the line's requests (R95); decoder 1's windows are read as they stand
(R360). -/
def execHostCxlMemRead (s : State) : Host.Outcome State Fault Refusal :=
  event (fun s => match s.nums with
    | [a, n] =>
      if !hostServed s then s
      else if 2 ^ 64 ≤ a then { s with reply := some ⟨0, 0, (Memory.read s.mem a n).map (·.toNat), .success⟩ }
      else if !hostHbm s a then s
      else if waitsAt s (lineOf a) ⟨.hostCxlMemRead, .nums [a, n]⟩ then
        enqueue (lineOf a) ⟨.hostCxlMemRead, .nums [a, n]⟩ s
      else serveHostRead a n s
    | _ => s) s

/-! The host's launch rings (R306, R360). -/

/-- The context of a launch record (R300). -/
def recCtx (rec : BitVec 1024) : Nat := bitsAt rec.toNat 200 8

def ringOf (s : State) (i : Nat) : HostRing := Sparse.get {} s.rings i

/-- A word of a ring window. -/
def ringWord (s : State) (i off : Nat) : Word := BitVec.ofNat 32 (Memory.load s.mem (ringKey i off) 4)
def setRingWord (i off : Nat) (v : Word) (s : State) : State :=
  { s with mem := Memory.store s.mem (ringKey i off) 4 v.toNat }

/-- CMTP passes every committed position, and the arbiter, at cursor 0, reads each: its records are submitted. -/
def ringAdvance (i : Nat) : Nat → State → State
  | 0, s => s
  | fuel + 1, s =>
    let r := ringOf s i
    let c := ringWord s i 12
    let slot := c.toNat % 2 ^ r.log2n
    if ringWord s i (64 + 4 * slot) == c + 1 then
      let rec_ := BitVec.ofNat 1024 (Memory.load s.mem (ringKey i (0x2000 + 128 * slot)) 128)
      let s := setRingWord i 8 (c + 1) (setRingWord i 12 (c + 1) (setRingWord i 16 (c + 1) (setRingWord i 48 (c + 1) s)))
      ringAdvance i fuel (s.post .launchSubmit (.submit
        { record := rec_, va := 0, ring := some i, src := .device, priv := r.priv, ctx := recCtx rec_, prio := r.prio }))
    else s

/-- The host writes a sequence word, which the home passes to the arbiter: position p is committed by p + 1, any other value is counted
in FCNT (R306, R360). -/
def commitRing (i slot : Nat) (v : Word) (s : State) : State :=
  let n := 2 ^ (ringOf s i).log2n
  if 64 ≤ i || n ≤ slot then s
  else
    let c := ringWord s i 12
    let s := setRingWord i (64 + 4 * slot) v s
    if (v - 1).toNat % n = slot && decide ((v - 1 - c).toNat < n) then ringAdvance i n s
    else setRingWord i 52 (ringWord s i 52 + 1) s

/-- The sequence words that a host write covers whole, lowest first: slot and value. -/
def sequenceWords (ring : Nat) (cells : List Host.Cell) : List (Nat × Word) :=
  let byte (k : Nat) : Option Nat := (cells.find? fun c => c.1 == k).map fun c => c.2.toNat
  ((cells.map fun c => (c.1 - ringKey ring 64) / 4).eraseDups).filterMap fun k =>
    let a := ringKey ring (64 + 4 * k)
    match byte a, byte (a + 1), byte (a + 2), byte (a + 3) with
    | some x, some y, some z, some w => some (k, BitVec.ofNat 32 (x + y * 2 ^ 8 + z * 2 ^ 16 + w * 2 ^ 24))
    | _, _, _, _ => none

/-- A host write into a ring window, served whole as it arrives (R360): bytes of slots are written as they are, sequence words pass to
the arbiter, and the header is the home's to write, as are the parts of a sequence word (log 88). -/
def ringWindowWrite (m : Msg) (s : State) : State :=
  let ring := (m.tgt - 2 ^ 64) / 65536
  let off (c : Host.Cell) : Nat := (c.1 - 2 ^ 64) % 65536
  if 64 ≤ ring then s
  else
    let s := { s with mem := Memory.writeCells s.mem (m.bytes.filter fun c => decide (0x2000 ≤ off c)) }
    (sequenceWords ring (m.bytes.filter fun c => decide (64 ≤ off c) && decide (off c < 0x2000))).foldl
    (fun s q => commitRing ring q.1 q.2 s) s

/-- `HOST_CXL_MEM_WRITE` (R96, R359): a partial write of a poisoned line is refused with the poison indication (R67). -/
def execHostCxlMemWrite (s : State) : Host.Outcome State Fault Refusal :=
  onMsg (fun m s =>
    if !hostServed s then s
    else if 2 ^ 64 ≤ m.tgt then ringWindowWrite m s
    else if !hostHbm s m.tgt then s
    else atHome .hostCxlMemWrite { m with key := 0, src := .device } s) s

/-- `HOST_CXL_CACHE_SNOOP`: sector, 1 for ownership (R96, R109). -/
def execHostCxlCacheSnoop (s : State) : Host.Outcome State Fault Refusal :=
  event (fun s => match s.nums with
    | [k, own] =>
      if !hostServed s then s
      else if waitsAt s (k / 2) ⟨.hostCxlCacheSnoop, .nums [k, own]⟩ then enqueue (k / 2) ⟨.hostCxlCacheSnoop, .nums [k, own]⟩ s
      else serveSnoop k (own == 1) s
    | _ => s) s

/-! Undeliverable messages (R350). -/

/-- The issuer waits for the answer to operation `id`. -/
def awaitsId (s : State) (i : Issuer) (id : Nat) : Bool :=
  if i.climber then (s.climber i.core i.slot).await == .sent id
  else (s.wave i.core i.slot).splits.any fun p => p.await == .sent id

/-- `UNDELIVERABLE_NOTICE`: by the operation that sent the message, which its major opcode names. -/
def execUndeliverableNotice (s : State) : Host.Outcome State Fault Refusal :=
  onMsg (fun m s =>
    let maj := m.src.maj
    if 0x53 ≤ maj && maj ≤ 0x56 then stopCopy m.reason m.id m.va.toNat 0 3 1 s
    else if maj = 0x48 || maj = 0x49 then s
    else if m.src.slot = niSlot then refuse m 0x1A m.reason s
    else if !isAgent m.src then s
    else if m.src.climber && !(0x45 ≤ maj && maj ≤ 0x47) && maj ≠ 0x52 then s
    else if m.kind = 1 && isLsKey m.tgt && awaitsId s m.src m.id then
      forBoth m.src (fun i s => answer s i m.id 0 (0x1A + 256 * m.reason)) s
    else forBoth m.src (fun i s => failOp s { m with src := i } 0x1A m.reason) s) s

end Sys2Proof.Machine
end

