-- ==== Sys2Proof/Machine/Paging.lean ====
section
/-! DEFINITION. What changes translations: walks and shootdowns (R77-R83, R348), bias flips and page moves (R88-R91), context
roots, key slots and pool regions (R69, R72, R85, R86), and the mailbox that commands them (R362). -/

namespace Sys2Proof.Machine

/-! The mailbox (R362). -/

/-- What a command answers: the state, the status and the payload behind it. -/
abbrev Answer := State × Nat × List Nat

def reply (opcode : Nat) (a : Answer) : State := { a.1 with reply := some ⟨opcode, a.2.1, a.2.2, .success⟩ }

/-- A command that runs to completion; `always`: also in minimal mode. -/
def command (opcode : Nat) (always : Bool) (body : State → Answer) (s : State) : Host.Outcome State Fault Refusal :=
  event (fun s => if s.min && !always then reply opcode (s, 5, []) else reply opcode (body s)) s

/-- A background command: started, with the indication that it is, or refused while another runs; a status other than 0 ends it at
once. -/
def startBackground (opcode : Nat) (body : State → State × Nat) (s : State) : State :=
  if s.background.isSome then reply opcode (s, 4, [])
  else
    let r := body s
    if r.2 = 0 then { r.1 with background := some opcode, reply := some ⟨opcode, 0, [], .backgroundStarted⟩ } else reply opcode (s, r.2, [])

def background (opcode : Nat) (always : Bool) (body : State → State × Nat) (s : State) : Host.Outcome State Fault Refusal :=
  event (fun s => if s.min && !always then reply opcode (s, 5, []) else startBackground opcode body s) s

/-- The background command ends; vector 0 (R361, R362). -/
def endBackground (status : Nat) (data : List Nat) (s : State) : State :=
  match s.background with
  | none => s
  | some op => { s with background := none, reply := some ⟨op, status, data, .success⟩, msix := s.msix ++ [0] }

/-! Walks and shootdowns. -/

/-- `PAGE_WALK`: hall, ctx, va (R78). -/
def execPageWalk (s : State) : Host.Outcome State Fault Refusal :=
  event (fun s => match s.nums with
    | [h, ctx, va] => (locate s h ctx va).1
    | _ => s) s

/-- A cached range of VAs is in a shootdown: length 0 is the whole context. -/
def shot (ctx : Nat) (allCtx : Bool) (va len c a n : Nat) : Bool :=
  (allCtx || c == ctx) && (len == 0 || (decide (a < va + len) && decide (va < a + n)))

/-- A hall's caches without the entries of a range. -/
def purgeHall (ctx : Nat) (allCtx : Bool) (va len : Nat) (h : Hall) : Hall :=
  let out (t : Tlb) : Bool := !shot ctx allCtx va len t.ctx t.va t.bytes
  { h with tlb := h.tlb.filter out, engineTlb := h.engineTlb.filter out
           walks := h.walks.filter fun w => !shot ctx allCtx va len w.ctx (w.prefix_ * 2 ^ w.shift) (2 ^ w.shift) }

/-- Messages that may carry a translation. -/
def translates (op : Instr) : Bool := match op with
  | .postedStore => true
  | .publishWrite => true
  | .atomicRequest => true
  | .reductionDevice => true
  | .copyReadRequest => true
  | .lineData => true
  | .copyLineWrite => true
  | .leaseRequest => true
  | .subscriptionControl => true
  | .watch => true
  | _ => false

/-- Messages of copies, whose VA is their place in the copy. -/
def isCopyLine (op : Instr) : Bool := match op with
  | .copyReadRequest => true
  | .lineData => true
  | .copyLineWrite => true
  | _ => false

/-- The pointer of the side of a copy that a line on its way has been translated on; a line with its engine has none, which translates its
destination then. -/
def linePointer (s : State) (op : Instr) (m : Msg) : Option (Nat × DWord) := match op, findCopy s m.reason m.id with
  | .copyReadRequest, some c => some (c.ctx, elemPointer c 0 (m.va.toNat / elemBytes c))
  | .copyLineWrite, some c => some (c.ctx, elemPointer c 1 (m.va.toNat / elemBytes c))
  | _, _ => none

/-- A message translated already, under an entry that a shootdown may remove. -/
def translated (s : State) (ctx : Nat) (allCtx : Bool) (va len : Nat) (t : Task) : Bool := match t.arg with
  | .msg m => translates t.op && decide (m.tgt < 2 ^ 56) &&
      if isCopyLine t.op then (match linePointer s t.op m with
        | some (c, p) => ptrKind p != 0 || shot ctx allCtx va len c (p.toNat / 128 * 128) 128
        | none => false)
      else (m.va.toNat / 128 :: if t.op matches .postedStore then m.dst else []).any fun l => shot ctx allCtx va len m.ctx (l * 128) 128
  | _ => false

/-- The same operation: what its message has become on its way. -/
def sameOp (t u : Task) : Bool := match t.arg, u.arg with
  | .msg m, .msg n => translates u.op && isCopyLine t.op == isCopyLine u.op && m.src == n.src && m.id == n.id && m.va == n.va
  | _, _ => false

/-- A shootdown need not wait for what a page operation holds: a move, whose queue goes to the new home (R82, R90), or the flip it is
part of (R88). -/
def holdsBack (why : Shooter) (p : PageOp) : Bool := p.move || why == .flip p.id

/-- Messages on their way, at a line, held by a pair, or held by a page operation that a shootdown must wait for. -/
def unapplied (s : State) (why : Shooter) : List Task :=
  s.agenda ++ (s.lines.map fun l => l.2.queue).flatten ++ (s.groups.flatMap fun g => match g.pair with
    | some p => p.held
    | none => []) ++ ((s.pageOps.filter fun p => !holdsBack why p).flatMap fun p => p.queue)

/-- A shootdown begins (R82): the cached entries go, and the messages already translated must end. -/
def startShoot (ctx va len : Nat) (allCtx : Bool) (why : Shooter) (s : State) : State :=
  { s with
    halls := s.halls.map fun (h : Nat × Hall) => (h.1, purgeHall ctx allCtx va len h.2)
    shoots := s.shoots ++ [⟨s.nextId, ctx, allCtx, va, len, why, (unapplied s why).filter (translated s ctx allCtx va len)⟩]
    nextId := s.nextId + 1 }

/-- The operations a shootdown waits for are applied, or held by a page operation (R82, R83). -/
def shootDone (s : State) (h : Shoot) : Bool := h.left.all fun t => !(unapplied s h.why).any (sameOp t)

/-- `TLBI` (R348): the other packages of the domain, which `.dom` adds, are outside the model. -/
def execTlbi (g : Guard) (dom : Bool) (d : RegNo) (a : RegNo) (s : State) : Host.Outcome State Fault Refusal :=
  issue (.tlbi g dom d a) (fun s =>
    let l := firstLane s g
    let va := (src64 s a.toNat l).toNat / 65536 * 65536
    let len := ((src s (a.toNat + 2) l).toNat + 65535) / 65536 * 65536
    let c := (src s (a.toNat + 3) l).toNat
    match s.curAwait with
    | .sent _ => .wait 16 s
    | .answered _ _ _ => .done (putAll s g d 0)
    | _ =>
      if 512 ≤ c then .trap 0x01 s.ir s
      else
        let i := issuerOf s 0x7C 0
        .wait 16 (setAwait (.sent s.nextId) (startShoot (c % 256) va len (c / 256 == 1) (.wave i) s))) s

/-! Page operations. -/

/-- A PTE bit or field changed by the hardware, as a write at the PTE's home. -/
def writePte (p : PageOp) (f : Nat → Nat) (s : State) : State :=
  (homeWrite s (lineOf p.pte) 0 (pointOf s p.pte 0) (cellsOf p.pte 16 (f (s.devRead p.pte 16 0))) .device 0).getD s

/-- A PTE's line may be written at once (R95, R109). -/
def pteFree (s : State) (a : Nat) : Bool :=
  (s.line (lineOf a)).lease.isNone && (s.line (lineOf a)).queue.isEmpty && (s.line (lineOf a)).state != .filling

def setBit (k : Nat) (b : Bool) (e : Nat) : Nat := e - e / 2 ^ k % 2 * 2 ^ k + b.toNat * 2 ^ k

/-- The page a command names, if it is an HBM page that no other operation holds. -/
def pageFor (s : State) (ctx va : Nat) : Option Leaf :=
  match walk s ctx va with
  | .error _ => none
  | .ok f =>
    let busy := s.pageOps.any fun p => decide (p.old < ptePa f.pte + 2 ^ f.page) && decide (ptePa f.pte < p.old + p.bytes)
    if dpaSpace (ptePa f.pte) ≠ 0 || busy then none else some f

def pageOpOf (s : State) (ctx va : Nat) (f : Leaf) (move retire : Bool) (dpa : Nat) : PageOp :=
  { id := s.nextId, ctx := ctx, va := va / 2 ^ f.page * 2 ^ f.page, bytes := 2 ^ f.page, pte := f.at_, old := ptePa f.pte
    new := dpa, move := move, retire := retire, step := 1, queue := [] }

def updPageOp (id : Nat) (f : PageOp → PageOp) (s : State) : State :=
  { s with pageOps := s.pageOps.map fun p => if p.id == id then f p else p }

/-- Lines of a page that the model lists. -/
def linesOf (s : State) (base bytes : Nat) : List Nat :=
  (s.lines.map (·.1)).filter fun l => decide (base ≤ l * 128) && decide (l * 128 < base + bytes)

/-- No lease, and no request, holds a line of the page, nor that of its PTE. -/
def pageQuiet (s : State) (p : PageOp) : Bool :=
  pteFree s p.pte && (linesOf s p.old p.bytes).all fun l => (s.line l).lease.isNone && (s.line l).queue.isEmpty && (s.line l).state != .filling

/-- Requests a page operation held go on, before any later one. -/
def release (p : PageOp) (f : State → Msg → Msg) (s : State) : State :=
  let out (t : Task) : Task := match t.arg with
    | .msg m => ⟨t.op, .msg (f s m)⟩
    | _ => t
  { s with agenda := p.queue.map out ++ s.agenda }

/-- The home of a page under its present PTE. -/
def rehome (p : PageOp) (s : State) (m : Msg) : Msg := { m with point := pointOf s m.tgt (s.devRead p.pte 16 0) }

/-- Subscriptions of a page end (R103). -/
def endPageSubs (p : PageOp) (reason : Nat) (s : State) : State :=
  s.cores.foldl (fun s c => ((s.core c.1).subs.filter fun u => decide (p.old ≤ u.dpa) && decide (u.dpa < p.old + p.bytes)).foldl
    (fun s u => endSub c.1 reason u s) s) s

/-- A bias flip goes on once its leases have ended: dirty lines are written back, BI changes, a shootdown begins (R88). -/
def flipOn (p : PageOp) (s : State) : State :=
  let s := (linesOf s p.old p.bytes).foldl (fun s l =>
    if (s.line l).state = .dirty then writeBack l s else s) s
  let s := endPageSubs p 4 s
  let s := (linesOf s p.old p.bytes).foldl (fun s l => s.updLine l fun x =>
    { x with state := match x.state with
      | .poisoned => .poisoned
      | _ => .invalid }) s
  let s := writePte p (fun e => setBit 7 (!pteBit e 7) e) s
  startShoot p.ctx p.va p.bytes false (.flip p.id) (updPageOp p.id (fun p => { p with step := 5 }) s)

/-- `BIAS_FLIP`: ctx, va (R88), the command; with the number of a flip, its next step. -/
def execBiasFlip (s : State) : Host.Outcome State Fault Refusal :=
  event (fun s => match s.nums with
    | [_, _, id] => match s.pageOps.find? fun p => !p.move && p.step == 1 && p.id == id && pageQuiet s p with
      | some p => flipOn p s
      | none => s
    | [ctx, va] =>
      if s.min then reply 0xC013 (s, 5, [])
      else startBackground 0xC013 (fun s => match pageFor s ctx va with
        | none => (s, 1)
        | some f =>
          ({ s with pageOps := s.pageOps ++ [pageOpOf s ctx va f false false (ptePa f.pte)], nextId := s.nextId + 1 }, 0)) s
    | _ => s) s

/-- `MOVE_PAGE`: ctx, va, dpa, retire (R89): MV is set and the first shootdown begins. -/
def execMovePage (s : State) : Host.Outcome State Fault Refusal :=
  background 0xC014 false (fun s => match s.nums with
    | [ctx, va, dpa, retire] => match pageFor s ctx va with
      | none => (s, 1)
      | some f =>
        if dpaSpace dpa ≠ 0 || dpa % 2 ^ f.page ≠ 0 || 2 ^ 54 ≤ dpa then (s, 1)
        else
          let p := pageOpOf s ctx va f true (retire == 1) dpa
          let s := writePte p (setBit 6 true) { s with pageOps := s.pageOps ++ [p], nextId := s.nextId + 1 }
          (startShoot ctx p.va p.bytes false (.move p.id) s, 0)
    | _ => (s, 1)) s

/-- Lines of a page that the model lists, or of which a sector is in error. -/
def knownLines (s : State) (base bytes : Nat) : List Nat :=
  (linesOf s base bytes ++ ((s.badHbm.map fun b => b.1 / 2).filter fun l => decide (base ≤ l * 128) && decide (l * 128 < base + bytes))).eraseDups

/-- The bytes and lines of a page copied to another place, read and written under the page's key: corrected errors are repaired as they
are found, a poisoned line stays poisoned, and what the new place held is overwritten (R67, R89). -/
def copyPage (p : PageOp) (slot : Nat) (s : State) : State :=
  let s := (linesOf s p.old p.bytes).foldl (fun s l => rekey s l slot) s
  let uncached (l : Nat) : Bool := (s.line l).state == .invalid
  let s := ((knownLines s p.old p.bytes).filter uncached).foldl (fun s l => repairLine l s) s
  let within (base k : Nat) : Bool := decide (base ≤ k) && decide (k < base + p.bytes)
  let cells := (s.mem.filter fun c => within p.old c.1).map fun (c : Host.Cell) => (p.new + (c.1 - p.old), c.2)
  let s := { s with mem := Memory.writeCells (s.mem.filter fun c => !within p.new c.1) cells }
  let s := (linesOf s p.new p.bytes).foldl (fun s l => s.setLine l {}) s
  let s := { s with badHbm := s.badHbm.filter fun b => !within p.new (b.1 / 2 * 128) }
  (knownLines s p.old p.bytes).foldl (fun s l =>
    let to_ := lineOf p.new + (l - lineOf p.old)
    let v := if poisonedLine s l then 2 else 0
    { s with badHbm := Sparse.set 0 (Sparse.set 0 s.badHbm (2 * to_) v) (2 * to_ + 1) v }.setLine to_
      { ({} : Line) with key := (s.line l).key, tag := slot }) s

/-- Subscriptions and watches follow a page, or, where its new home is in another package, subscriptions end (R89, R97, R103; log
40). -/
def transferPage (p : PageOp) (s : State) : State :=
  let within (k : Nat) : Bool := decide (p.old ≤ k) && decide (k < p.old + p.bytes)
  let go (k : Nat) : Nat := p.new + (k - p.old)
  let pte := s.devRead p.pte 16 0
  let s := if dpaPkg p.new = s.pkg then s else endPageSubs p 3 s
  let s := { s with
    dirs := s.dirs.map fun (d : Dir) => if within d.dpa then { d with dpa := go d.dpa, point := pointOf s (go d.dpa) pte } else d
    watches := s.watches.map fun (w : Watch) =>
      if !isLsKey w.key && within w.key then { w with key := go w.key, point := pointOf s (go w.key) pte } else w }
  s.cores.foldl (fun s c => s.updCore c.1 fun x => { x with
    subs := x.subs.map fun (u : Sub) => if within u.dpa then { u with dpa := go u.dpa } else u }) s

/-- Bits [55:16] of a PTE. -/
def setPa (dpa e : Nat) : Nat := e - e / 2 ^ 16 % 2 ^ 40 * 2 ^ 16 + dpa / 2 ^ 16 * 2 ^ 16

/-- `PAGE_MOVE_COPY_DONE`: id (R89, R90). The page is copied; its PTE names the new place, the queue goes to the new home
and the second shootdown begins. A copy that fails leaves the old PTE with MV clear. -/
def execPageMoveCopyDone (s : State) : Host.Outcome State Fault Refusal :=
  event (fun s => match s.nums with
    | [id] => match s.pageOps.find? fun p => p.id == id && p.move && p.step == 2 && pageQuiet s p with
      | none => s
      | some p =>
        let slot := pteKey (s.devRead p.pte 16 0)
        match (match lineFault s p.old slot with
          | some r => some r
          | none => lineFault s p.new slot) with
        | some r =>
          let s := writePte p (setBit 6 false) s
          let s := release p (rehome p) { s with pageOps := s.pageOps.filter fun q => q.id != id }
          endBackground 1 [r] s
        | none =>
          let s := transferPage p (writePte p (fun e => setPa p.new (setBit 6 false e)) (copyPage p slot s))
          let s := release p (fun s m => forwardMsg s p m) (updPageOp id (fun q => { q with step := 3, queue := [] }) s)
          startShoot p.ctx p.va p.bytes false (.move id) s
    | _ => s) s

/-- The old home retires a move. -/
def retireMove (p : PageOp) (s : State) : State :=
  endBackground 0 [] { s with pageOps := s.pageOps.filter fun q => q.id != p.id }

/-- What a completed shootdown was for. -/
def afterShoot (h : Shoot) (s : State) : State :=
  match h.why with
  | .wave i => answer s i h.id 0 0
  | .host => endBackground 0 [] s
  | .flip id => match s.pageOps.find? fun p => p.id == id with
    | none => s
    | some p => endBackground 0 [] (release p (rehome p) { s with pageOps := s.pageOps.filter fun q => q.id != id })
  | .move id => match s.pageOps.find? fun p => p.id == id with
    | none => s
    | some p => if p.step = 1 then updPageOp id (fun q => { q with step := 2 }) s else retireMove p s

/-- `SHOOTDOWN_COMPLETE`: id (R82). -/
def execShootdownComplete (s : State) : Host.Outcome State Fault Refusal :=
  event (fun s => match s.nums with
    | [id] => match s.shoots.find? fun h => h.id == id && shootDone s h with
      | none => s
      | some h => afterShoot h { s with shoots := s.shoots.filter fun g => g.id != id }
    | _ => s) s

/-- `HOST_SHOOTDOWN`: ctx, va, len, allCtx (R82). -/
def execHostShootdown (s : State) : Host.Outcome State Fault Refusal :=
  background 0xC015 false (fun s => match s.nums with
    | [ctx, va, len, allCtx] =>
      if 256 ≤ ctx then (s, 1)
      else (startShoot ctx (va / 65536 * 65536) ((len + 65535) / 65536 * 65536) (allCtx == 1) .host s, 0)
    | _ => (s, 1)) s

/-! Tables the host writes. -/

/-- `SET_CONTEXT_ROOT`: ctx, root (R72): a root that is not an aligned HBM address makes the walks fault. -/
def execSetContextRoot (s : State) : Host.Outcome State Fault Refusal :=
  command 0xC010 false (fun s => match s.nums with
    | [ctx, root] =>
      if 256 ≤ ctx then (s, 1, [])
      else ({ s with roots := Sparse.set 0xC0000000000000 s.roots ctx (root % 2 ^ 64) }, 0, [])
    | _ => (s, 1, [])) s

/-- `LOAD_KEY_SLOT` (R69, R371): a lock, a key, or an empty slot; Dirty lines of the slot will be written under the
new key, and under none when the slot is emptied, of which the spec says nothing (log 75). -/
def execLoadKeySlot (s : State) : Host.Outcome State Fault Refusal :=
  command 0xC011 false (fun s => match s.arg with
    | .key slot value lock secured =>
      if s.keyLock && !(secured && s.spdm.session) then (s, 3, [])
      else if lock then ({ s with keyLock := true }, 0, [])
      else if slot = 0 || 64 ≤ slot then (s, 1, [])
      else
        let s := { s with
          keys := Sparse.set none s.keys slot value
          lines := s.lines.map fun (l : Nat × Line) =>
            if l.2.tag = slot && l.2.state = .dirty then (l.1, { l.2 with key := value }) else l }
        (s, 0, [])
    | _ => (s, 1, [])) s

/-- Lines of a region. -/
def regionLines (s : State) (r : Nat) : List Nat :=
  (s.lines.map (·.1)).filter fun l => dpaSpace (l * 128) == 2 && poolRegion (l * 128) == r

/-- Lines of a region that becomes absent leave the hall stores; what they held unwritten is lost (R86). -/
def dropRegion (r : Nat) (entry : DWord) (s : State) : State :=
  loseLines (regionLines s r) (fun s => { s with regions := Sparse.set 0 s.regions r entry }) s

/-- `WRITE_POOL_REGION_ENTRY`: id, entry (R85, R86): a FAULTED region comes online again only once its link is up.
Lines cached under the old entry are dropped when the region is retired and stay cached otherwise, which is the model's choice
(log 75). -/
def execWritePoolRegionEntry (s : State) : Host.Outcome State Fault Refusal :=
  command 0xC012 false (fun s => match s.nums with
    | [r, e] =>
      let old := (Sparse.get 0 s.regions r).toNat / 2 ^ 62
      let port : Link := Sparse.get {} s.ports (e / 2 ^ 60 % 4)
      if 4096 ≤ r || 2 ^ 64 ≤ e then (s, 1, [])
      else if old = 2 && e / 2 ^ 62 = 1 && !port.active then (s, 2, [])
      else if e / 2 ^ 62 = 0 then (dropRegion r (BitVec.ofNat 64 e) s, 0, [])
      else ({ s with regions := Sparse.set 0 s.regions r (BitVec.ofNat 64 e) }, 0, [])
    | _ => (s, 1, [])) s

end Sys2Proof.Machine
end

