-- ==== Sys2Proof/Machine/Graph.lean ====
section
/-! DEFINITION. Work graphs (R316-R324): node records, instances and their rings, credits, `rsv`, `emit`, `gdone`, `take`,
fixed-function nodes; and message counters (R325, R326). -/

namespace Sys2Proof.Machine

/-! Node records (R316). -/

structure NodeRec where
  kind : Nat
  log2n : Nat
  thr : Nat
  coal : Nat
  prods : Nat
  ringa : Nat
  param : Nat

/-- Kinds with no launch and no ring. -/
def fixedKind (k : Nat) : Bool := k == 2 || k == 3 || k == 5

/-- The 256 bits of a node record; a reserved bit, an invalid kind or a ring out of R317's bounds makes it invalid. -/
def NodeRec.ofBits (v : Nat) : Option NodeRec :=
  let n : NodeRec := { kind := bitsAt v 0 4, log2n := bitsAt v 8 4
                       thr := if bitsAt v 88 8 = 0 then 32 else bitsAt v 88 8
                       coal := if bitsAt v 96 32 = 0 then 4096 else bitsAt v 96 32
                       prods := bitsAt v 144 16, ringa := bitsAt v 160 32, param := bitsAt v 192 64 }
  if 5 < n.kind || bitsAt v 4 4 ≠ 0 || bitsAt v 12 76 ≠ 0 || bitsAt v 128 16 ≠ 0 then none
  else if !fixedKind n.kind && (n.log2n < 4 || 12 < n.log2n || 32 < n.thr || 2 ^ n.log2n < 2 * n.thr || 2 ^ n.log2n < 32) then none
  else some n

/-- Node `node` of graph slot `gslot`, read in the slot's context by a hall's unit. -/
def readNode (s : State) (hall gslot node : Nat) : State × Option NodeRec :=
  let g := Sparse.get {} s.graphs gslot
  if g.count ≤ node then (s, none)
  else match readVa s hall g.ctx (g.va + 32 * node) 32 with
    | (s, .error _) => (s, none)
    | (s, .ok v) => (s, NodeRec.ofBits v)

def nodeRecord (s : State) (hall gslot node : Nat) : Option NodeRec := (readNode s hall gslot node).2

/-- The read of a node record need wait at no home (R78, R95). -/
def nodeFree (s : State) (hall gslot node : Nat) : Bool :=
  let g := Sparse.get {} s.graphs gslot
  let va := g.va + 32 * node
  decide (g.count ≤ node) || (walkFree s hall g.ctx va && vaFree s g.ctx va 32)

/-! Instances (R317, R319, R345). -/

/-- The instances of a node, of resident and saved groups. -/
def instances (s : State) (gslot node : Nat) : List (Group × Inst) :=
  (s.groups ++ s.saved.map (·.group)).filterMap fun g => match g.inst with
    | some n => if n.gslot = gslot && n.node = node then some (g, n) else none
    | none => none

/-- The instance a group carries, with the group. -/
def instanceOf (s : State) (gid : Nat) : Option (Group × Inst) :=
  ((s.groups ++ s.saved.map (·.group)).find? fun g => g.gid == gid).bind fun g => g.inst.map fun n => (g, n)

def updInst (gid : Nat) (f : Inst → Inst) (s : State) : State :=
  updAnyGroup gid (fun g => { g with inst := g.inst.map f }) s

/-- The memory key of a byte of a group's partition: its local store, or its image while it is saved. -/
def partKey (s : State) (g : Group) (off : Nat) : Option Nat :=
  match s.saved.find? fun v => v.gid == g.gid with
  | some v => (imageAt s v off).map (·.1)
  | none => some (lsKey g.core off)

/-- A write of `n` bytes by an NI, in a local store or in a saved group's image. -/
def niSet (k n v : Nat) (s : State) : State :=
  niWrite (cellsOf k n v) s

/-- The free slots of an instance (R319). -/
def freeSlots (s : State) (q : Group × Inst) : Nat :=
  match partKey s q.1 q.2.ringa with
  | none => 0
  | some h => 2 ^ q.2.log2n - (word32 s (h + 8) - word32 s (h + 48)).toNat - q.2.cred

/-- An instance is closed (R319). -/
def Inst.closed (n : Inst) : Bool := n.prods != 0 && decide (n.prods ≤ n.done) && n.cred == 0

/-- Of two instances, the one R320 prefers from a core. -/
def preferInst (s : State) (core : Nat) (a b : Group × Inst) : Group × Inst :=
  let fa := freeSlots s a
  let fb := freeSlots s b
  let ha := hops core a.1.core
  let hb := hops core b.1.core
  if fa < fb || (fa == fb && (decide (hb < ha) || (ha == hb && decide (b.1.lcore < a.1.lcore)))) then b else a

/-- The instance `rsv` chooses (R320). -/
def chooseInst (s : State) (gslot node : Nat) : Option (Group × Inst) :=
  match instances s gslot node with
  | [] => none
  | q :: qs => some (qs.foldl (preferInst s s.curCore) q)

/-! Records entering a ring (R317, R319, R294). -/

/-- CMTP passes every committed position. -/
def niAdvance (h n : Nat) : Nat → State → State
  | 0, s => s
  | fuel + 1, s =>
    let c := word32 s (h + 12)
    if c != word32 s (h + 8) && word32 s (h + 64 + 4 * (c.toNat % n)) == c + 1 then
      niAdvance h n fuel (niSet (h + 12) 4 (c + 1).toNat s)
    else s

/-- A record committed at position `p` of an instance; `paid` by a credit. -/
def commitRecord (gid : Nat) (paid : Bool) (p : Word) (tuple : BitVec 128) (s : State) : State :=
  match instanceOf s gid with
  | none => s
  | some (g, n) => match partKey s g n.ringa with
    | none => s
    | some h =>
      let size := 2 ^ n.log2n
      let ix := p.toNat % size
      let s := niSet (h + 64 + 4 * size + 16 * ix) 16 tuple.toNat s
      let s := niAdvance h size (size + 1) (niSet (h + 64 + 4 * ix) 4 (p + 1).toNat s)
      updInst gid (fun n => { n with cred := n.cred - paid.toNat, commits := n.commits ++ [(p.toNat, s.clk)] }) s

/-- Positions reserved from RSVP: the first of them. -/
def reservePositions (gid count : Nat) (s : State) : Option (Word × State) :=
  match instanceOf s gid with
  | none => none
  | some (g, n) => (partKey s g n.ringa).map fun h =>
      (word32 s (h + 8), niSet (h + 8) 4 (word32 s (h + 8) + BitVec.ofNat 32 count).toNat s)

/-- A record that no credit pays for: committed, or counted in FCNT when the ring is full (R294). -/
def putRecord (gid : Nat) (tuple : BitVec 128) (s : State) : Option State :=
  match instanceOf s gid with
  | none => none
  | some (g, n) => match partKey s g n.ringa with
    | none => none
    | some h =>
      if 2 ^ n.log2n ≤ (word32 s (h + 8) - word32 s (h + 48)).toNat then none
      else (reservePositions gid 1 s).map fun q => commitRecord gid false q.1 tuple q.2

/-- A record a full ring refuses is counted in its FCNT. -/
def countRefused (gid : Nat) (s : State) : State :=
  match instanceOf s gid with
  | none => s
  | some (g, n) => match partKey s g n.ringa with
    | none => s
    | some h => niSet (h + 52) 4 (word32 s (h + 52) + 1).toNat s

/-- Records committed one after another from a position. -/
def commitAll (gid : Nat) : Word → List (BitVec 128) → State → State
  | _, [], s => s
  | p, t :: ts, s => commitAll gid (p + 1) ts (commitRecord gid true p t s)

/-! Message counters at an NI (R325). -/

/-- The group whose partition holds a counter, and its local address. -/
def counterGroup (s : State) (k off : Nat) : Option Group :=
  if isLsKey k then (residents s (keyCore k)).find? fun g => inRange off 32 g.pb g.pl
  else (s.saved.find? fun v => (imageAt s v off).map (·.1) == some k).map (·.group)

/-- The instance of a node on a core, of the graph a group's launch serves. -/
def instOnCore (s : State) (g : Group) (node : Nat) : Option (Group × Inst) :=
  match g.inst with
  | none => none
  | some mine => (instances s mine.gslot node).find? fun q => q.1.core == g.core

/-- A fired counter's tuple is committed with the credit of an instance. -/
def commitCounter (gid k : Nat) (s : State) : State :=
  match reservePositions gid 1 s with
  | none => s
  | some (p, s) => commitRecord gid true p (BitVec.ofNat 128 (s.peek (k + 16) 16)) s

/-! Credits (R319). -/

/-- What a granted request gets: the credits travel back on VC 2, or, of a counter, its record is committed. -/
def grantCredits (gid : Nat) (w : Waiter) (s : State) : State :=
  if isAgent w.src then
    s.postAll [⟨.graphMessage, .msg { src := w.src, tgt := lsKey w.src.core 0, group := gid, kind := 8
                                      arg := BitVec.ofNat 128 w.count, id := w.id }⟩]
  else commitCounter gid w.id s

/-- Free slots are granted to the waiting requests, oldest first, credit by credit. -/
def serveCredits (gid : Nat) : Nat → State → State
  | 0, s => s
  | fuel + 1, s =>
    match instanceOf s gid with
    | none => s
    | some (g, n) => match n.waiters with
      | [] => s
      | w :: ws =>
        let k := min (freeSlots s (g, n)) (w.count - w.got)
        if w.got + k = w.count then
          serveCredits gid fuel (grantCredits gid w (updInst gid (fun n => { n with cred := n.cred + k, waiters := ws }) s))
        else updInst gid (fun n => { n with cred := n.cred + k, waiters := { w with got := w.got + k } :: ws }) s

/-- Every request that can be served is. -/
def serveInst (gid : Nat) (s : State) : State :=
  match instanceOf s gid with
  | none => s
  | some (_, n) => serveCredits gid (n.waiters.length + 1) s

/-- Waiter entries in use at the NI of a core: credit requests, and waves asleep on rings (R137, R319). -/
def niWaiters (s : State) (core : Nat) : Nat :=
  ((residents s core).map fun g => match g.inst with
    | some n => n.waiters.length
    | none => 0).sum + (s.waves.flatMap fun p => p.2.splits.filter fun q => q.await == .atRing core).length

/-- `clk` 64 cycles of a core from now. -/
def retryClk (s : State) (core : Nat) : Nat := s.clkAfter (64 * 2000 / s.mhz (islandOf core))

/-- A credit request at an instance: granted, waiting in one of 64 entries, or answered with retry; one about an instance that is
gone is answered so that its instruction chooses again. -/
def creditRequest (m : Msg) (s : State) : State :=
  match instanceOf s m.group with
  | none => s.postAll [answerMsg m 0 0x101]
  | some (g, n) =>
    let now := n.waiters.isEmpty && decide (m.arg.toNat ≤ freeSlots s (g, n))
    if !now && 64 ≤ niWaiters s g.core then s.postAll [⟨.creditRetry, .msg { m with due := retryClk s m.src.core }⟩]
    else serveInst m.group
      (updInst m.group (fun n => { n with waiters := n.waiters ++ [{ src := m.src, count := m.arg.toNat, id := m.id }] }) s)

/-- The credits an issuer's wave holds of an instance. -/
def addCredits (i : Issuer) (node gid count : Nat) (s : State) : State :=
  let add (rs : List Resv) : List Resv :=
    if rs.any (fun r => r.gid == gid) then rs.map fun r => if r.gid = gid then { r with credits := r.credits + count } else r
    else rs ++ [⟨node, gid, count⟩]
  updWaveKept i.core i.slot (fun w => { w with resv := add w.resv }) s

/-- Granted credits reach their wave; when nothing waits for them they return. A counter keeps its own and is told the instance
(R326). -/
def creditsArrive (m : Msg) (s : State) : State :=
  forBoth m.src (fun i s =>
    if (s.wave i.core i.slot).splits.any (fun p => p.await == .sent m.id) then
      match instanceOf s m.group with
      | none => answer s i m.id 0 0x101
      | some (g, n) =>
        if i.maj = 0x52 then answer s i m.id m.group 0
        else answer (addCredits i n.node m.group m.arg.toNat s) i m.id g.lcore 0
    else if i.core = m.src.core then s.postAll [graphMsg s (deviceAt i.core 0xFFFF) m.group 4 m.arg.toNat 0]
    else s) s

/-! Fault records (R323). -/

/-- A fault record goes to the graph's fault node on the core, or is counted as lost. -/
def graphFault (m : Msg) (s : State) : State :=
  let slot := Sparse.get {} s.graphs m.key
  let lose (s : State) : State := { s with graphs := Sparse.upd {} s.graphs m.key fun g => { g with lost := g.lost + 1 } }
  match (residents s (keyCore m.tgt)).find? fun g => match g.inst with
      | some n => n.gslot == m.key && n.node == slot.faultNode
      | none => false with
  | none => lose s
  | some g => match putRecord g.gid (m.arg.setWidth 128) s with
    | some s => s
    | none => lose (countRefused g.gid s)

/-! `GRAPH_MESSAGE`. -/

/-- The records a message carries, 16 bytes each. -/
def msgRecords (m : Msg) : List (BitVec 128) :=
  (List.range (m.bytes.length / 16)).map fun i => BitVec.ofNat 128 (bytesToNat ((m.bytes.drop (16 * i)).take 16 |>.map (·.2)))

/-- Records as the payload of a message. -/
def recordBytes (ts : List (BitVec 128)) : List Host.Cell :=
  ((List.range ts.length).zip ts).flatMap fun q => cellsOf (16 * q.1) 16 q.2.toNat

/-- Messages of up to eight records behind the first, each with its position. -/
def followUps (m : Msg) : Nat → Word → List (BitVec 128) → List Task
  | 0, _, _ => []
  | fuel + 1, p, ts =>
    if ts.isEmpty then []
    else ⟨.graphMessage, .msg { m with kind := 6, imm := if ts.length ≤ 8 then 1 else 0, arg := p.setWidth 128, bytes := recordBytes (ts.take 8) }⟩ ::
      followUps m fuel (p + 8) (ts.drop 8)

/-- Records or a done signal have arrived: the NI answers (R319). -/
def graphAcked (m : Msg) (s : State) : State := if isAgent m.src then s.postAll [ackMsg m false] else s

/-- The first message of an `emit`: positions for all its records, and its own records committed. The last message of an `emit`
acknowledges it. -/
def recordsArrive (m : Msg) (s : State) : State :=
  let ts := msgRecords m
  let s := if ts.length ≤ 8 then graphAcked m s else s
  match reservePositions m.group ts.length s with
  | none => s
  | some (p, s) => serveInst m.group ((commitAll m.group p (ts.take 8) s).postAll (followUps m 4 (p + 8) (ts.drop 8)))

/-- The NI a message addresses is that of a sealed core whose group is resident there. -/
def instSealed (s : State) (gid : Nat) : Bool :=
  match s.group? gid with
  | some g => (s.core g.core).sealed
  | none => false

/-- `GRAPH_MESSAGE` (R319). -/
def execGraphMessage (s : State) : Host.Outcome State Fault Refusal :=
  onMsg (fun m s =>
    if m.kind = 5 then graphFault m s
    else if m.kind = 8 then creditsArrive m s
    else if instSealed s m.group then
      (if !isAgent m.src then s else s.postAll [undeliverable { m with kind := if m.kind = 0 then 1 else 2 }])
    else match m.kind with
      | 0 => creditRequest m s
      | 1 => recordsArrive m s
      | 3 => serveInst m.group (updInst m.group (fun n => { n with done := n.done + 1, cred := n.cred - m.arg.toNat }) (graphAcked m s))
      | 4 => serveInst m.group (updInst m.group (fun n => { n with cred := n.cred - m.arg.toNat }) s)
      | 6 => serveInst m.group (commitAll m.group (m.arg.setWidth 32) (msgRecords m) (if m.imm = 1 then graphAcked m s else s))
      | _ => s) s

/-- `CREDIT_RETRY`: 64 cycles later the request is sent again. -/
def execCreditRetry (s : State) : Host.Outcome State Fault Refusal :=
  onMsg (fun m s => if s.reached m.due then s.post .graphMessage (.msg m) else s.post .creditRetry (.msg m)) s

/-! `rsv`, `emit`, `emith`, `gdone` (R320). -/

/-- A form of the GRAPH family: the node in A must be one of the graph the launch serves. -/
def graphForm (i : Instr) (g : Guard) (a : RegNo) (body : State → Nat → Nat → NodeRec → Exec) (s : State) :
    Host.Outcome State Fault Refusal :=
  issue i (fun s =>
    let x := leadA s g a
    let bad : Exec := .trap 0x05 (x.setWidth 64) s
    match s.curLaunch with
    | none => bad
    | some l =>
      if !recGn l.record || 4096 ≤ x.toNat then bad
      else if !nodeFree s (hallOf s.curCore) (recGslot l.record) x.toNat then .wait 4 s
      else match readNode s (hallOf s.curCore) (recGslot l.record) x.toNat with
        | (_, none) => bad
        | (s, some n) => body s (recGslot l.record) x.toNat n) s

/-- The wave's entry for an instance, and for a node. -/
def entryAt (s : State) (gid : Nat) : Option Resv := s.curWave.resv.find? fun r => r.gid == gid
def entryFor (s : State) (node : Nat) : Option Resv := s.curWave.resv.find? fun r => r.node == node

/-- The reservation table has room for an instance. -/
def resvRoom (s : State) (gid : Nat) : Bool := (entryAt s gid).isSome || decide (s.curWave.resv.length < 4)

/-- The instance of a node whose core word is `c`. -/
def instAt (s : State) (gslot node : Nat) (c : Word) : Option (Group × Inst) :=
  (instances s gslot node).find? fun q => BitVec.ofNat 32 q.1.lcore == c

/-- A request for credits is sent and waited for. -/
def askCredits (maj gid count : Nat) (s : State) : Exec :=
  let i := issuerOf s maj 0
  let id := s.nextId
  match graphMsg s i gid 0 count id with
  | ⟨op, .msg m⟩ => .wait 13 (setAwait (.sent id) (send op m s.freshId))
  | _ => .wait 13 s

/-- The deferred-fault record of an undeliverable request (R350). -/
def recordLost (node : Nat) (s : State) : State :=
  s.recordFault s.curCore s.cur.slot (dfrBits node 0 s.curPc.toNat 0x6B 0x1A 0 0 0 0 0)

/-- `rsv` once the node is known to have a ring; after a pre-emption it asks for the credits still wanted (R343). -/
def rsvBody (g : Guard) (here : Bool) (b c : RegNo) (s : State) (gslot node : Nat) (n : NodeRec) : Exec :=
  let l := firstLane s g
  let bad : Exec := .trap 0x05 (BitVec.ofNat 64 node) s
  let want := (src s b.toNat l).toNat
  if want = 0 || 2 ^ n.log2n < want then bad
  else if here && (instAt s gslot node (src s c.toNat l)).isNone then .trap 0x17 ((src s c.toNat l).setWidth 64) s
  else
    let (pick, left) := match s.curAwait with
      | .answered _ v 0x100 => (instAt s gslot node (BitVec.ofNat 32 (v / 2 ^ 32)), want - v % 2 ^ 32)
      | _ => (if here then instAt s gslot node (src s c.toNat l) else chooseInst s gslot node, want)
    match pick with
    | none => .wait 13 s
    | some (q, _) => if !resvRoom s q.gid then bad else askCredits 0x6B q.gid left s

/-- `GRAPH_RSV` (R320). -/
def execGraphRsv (g : Guard) (here : Bool) (d : RegNo) (a : RegNo) (b : RegNo) (c : RegNo) (s : State) :
    Host.Outcome State Fault Refusal :=
  graphForm (.graphRsv g here d a b c) g a (fun s gslot node n =>
    if fixedKind n.kind then .done (putAll s g d s.logicalCore)
    else match s.curAwait with
      | .sent _ => .wait 13 s
      | .answered _ v 0 => .done (putAll s g d v)
      | .answered _ _ 0x1A => .done (putAll (recordLost node s) g d (Config.freeNat s.nonce))
      | _ => rsvBody g here b c s gslot node n) s

/-- The lanes whose tuple is a record, and their tuples. -/
def emitLanes (s : State) (g : Guard) (b : RegNo) : List Nat :=
  (active s g).filter fun l => src s (b.toNat + 3) l != 0xFFFFFFFF

def emitTuple (s : State) (b : RegNo) (l : Nat) : BitVec 128 := BitVec.ofNat 128 (groupValue s b.toNat 4 l)

/-- A record of a reduction node executed by the NI of the emitting core (R323). -/
def reduceRecord (gn : Nat) (s : State) (t : BitVec 128) : State :=
  let v := t.toNat
  let p : DWord := BitVec.ofNat 64 v
  let code := bitsAt v 96 4
  let fail (s : State) (f : Nat) : State := s.postAll [niFault s.curCore gn t f]
  if bitsAt v 101 27 ≠ 0 || (code = 8 || code = 9 || 13 < code) || (accessCause s 4 p).isSome then fail s 0
  else match aimLater s p needBoth with
    | (s, .error (c, r)) => fail s (niFailure c r)
    | (s, .ok a) =>
      send (if isLsKey a.key then .lsReductionAtomic else .reductionDevice)
        { src := { deviceAt s.curCore niSlot with maj := 0x46 }, tgt := a.key, key := a.slot, point := a.point, va := p
          ctx := s.curCtx, ordered := decide (bitsAt v 100 1 = 1), scope := 5, sz := .w, aop := Aop.ofCode code
          arg := BitVec.ofNat 128 (bitsAt v 64 32), arg2 := t.setWidth 128, group := gn } s

/-- The command a copy node's descriptor makes (R323), or none where it is malformed. -/
def copyOfRecord (gn : Nat) (t : BitVec 128) (s : State) : Option CopyCmd :=
  let p : DWord := BitVec.ofNat 64 t.toNat
  if ptrKind p ≠ 1 || 0x2F0000 < ptrLow p + 32 then none
  else match lsTarget s s.curLid p with
    | none => none
    | some (k, slot) =>
      let v := s.keyRead k 32 slot
      let from_ : DWord := BitVec.ofNat 64 v
      let to_ : DWord := BitVec.ofNat 64 (v / 2 ^ 64)
      let n := bitsAt v 128 32
      let land := bitsAt v 160 32
      if bitsAt v 192 64 ≠ 0 || (copyPointerCause s from_ n).isSome || (copyPointerCause s to_ n).isSome ||
          (land ≠ 0 && isLsKey k && (landingCause s (keyCore k) land).isSome) then none
      else some { newCopy .linear from_ to_ n (if land = 0 then none else some (BitVec.ofNat 64 (p.toNat / 2 ^ 35 * 2 ^ 35 + land))) with
        hall := hallOf s.curCore, src := { deviceAt s.curCore niSlot with maj := 0x53 }, ctx := s.curCtx
        priv := s.privileged, lid := s.curLid, shared := true, tuple := some (gn, t) }

/-- A record of a copy node handed to the NI. -/
def copyRecord (gn : Nat) (s : State) (t : BitVec 128) : State :=
  match copyOfRecord gn t s with
  | none => s.postAll [niFault s.curCore gn t 0]
  | some c => (s.post .copyAccept (.copy { c with id := s.nextId })).freshId

/-- Copy records the NI of a core holds. -/
def copyHeld (s : State) (core : Nat) : Nat :=
  (s.agenda.filter fun t => match t.op, t.arg with
    | .copyAccept, .copy c => c.tuple.isSome && c.src.core == core
    | _, _ => false).length

/-- Records for a fixed-function node, in lane order; a copy node's wait for room among 16 (R323). -/
def emitFixed (kind gn : Nat) (g : Guard) (d b : RegNo) (s : State) : Exec :=
  let ts := (emitLanes s g b).map (emitTuple s b)
  let out (s : State) : Exec := .done (putAll s g d ts.length)
  if kind = 2 then out (ts.foldl (reduceRecord gn) s)
  else if kind = 5 then out (s.updCore s.curCore fun c => { c with sunk := c.sunk + ts.length })
  else
    let sent := match s.curAwait with
      | .answered _ k _ => k
      | _ => 0
    let room := 16 - copyHeld s s.curCore
    let s := ((ts.drop sent).take room).foldl (copyRecord gn) s
    if ts.length ≤ sent + room then out s else .wait 13 (setAwait (.answered 0 (sent + room) 0x100) s)

/-- The header of an instance's ring as a binding names it (R324). -/
def namesRing (q : Group × Inst) (o : DWord) : Bool :=
  o == BitVec.ofNat 64 (2 ^ 62 + q.1.lcore * 2 ^ 35 + q.2.ringa) ||
    (o.toNat % 2 ^ 35 == q.2.ringa && o.toNat / 2 ^ 35 % 2 ^ 27 == 2 ^ 27 - 1)

/-- The writes bound to the target of an `emit` that its issue found: none issued behind its request for credits (R320). -/
def emitWaits (s : State) (isRing : DWord → Bool) : List Nat := match s.curAwait with
  | .settling ids => ids
  | .answered id _ _ => (boundOps s isRing).filter fun k => decide (k < id)
  | _ => boundOps s isRing

/-- `emit` of records to an instance: the credits it lacks, the writes bound to the target, then the records. -/
def emitTo (q : Group × Inst) (node : Nat) (g : Guard) (d b : RegNo) (s : State) : Exec :=
  let ts := (emitLanes s g b).map (emitTuple s b)
  let held := match entryAt s q.1.gid with
    | some r => r.credits
    | none => 0
  if !ts.isEmpty && !resvRoom s q.1.gid then .trap 0x05 (BitVec.ofNat 64 node) s
  else if held < ts.length then askCredits 0x6B q.1.gid (ts.length - held) s
  else if !opsDone s (emitWaits s (namesRing q)) 5 then .wait 13 (setAwait (.settling (emitWaits s (namesRing q))) s)
  else if ts.isEmpty then .done (putAll s g d 0)
  else
    let i := issuerOf s 0x6B 0
    let (id, s) := newOp s i 4 0 0
    let s := s.updCurWave fun w => { w with resv := w.resv.map fun r =>
      if r.gid = q.1.gid then { r with credits := r.credits - ts.length } else r }
    match graphMsg s i q.1.gid 1 ts.length id with
    | ⟨op, .msg m⟩ => .done (putAll (send op { m with
        bytes := recordBytes ts, va := BitVec.ofNat 64 (2 ^ 62 + q.1.lcore * 2 ^ 35 + q.2.ringa) } s) g d ts.length)
    | _ => .done s

/-- `emit` and `emith` on a node. -/
def emitBody (pick : State → Nat → Nat → Except Exec (Option (Group × Inst))) (g : Guard) (d b : RegNo) (s : State)
    (gslot node : Nat) (n : NodeRec) : Exec :=
  if fixedKind n.kind then emitFixed n.kind (gslot * 4096 + node) g d b s
  else match s.curAwait with
    | .sent _ => .wait 13 s
    | .answered _ _ 0x1A => .done (putAll (recordLost node s) g d (Config.freeNat s.nonce))
    | _ => match pick s gslot node with
      | .error e => e
      | .ok none => .wait 13 s
      | .ok (some q) => emitTo q node g d b s

/-- `EMIT` (R320): the wave's entry for the node names the instance, else it is chosen as by `rsv`. -/
def execEmit (g : Guard) (d : RegNo) (a : RegNo) (b : RegNo) (s : State) : Host.Outcome State Fault Refusal :=
  graphForm (.emit g d a b) g a
    (emitBody (fun s gslot node => .ok (match (entryFor s node).bind fun r => instanceOf s r.gid with
      | some q => some q
      | none => chooseInst s gslot node)) g d b) s

/-- `EMITH` (R320): the instance is that of the core word in C. -/
def execEmith (g : Guard) (d : RegNo) (a : RegNo) (b : RegNo) (c : RegNo) (s : State) : Host.Outcome State Fault Refusal :=
  graphForm (.emith g d a b c) g a
    (emitBody (fun s gslot node =>
      let w := src s c.toNat (firstLane s g)
      match instAt s gslot node w with
      | none => .error (.trap 0x17 (w.setWidth 64) s)
      | some q => .ok (some q)) g d b) s

/-- `GDONE` (R320). -/
def execGdone (g : Guard) (a : RegNo) (s : State) : Host.Outcome State Fault Refusal :=
  graphForm (.gdone g a) g a (fun s gslot node _ =>
    let back (gid : Nat) : Nat := ((s.curWave.resv.filter fun r => r.gid == gid).map (·.credits)).sum
    let one (s : State) (q : Group × Inst) : State :=
      let i := issuerOf s 0x6B 0
      let (id, s) := newOp s i 4 0 0
      match graphMsg s i q.1.gid 3 (back q.1.gid) id with
      | ⟨op, .msg m⟩ => send op m s
      | _ => s
    .done (((instances s gslot node).foldl one s).updCurWave fun w => { w with resv := w.resv.filter fun r => r.node != node })) s

/-! `take` (R321, R322). -/

/-- The condition on which the oldest `take` of an instance returns: `k` records, threshold `t`. -/
def takeReady (s : State) (grp : Group) (n : Inst) (cur : Word) (k t : Nat) : Bool :=
  let old := match n.commits.find? fun q => q.1 == cur.toNat with
    | some q => decide (grp.coalt.toNat ≤ s.clkSince q.2)
    | none => false
  decide (t ≤ k) || (decide (1 ≤ k) && old) || grp.coalt == 0 || n.closed

/-- The records that `m` lanes take leave the ring. -/
def takeRecords (gid h m : Nat) (cur : Word) (s : State) : State :=
  let next := cur + BitVec.ofNat 32 m
  let s := refreshMinc h (setCursor h 0 next s)
  let taken := (List.range m).map fun j => (cur + BitVec.ofNat 32 j).toNat
  serveInst gid (updInst gid (fun n => { n with
    takers := n.takers.tail, commits := n.commits.filter fun q => !taken.contains q.1 }) s)

/-- Word `k` of what lane number `j` of a `take` receives. -/
def takenWord (s : State) (h size m : Nat) (cur : Word) (ended : Bool) (j k : Nat) : Word :=
  if j < m then word32 s (h + 64 + 4 * size + 16 * ((cur + BitVec.ofNat 32 j).toNat % size) + 4 * k)
  else if k = 3 then 0xFFFFFFFF
  else if k = 2 then BitVec.ofNat 32 ended.toNat
  else 0

/-- A record that `m` lanes take holds an uncorrectable word (R166). -/
def takenBad (s : State) (h size m : Nat) (cur : Word) : Bool :=
  !s.badLs.isEmpty && (List.range m).any fun j => lsBad s (h + 64 + 4 * size + 16 * ((cur + BitVec.ofNat 32 j).toNat % size)) 16

/-- A `take` of the issuing split on its group's instance. -/
def takeBody (g : Guard) (d : RegNo) (grp : Group) (n : Inst) (s : State) : Exec :=
  let me := s.cur.slot * 4 + s.cur.split
  let waits (q : Nat) : Bool := q == me || ((s.wave s.curCore (q / 4)).splits.getD (q % 4) {}).park == .waiting 13
  let line := (n.takers.filter waits) ++ (if n.takers.contains me then [] else [me])
  let s := updInst grp.gid (fun n => { n with takers := line }) s
  match partKey s grp n.ringa with
  | none => .wait 13 s
  | some h =>
    if isLsKey h && lsBad s h 64 then .seal s
    else
      let ls := active s g
      let cur := cursor s h 0
      let k := (word32 s (h + 12) - cur).toNat
      if line.head? != some me || !takeReady s grp n cur k (min n.thr ls.length) then .wait 13 s
      else
        let m := min k ls.length
        let size := 2 ^ n.log2n
        let w (l i : Nat) : Word := takenWord s h size m cur (n.closed && k == m) (ls.findIdx (· == l)) i
        if takenBad s h size m cur then .seal s
        else .done (putGroup (takeRecords grp.gid h m cur s) ls d.toNat 4 w)

/-- `TAKE` (R321). -/
def execTake (g : Guard) (d : RegNo) (s : State) : Host.Outcome State Fault Refusal :=
  issue (.take g d) (fun s =>
    match s.curGroup with
    | none => .trap 0x05 0 s
    | some grp => match grp.inst with
      | none => .trap 0x05 0 s
      | some n => takeBody g d grp n s) s

/-- A waiting split tries its instruction again. -/
def retrySplit (core slot p : Nat) (s : State) : State :=
  let sp := (s.wave core slot).splits.getD p {}
  if s.issuing core && mayIssue s core slot p then
    match wordAt sp.buf sp.pc.toNat with
    | some x => { s with cur := .wave core slot p, ir := x }
    | none => s
  else s

/-- `TAKE_COALT_EXPIRY`: core, node. The oldest `take` waiting on the node's instance tries again. -/
def execTakeCoaltExpiry (s : State) : Host.Outcome State Fault Refusal :=
  event (fun s => match s.nums with
    | [core, node] =>
      match (residents s core).find? fun g => match g.inst with
        | some n => n.node == node && !n.takers.isEmpty
        | none => false with
      | none => s
      | some g => match g.inst with
        | some n => retrySplit core (n.takers.headD 0 / 4) (n.takers.headD 0 % 4) s
        | none => s
    | _ => s) s

/-! Counters (R325, R326). -/

/-- The check of a counter's local address: that of `ld.w`, with an alignment of 32. -/
def counterTrap (s : State) (x : Word) : Option (Nat × DWord) :=
  if x.toNat % 32 ≠ 0 then some (0x06, x.setWidth 64)
  else if !accessOk s true x.toNat 4 then some (0x05, x.setWidth 64)
  else none

/-- A counter: CNT, ST and NODE. -/
def counterSt (s : State) (k : Nat) : Nat := s.peek (k + 8) 1 % 4
def counterNode (s : State) (k : Nat) : Nat := s.peek (k + 10) 2

/-- A counter is armed with its credit, once the credit is granted. -/
def armCounter (k count gid : Nat) (s : State) : State :=
  let s := logUndo (keyCore k) (keyOff k) 32 s
  let s := (s.poke k 8 (count + count * 2 ^ 32)).poke (k + 8) 1 (s.peek (k + 8) 1 / 4 * 4 + 1)
  s.updGroup s.curWave.gid fun g => { g with armed := (g.armed.filter fun a => a.1 != keyOff k) ++ [(keyOff k, gid)] }

/-- What `cnt.init` answers before it asks for a credit, or the instance it asks. -/
def initTarget (s : State) (k : Nat) (b : Word) : Except Nat (Group × Inst) :=
  if counterSt s k = 1 then .error 1
  else if b.toInt < 1 then .error 3
  else if s.cur.isClimber then .error 2
  else match s.curGroup.bind fun g => instOnCore s g (counterNode s k) with
    | none => .error 2
    | some q => .ok q

/-- `CNT_INIT` (R326). -/
def execCntInit (g : Guard) (d : RegNo) (a : RegNo) (b : RegNo) (s : State) : Host.Outcome State Fault Refusal :=
  issue (.cntInit g d a b) (fun s =>
    let x := leadA s g a
    let count := src s b.toNat (firstLane s g)
    let k := lsKey s.curCore x.toNat
    match counterTrap s x with
    | some (c, f) => .trap c f s
    | none =>
      if lsBad s k 32 then .seal s
      else match s.curAwait, initTarget s k count with
        | .sent _, _ => .wait 13 s
        | .answered _ gid 0, _ => .done (putAll (armCounter k count.toNat gid s) g d 0)
        | _, .error r => .done (putAll s g d r)
        | _, .ok q => askCredits 0x52 q.1.gid 1 s) s

/-- Decrements that lanes send, summed by counter: the lowest lane that names it, its key and offset, the sum. -/
def counterSums (ls : List Nat) (key : Nat → Nat) (amount : Nat → Word) : List (Nat × Word) :=
  let on := ls.filter fun l => amount l != 0
  let firsts := on.filter fun l => on.find? (fun j => key j == key l) == some l
  firsts.map fun l => (l, (on.filter fun j => key j == key l).foldl (fun t j => t + amount j) 0)

/-- A decrement sent to a counter (KIND 0x42). -/
def sendDecrement (va : Nat → DWord) (key : Nat → Nat) (slot : Nat → Nat) (s : State) (q : Nat × Word) : State :=
  let i := issuerOf s 0x52 q.1
  let (id, s) := newOp s i 1 0 0
  send .counterDecrement { src := i, tgt := key q.1, key := slot q.1, va := va q.1, arg := q.2.setWidth 128, id := id, group := s.nextId } s

/-- `CNT_DEC` (R326). -/
def execCntDec (g : Guard) (a : RegNo) (b : RegNo) (s : State) : Host.Outcome State Fault Refusal :=
  issue (.cntDec g a b) (fun s =>
    let ls := active s g
    let x (l : Nat) : Word := src s a.toNat l
    let key (l : Nat) : Nat := lsKey s.curCore (x l).toNat
    trapLanes s ls (fun l => counterTrap s (x l))
      (.done ((counterSums ls key (src s b.toNat)).foldl (sendDecrement (fun l => (x l).setWidth 64) key (fun _ => 0)) s))) s

/-- The check of a counter's pointer: that of `red`, of local store alone, with an alignment of 32. -/
def counterPointer (s : State) (p : DWord) : Option (Nat × DWord) :=
  match accessCause s 4 p with
  | some c => some (c, p)
  | none => if ptrKind p = 0 then some (0x17, p) else if p.toNat % 32 ≠ 0 then some (0x06, p) else none

/-- `CNT_RDEC` (R326). -/
def execCntRdec (g : Guard) (a : RegNo) (b : RegNo) (s : State) : Host.Outcome State Fault Refusal :=
  issue (.cntRdec g a b) (fun s =>
    let ls := active s g
    let p (l : Nat) : DWord := src64 s a.toNat l
    let at_ (l : Nat) : Nat × Nat := (lsTarget s s.curLid (p l)).getD (0, 0)
    trapLanes s ls (fun l => counterPointer s (p l))
      (.done ((counterSums ls (fun l => (at_ l).1) (src s b.toNat)).foldl
        (sendDecrement p (fun l => (at_ l).1) (fun l => (at_ l).2)) s))) s

/-- `CNT_RD` (R326). -/
def execCntRd (g : Guard) (d : RegNo) (a : RegNo) (s : State) : Host.Outcome State Fault Refusal :=
  issue (.cntRd g d a) (fun s =>
    let ls := active s g
    let x (l : Nat) : Word := src s a.toNat l
    trapLanes s ls (fun l => counterTrap s (x l))
      (if lanesBad s ls x 4 then .seal s
       else
         let v (l : Nat) : Word := BitVec.ofNat 32 (s.ls s.curCore (x l).toNat 4)
         .done (putLanes (lanesRepair s ls x 4) ls d.toNat v))) s

/-- A counter that fires: with the credit `cnt.init` took, or with one it asks for (R325). -/
def fireCounter (k off : Nat) (s : State) : State :=
  match counterGroup s k off with
  | none => s
  | some g =>
    match g.armed.find? fun a => a.1 == off with
    | some a =>
      commitCounter a.2 k (updAnyGroup g.gid (fun g => { g with armed := g.armed.filter fun b => b.1 != off }) s)
    | none => match instOnCore s g (counterNode s k) with
      | none => s
      | some q => creditRequest { src := deviceAt g.core 0xFFFF, tgt := lsKey q.1.core 0, group := q.1.gid, arg := 1, id := k } s

/-- A decrement applied at a counter. -/
def applyDecrement (m : Msg) (s : State) : State :=
  let cnt : Word := BitVec.ofNat 32 (s.peek m.tgt 4) - m.arg.setWidth 32
  let s := niSet m.tgt 4 cnt.toNat s
  let s := acked m s
  if counterSt s m.tgt = 1 && cnt.toInt ≤ 0 then
    fireCounter m.tgt (ptrLow m.va) (niSet (m.tgt + 8) 1 (s.peek (m.tgt + 8) 1 / 4 * 4 + 2) s)
  else s

/-- A decrement arriving at an NI. -/
def niDecrement (m : Msg) (s : State) : State :=
  if farOff s m then s.postAll [lostNotice s m]
  else match keyRefuses s m.tgt 32 with
    | some c => refuse m c 0 s
    | none => match imageFault s m with
      | some r => homeFail m r s
      | none => niTouch s m.tgt 32 (applyDecrement m)

end Sys2Proof.Machine
end

