-- ==== Sys2Proof/Machine/Matrix.lean ====
section
/-! DEFINITION. The matrix unit (R235-R257): banks and their allocation, the turn, the latches, `mma` with its mirror check,
and the moves between accumulators, local store and registers. -/

namespace Sys2Proof.Machine

/-! The format word (R238, R239). -/

def fwA (w : Word) : Nat := w.toNat % 16
def fwB (w : Word) : Nat := w.toNat / 16 % 16
def fwScaleA (w : Word) : Bool := w.getLsbD 8
def fwScaleB (w : Word) : Bool := w.getLsbD 9
def fwAcc (w : Word) : Nat := w.toNat / 2 ^ 10 % 4
def fwRound (w : Word) : RMode := RMode.ofCode (w.toNat / 2 ^ 12 % 4)
def fwSat (w : Word) : Bool := w.getLsbD 14

/-- A format with scales: e4m3, e5m2, e2m1. -/
def narrowCode (c : Nat) : Bool := decide (2 ≤ c) && decide (c ≤ 4)
def intCode (c : Nat) : Bool := c == 5 || c == 6

/-- The agreed word is valid. -/
def fwValid (w : Word) : Bool :=
  let a := fwA w
  let b := fwB w
  decide (w.toNat < 2 ^ 15) && decide (fwAcc w < 2) && decide (a < 7) && decide (b < 7) &&
    (a == b || (narrowCode a && narrowCode b) || (intCode a && intCode b)) &&
    (!fwScaleA w || narrowCode a) && (!fwScaleB w || narrowCode b) && ((fwAcc w == 1) == intCode a)

/-- The vote of R239: the trap, or nothing. -/
def voteTrap (s : State) (ls : List Nat) (a : RegNo) : Option (Nat × DWord) :=
  let w (l : Nat) : Word := src s a.toNat l
  let first := w (ls.headD 0)
  let differ := maskOf fun l => ls.contains l && w l != first
  if differ != 0 then some (0x08, differ.setWidth 64)
  else if !fwValid first then some (0x1B, first.setWidth 64)
  else none

/-! Banks (R240-R244). -/

/-- The physical bank that a register of the lowest active lane names, or the trap of R244. -/
def bankOf (s : State) (g : Guard) (b : RegNo) : Except (Nat × DWord) Nat :=
  let v := src s b.toNat (firstLane s g)
  let run := s.curWave.acc
  if run.2 = 0 || run.2 ≤ v.toNat || 16 ≤ v.toNat then .error (0x0B, v.setWidth 64) else .ok (run.1 + v.toNat)

/-- The key of an accumulator word. -/
def accKey (bank row col : Nat) : Nat := bank * 16384 + row * 256 + col * 4

def accWord (c : Core) (bank row col : Nat) : Word := BitVec.ofNat 32 (Memory.load c.acc (accKey bank row col) 4)

def setAccWord (bank row col : Nat) (v : Word) (c : Core) : Core :=
  { c with acc := Memory.store c.acc (accKey bank row col) 4 v.toNat }

/-- An accepted `mma` of the current core still has to write a bank (R253). -/
def bankBusy (s : State) (bank : Nat) : Bool := (s.core s.curCore).mma.any fun m => m.bank == bank

/-- A form on a bank: its physical number, once no `mma` is behind it. -/
def bankForm (g : Guard) (b : RegNo) (s : State) (body : Nat → Exec) : Exec :=
  match bankOf s g b with
  | .error (c, f) => .trap c f s
  | .ok bank => if bankBusy s bank then .wait 2 s else body bank

/-- `MXAL` (R242). A second split of a wave that already waits for banks waits until the wave holds them (log 67). -/
def execMxal (g : Guard) (a : RegNo) (s : State) : Host.Outcome State Fault Refusal :=
  issue (.mxal g a) (fun s =>
    let n := src s a.toNat (firstLane s g)
    match s.curAwait with
    | .none =>
      if s.curWave.acc.2 ≠ 0 then .trap 0x0A 0 s
      else if (s.core s.curCore).accWait.any fun q => q.1 == s.cur.slot then .wait 12 s
      else if (s.core s.curCore).turn = some s.cur.slot then .trap 0x0A (n.setWidth 64) s
      else if n = 0 || 16 < n.toNat then .trap 0x0B (n.setWidth 64) s
      else .wait 12 (setAwait (.sent s.nextId) ((s.updCore s.curCore fun c =>
        { c with accWait := c.accWait ++ [(s.cur.slot, n.toNat)] }).freshId))
    | _ => if (s.core s.curCore).accWait.any fun q => q.1 == s.cur.slot then .wait 12 s else .done s) s

/-- Banks of a core in some wave's run, or in that of an ended group (R243). -/
def heldBanks (s : State) (core : Nat) : List Nat :=
  ((((List.range 16).map fun w => (s.wave core w).acc) ++ (s.core core).freeing).map fun r =>
    (List.range r.2).map (r.1 + ·)).flatten

/-- The lowest run of `n` free banks. -/
def freeRun (s : State) (core n : Nat) : Option Nat :=
  (List.range 16).find? fun b => decide (b + n ≤ 16) && (List.range n).all fun k => !(heldBanks s core).contains (b + k)

/-- `ACC_GRANT`: core. The head request receives its run, zeroed (R241, R242, R315). -/
def execAccGrant (s : State) : Host.Outcome State Fault Refusal :=
  event (fun s => match s.nums with
    | [core] => match (s.core core).accWait with
      | [] => s
      | (slot, n) :: rest => match freeRun s core n with
        | none => s
        | some b =>
          (s.updCore core fun c => { c with
            accWait := rest
            acc := c.acc.filter fun (x : Host.Cell) => decide (x.1 < b * 16384) || decide ((b + n) * 16384 ≤ x.1) }).updWave
            core slot fun w => { w with acc := (b, n) }
    | _ => s) s

/-- `MXFR` (R243). -/
def execMxfr (g : Guard) (s : State) : Host.Outcome State Fault Refusal :=
  issue (.mxfr g) (fun s =>
    if (s.core s.curCore).mma.any fun m => m.slot == s.cur.slot then .wait 2 s
    else .done (s.updCurWave fun w => { w with acc := (0, 0) })) s

/-! The turn (R245, R246). -/

/-- A form that needs the turn: it is asked for, and the form goes on when its wave holds it. -/
def withTurn (s : State) (body : Exec) : Exec :=
  if (s.core s.curCore).turn = some s.cur.slot then body
  else .wait 12 (s.updCore s.curCore fun c =>
    { c with turnWait := if c.turnWait.contains s.cur.slot then c.turnWait else c.turnWait ++ [s.cur.slot] })

/-- `TURN_TAKE` (R246). -/
def execTurnTake (g : Guard) (s : State) : Host.Outcome State Fault Refusal :=
  issue (.turnTake g) (fun s => withTurn s (.done s)) s

/-- `TURN_GIVE` (R246). -/
def execTurnGive (g : Guard) (s : State) : Host.Outcome State Fault Refusal :=
  issue (.turnGive g) (fun s =>
    .done (s.updCore s.curCore fun c => { c with turn := c.turn.filter (· != s.cur.slot) })) s

/-- `TURN_WHO` (R246). -/
def execTurnWho (g : Guard) (d : RegNo) (s : State) : Host.Outcome State Fault Refusal :=
  issue (.turnWho g d) (fun s =>
    let v : Nat := match (s.core s.curCore).turn with
      | some w => if (s.wave s.curCore w).gid = s.curWave.gid then (s.wave s.curCore w).index else 0xFFFFFFFF
      | none => 0xFFFFFFFF
    .done (putAll s g d v)) s

/-- Steps from a wave index to another in cyclic order, 1 to `n`. -/
def cyclicAfter (n last i : Nat) : Nat := (i + n - last % n + n - 1) % n + 1

/-- The waiting wave that is granted a free turn, the oldest group's first (R245, R315). Before any holder the order starts after
wave 0, which the spec leaves open (log 75). -/
def nextTurn (s : State) (core : Nat) : Option Nat :=
  match (s.core core).turnWait with
  | [] => none
  | w :: ws => match s.groupOf core w with
    | none => some w
    | some g =>
      let rank (v : Nat) : Nat := cyclicAfter (max g.waves 1) g.lastTurn (s.wave core v).index
      some ((ws.filter fun v => (s.wave core v).gid == g.gid).foldl (fun b v => if rank v < rank b then v else b) w)

/-- `TURN_GRANT`: core (R245). -/
def execTurnGrant (s : State) : Host.Outcome State Fault Refusal :=
  event (fun s => match s.nums with
    | [core] => match (s.core core).turn, nextTurn s core with
      | none, some w =>
        (s.updCore core fun c => { c with turn := some w, turnWait := c.turnWait.filter (· != w) }).updGroup
          (s.wave core w).gid fun g => { g with lastTurn := (s.wave core w).index }
      | _, _ => s
    | _ => s) s

/-! The latches (R236, R247-R250). -/

/-- The key of a byte of latch `x`: operand latches 0-3, scale latches 4-7. -/
def latchKey (x row byte : Nat) : Nat := if x < 4 then x * 4096 + row * 64 + byte else 16384 + (x - 4) * 256 + row * 4 + byte

def latchRow (c : Core) (x row : Nat) : Nat := Memory.load c.latches (latchKey x row 0) (if x < 4 then 64 else 4)

def setLatchRow (x row v : Nat) (c : Core) : Core :=
  { c with latches := Memory.store c.latches (latchKey x row 0) (if x < 4 then 64 else 4) v }

/-- An accepted `mma` reads latch `x`. -/
def latchBusy (s : State) (x : Nat) : Bool :=
  (s.core s.curCore).mma.any fun m =>
    x == m.x || x == 2 + m.y || (x == 4 + m.x && fwScaleA m.fw) || (x == 6 + m.y && fwScaleB m.fw)

/-- Rows (number, address, bytes) checked in two steps under R172 and R247; no lease window is open to the port. -/
def rowsTrap (s : State) (align : Nat) (store : Bool) (rows : List (Nat × Word)) (n : Nat) : Option (Nat × DWord) :=
  let ok (a : Nat) : Bool := decide (a + n ≤ Config.lsData) && accessOk s false a n
  match rows.find? fun r => r.2.toNat % align != 0 with
  | some r => some (0x06, r.2.setWidth 64)
  | none => match rows.find? fun r => !ok r.2.toNat with
    | some r => some (0x05, r.2.setWidth 64)
    | none => if store then (rows.find? fun r => constWrite s r.2.toNat n).map fun r => (0x07, r.2.setWidth 64) else none

/-- A load of latch `x` from checked rows: `fill` makes the row contents from what was read. -/
def loadLatch (s : State) (x n : Nat) (rows : List (Nat × Word)) (fill : (Nat → Nat) → Nat → Nat) : Exec :=
  withTurn s
    (if latchBusy s x then .wait 2 s
     else
      let k (r : Nat × Word) : Nat := lsKey s.curCore r.2.toNat
      if rows.any fun r => lsBad s (k r) n then .seal s
      else
        let s := rows.foldl (fun s r => lsRepair s (k r) n) s
        let v (i : Nat) : Nat := match rows.find? fun r => r.1 == i with
          | some r => s.ls s.curCore r.2.toNat n
          | none => 0
        let f := fill v
        .done (s.updCore s.curCore fun c => (List.range 64).foldl (fun c i => setLatchRow x i (f i) c) c))

/-- Rows owned by active lanes (R236). -/
def activeRows (s : State) (g : Guard) : List Nat := (List.range 64).filter fun i => (activeMask s g).getLsbD (i % 32)

/-- The B row of a transposed load: element k is element (k, j) of the source. -/
def transposed (e : Nat) (v : Nat → Nat) (j : Nat) : Nat :=
  (List.range (64 / e)).foldl (fun acc k => acc + bitsAt (v k) (8 * e * j) (8 * e) * 2 ^ (8 * e * k)) 0

/-- `MXL` (R249). -/
def execMxl (g : Guard) (latch : BitVec 3) (transp : Bool) (esz : BitVec 2) (a : RegNo) (b : RegNo) (s : State) :
    Host.Outcome State Fault Refusal :=
  issue (.mxl g latch transp esz a b) (fun s =>
    let base := src s a.toNat (firstLane s g)
    let x := latch.toNat
    let on (i : Nat) : Bool := (activeMask s g).getLsbD (i % 32)
    if 4 ≤ x then
      let rows := (activeRows s g).map fun i => (i, base + BitVec.ofNat 32 (4 * i))
      if base.toNat % 32 ≠ 0 then .trap 0x06 (base.setWidth 64) s
      else match rowsTrap s 1 false rows 4 with
        | some (c, f) => .trap c f s
        | none => loadLatch s x 4 rows fun v i => v i
    else
      let stride := src s b.toNat (firstLane s g)
      let at_ (i : Nat) : Word := base + BitVec.ofNat 32 i * stride
      if stride.toNat % 32 ≠ 0 then .trap 0x06 (stride.setWidth 64) s
      else if transp then
        let e := if esz = 0 then 1 else 2
        let rows := (List.range (64 / e)).map fun k => (k, at_ k)
        match rowsTrap s 32 false rows (64 * e) with
        | some (c, f) => .trap c f s
        | none => loadLatch s x (64 * e) rows fun v j => if on j then transposed e v j else 0
      else
        let rows := (activeRows s g).map fun i => (i, at_ i)
        match rowsTrap s 32 false rows 64 with
        | some (c, f) => .trap c f s
        | none => loadLatch s x 64 rows fun v i => v i) s

/-- The rows that lanes name in two registers: lane l gives rows l and l + 32, lane by lane. -/
def laneRows (s : State) (g : Guard) (a b : Nat) : List (Nat × Word) :=
  (active s g).flatMap fun l => [(l, src s a l), (l + 32, src s b l)]

/-- `MXG` (R250). -/
def execMxg (g : Guard) (latch : BitVec 1) (a : RegNo) (b : RegNo) (s : State) : Host.Outcome State Fault Refusal :=
  issue (.mxg g latch a b) (fun s =>
    let rows := laneRows s g a.toNat b.toNat
    match rowsTrap s 32 false rows 64 with
    | some (c, f) => .trap c f s
    | none => loadLatch s latch.toNat 64 rows fun v i => v i) s

/-! `mma` (R251-R254). -/

/-- ILLEGAL_CONVERGENCE of a form without `.zi`. -/
def convergenceTrap (s : State) (g : Guard) (zi : Bool) : Option DWord :=
  let m := activeMask s g
  if zi || m == s.curWave.launchMask then none else some ((s.curWave.launchMask ^^^ m).setWidth 64)

/-- `MMA` (R252): checked, given the turn and accepted. -/
def execMma (g : Guard) (x : Bool) (y : Bool) (z : Bool) (zi : Bool) (half : Bool) (nc : Bool) (a : RegNo) (b : RegNo)
    (s : State) : Host.Outcome State Fault Refusal :=
  issue (.mma g x y z zi half nc a b) (fun s =>
    match convergenceTrap s g zi with
    | some f => .trap 0x09 f s
    | none => match voteTrap s (active s g) a with
      | some (c, f) => .trap c f s
      | none => match bankOf s g b with
        | .error (c, f) => .trap c f s
        | .ok bank =>
          withTurn s
            (if 2 ≤ (s.core s.curCore).mma.length then .wait 2 s
             else .done (s.updCore s.curCore fun c => { c with mma := c.mma ++
               [⟨s.cur.slot, src s a.toNat (firstLane s g), bank, bank - s.curWave.acc.1, x.toNat, y.toNat, z, zi, half, nc,
                 activeMask s g, s.curPc⟩] }))) s

/-- Bits of an element of a format code. -/
def codeBits (c : Nat) : Nat := if c < 2 then 16 else if c = 4 then 4 else 8

/-- Elements along K (R235). -/
def sharedK (w : Word) : Nat :=
  let a := codeBits (fwA w)
  let b := codeBits (fwB w)
  if a = 16 then 32 else if a = 4 && b = 4 then 128 else 64

/-- The float value of an element code. -/
def codeVal (c v : Nat) : FVal :=
  match c with
  | 0 => FFmt.bf16.val v
  | 1 => FFmt.f16.val v
  | 2 => FFmt.e4m3.val v
  | 3 => FFmt.e5m2.val v
  | _ => FFmt.e2m1.val v

/-- The integer value of an element code. -/
def codeInt (c v : Nat) : Int := if c = 5 then signedOf 8 v else v

/-- A value times the E8M0 scale `e`. -/
def scaledBy (e : Nat) (v : FVal) : FVal :=
  if e = 255 then .nan
  else match v with
    | .fin n m x => .fin n m (x + (e : Int) - 127)
    | w => w

/-- One group of 32 products (R60). -/
def groupSum (fw : Word) (ra rb sa sb g : Nat) : FVal :=
  let ea := codeBits (fwA fw)
  let eb := codeBits (fwB fw)
  let p (k : Nat) : FVal := ((codeVal (fwA fw) (bitsAt ra (ea * k) ea)).mul (codeVal (fwB fw) (bitsAt rb (eb * k) eb))).val
  let sum := (FVal.sum .rn ((List.range 32).map fun i => p (32 * g + i))).val
  let sum := if fwScaleA fw then scaledBy (bitsAt sa (8 * g) 8) sum else sum
  if fwScaleB fw then scaledBy (bitsAt sb (8 * g) 8) sum else sum

/-- An element of a float `mma` (R60). -/
def mmaFloat (fw : Word) (ra rb sa sb acc : Nat) : Nat :=
  (List.range (sharedK fw / 32)).foldl (fun acc g =>
    FFmt.f32.add acc (FFmt.f32.finish .rn ⟨groupSum fw ra rb sa sb g, false⟩).1) acc

/-- An element of an integer `mma` (R61). -/
def mmaInt (fw : Word) (ra rb acc : Nat) : Nat :=
  let p (k : Nat) : Int := codeInt (fwA fw) (bitsAt ra (8 * k) 8) * codeInt (fwB fw) (bitsAt rb (8 * k) 8)
  (((List.range 64).foldl (fun t k => t + p k) (acc : Int)) % 2 ^ 32).toNat

/-- The new word of an element. -/
def mmaWord (c : Core) (m : Mma) (i j : Nat) : Word :=
  let old := if m.z then 0 else (accWord c m.bank i j).toNat
  let ra := latchRow c m.x i
  let rb := latchRow c (2 + m.y) j
  BitVec.ofNat 32
    (if fwAcc m.fw = 1 then mmaInt m.fw ra rb old
     else mmaFloat m.fw ra rb (latchRow c (4 + m.x) i) (latchRow c (6 + m.y) j) old)

/-- The elements an `mma` writes. -/
def mmaElems (m : Mma) : List (Nat × Nat) :=
  ((List.range (if m.half then 32 else 64)).filter fun i => !m.zi || m.mask.getLsbD (i % 32)).flatMap fun i =>
    (List.range 64).map fun j => (i, j)

/-- The results written; a struck array without a mirror check gives any words (R254, log 5). -/
def mmaWrite (m : Mma) (struck : Bool) (s : State) (core : Nat) : State :=
  let c := s.core core
  let word (e : Nat × Nat) : Word :=
    if struck then Config.freeWord (s.nonce + 2 ^ 64 * (1 + e.1 * 64 + e.2)) else mmaWord c m e.1 e.2
  s.setCore core ((mmaElems m).foldl (fun d e => setAccWord m.bank e.1 e.2 (word e) d) c)

/-- A deferred matrix record (R342). -/
def dmrBits (m : Mma) : Nat := 2 ^ 63 + m.index % 16 * 2 ^ 32 + m.pc.toNat % 2 ^ 22

/-- Runs of ended groups with no accepted `mma` left are free (R243). -/
def freeRuns (c : Core) : Core :=
  { c with freeing := c.freeing.filter fun r => c.mma.any fun m => m.slot == 16 && decide (r.1 ≤ m.bank) && decide (m.bank < r.1 + r.2) }

/-- The second mismatch of an `mma`: the later ones of its wave are discarded and its deferred matrix record set (R254). -/
def mmaFails (core : Nat) (m : Mma) (s : State) : State :=
  if m.slot = 16 then s
  else (s.updCore core fun c => { c with mma := c.mma.filter fun n => n.slot != m.slot }).setDmr core m.slot (dmrBits m)

/-- `MMA_EXECUTION`: core (R253, R254). A soft error in the array makes the two halves differ: a correctable one once, an
uncorrectable one twice. -/
def execMmaExecution (s : State) : Host.Outcome State Fault Refusal :=
  event (fun s => match s.nums with
    | [core] => match (s.core core).mma with
      | [] => s
      | m :: rest =>
        let bad := Sparse.get 0 s.badArray core
        let s := s.updCore core fun c => { c with mma := rest }
        let fix (s : State) : State := { s with badArray := if bad = 1 then Sparse.set 0 s.badArray core 0 else s.badArray }
        let s :=
          if !m.half || m.nc then mmaWrite m (bad != 0) (fix s) core
          else if bad = 2 then mmaFails core m s
          else mmaWrite m false (fix (if bad = 1 && (s.core core).mchk.toNat % 2 ^ 16 != 2 ^ 16 - 1 then
            s.updCore core fun c => { c with mchk := c.mchk + 1 } else s)) core
        s.updCore core freeRuns
    | _ => s) s

/-! Reading and writing accumulators (R255, R256). -/

/-- Bytes of an element of an `mxs` type. -/
def mxsBytes (ty : Nat) : Nat := if ty = 1 || ty = 2 then 2 else if ty = 3 || ty = 5 then 1 else 4

/-- An element stored by `mxs`, with its flags. -/
def mxsElem (fw : Word) (ty : Nat) (w : Word) : Nat × Flags :=
  let v := f32 w
  let i := w.toInt
  if fwAcc fw = 0 then
    match ty with
    | 0 => (w.toNat, 0)
    | 1 => FFmt.f16.convert v
    | 2 => FFmt.bf16.convert v
    | 3 => FFmt.e4m3.convert v
    | 4 => let r := v.clampInt (fwRound fw) (-2 ^ 31) (2 ^ 31 - 1); ((r.1 % 2 ^ 32).toNat, r.2)
    | _ => let r := v.clampInt (fwRound fw) (-128) 127; ((r.1 % 256).toNat, r.2)
  else
    match ty with
    | 0 => f32OfInt i
    | 4 => (w.toNat, 0)
    | _ =>
      if fwSat fw then
        (let r := max (-128) (min i 127); ((r % 256).toNat, Flags.on (r != i) .sat))
      else (w.toNat % 256, 0)

/-- The bank words that rows of `n` bytes write: address and 32 bytes. -/
def rowWords (n : Nat) (rows : List (Nat × Word)) (row : Nat → Nat) : List (Nat × Nat) :=
  rows.flatMap fun r => (List.range (n / 32)).map fun k => (r.2.toNat + 32 * k, row r.1 / 2 ^ (256 * k) % 2 ^ 256)

/-- Rows stored, each bank word whole (R247); of several rows that write one bank word, one stays, the spec does not say
which (log 66). -/
def storeRows (s : State) (n : Nat) (rows : List (Nat × Word)) (row : Nat → Nat) : State :=
  let ws := rowWords n rows row
  ((ws.map (·.1)).eraseDups).foldl (fun t a =>
    let c := ws.filter fun w => w.1 == a
    let v := c.getD (Config.freeNat (s.nonce + 2 ^ 64 * a) % c.length) (a, 0)
    fillLs t s.curCore a 32 v.2) s

/-- `MXS` (R255). -/
def execMxs (g : Guard) (ty : BitVec 3) (a : RegNo) (b : RegNo) (c : RegNo) (s : State) : Host.Outcome State Fault Refusal :=
  issue (.mxs g ty a b c) (fun s =>
    let fw := src s a.toNat (firstLane s g)
    match voteTrap s (active s g) a with
    | some (k, f) => .trap k f s
    | none =>
      if fwAcc fw = 1 && 1 ≤ ty.toNat && ty.toNat ≤ 3 then .trap 0x1B (fw.setWidth 64) s
      else match bankOf s g b with
        | .error (k, f) => .trap k f s
        | .ok bank =>
          let rows := laneRows s g c.toNat (c.toNat + 1)
          let n := mxsBytes ty.toNat
          match rowsTrap s 32 true rows (64 * n) with
          | some (k, f) => .trap k f s
          | none =>
            if bankBusy s bank then .wait 2 s
            else
              let core := s.core s.curCore
              let elems (i : Nat) : List (Nat × Flags) := (List.range 64).map fun j => mxsElem fw ty.toNat (accWord core bank i j)
              let row (i : Nat) : Nat := (elems i).foldr (fun e acc => e.1 + 2 ^ (8 * n) * acc) 0
              .done (raise (storeRows s (64 * n) rows row) (Flags.all (rows.flatMap fun r => (elems r.1).map (·.2))))) s

/-- The column block of `mxr` and `mxw`, or the trap. -/
def columnBlock (s : State) (g : Guard) (c : RegNo) : Except (Nat × DWord) Nat :=
  let q := src s c.toNat (firstLane s g)
  if 16 ≤ q.toNat then .error (0x0B, q.setWidth 64) else .ok q.toNat

/-- Row and column of element `k` of a lane's group of eight. -/
def octet (q l k : Nat) : Nat × Nat := (l + k / 4 * 32, 4 * q + k % 4)

/-- `MXR` (R256). -/
def execMxr (g : Guard) (d : RegNo) (b : RegNo) (c : RegNo) (s : State) : Host.Outcome State Fault Refusal :=
  issue (.mxr g d b c) (fun s =>
    match bankOf s g b with
    | .error (k, f) => .trap k f s
    | .ok _ => match columnBlock s g c with
      | .error (k, f) => .trap k f s
      | .ok q => bankForm g b s fun bank =>
          .done (putGroup s (active s g) d.toNat 8 fun l k =>
            accWord (s.core s.curCore) bank (octet q l k).1 (octet q l k).2)) s

/-- `MXW` (R256). -/
def execMxw (g : Guard) (a : RegNo) (b : RegNo) (c : RegNo) (s : State) : Host.Outcome State Fault Refusal :=
  issue (.mxw g a b c) (fun s =>
    match bankOf s g b with
    | .error (k, f) => .trap k f s
    | .ok _ => match columnBlock s g c with
      | .error (k, f) => .trap k f s
      | .ok q => bankForm g b s fun bank =>
          let put (core : Core) : Core := (active s g).foldl (fun core l => (List.range 8).foldl (fun core k =>
            setAccWord bank (octet q l k).1 (octet q l k).2 (src s (a.toNat + k) l) core) core) core
          .done (s.updCore s.curCore put)) s

/-- `MXZ` (R256). -/
def execMxz (g : Guard) (b : RegNo) (s : State) : Host.Outcome State Fault Refusal :=
  issue (.mxz g b) (fun s =>
    bankForm g b s fun bank =>
      let put (core : Core) : Core := (activeRows s g).foldl (fun core i => (List.range 64).foldl (fun core j =>
        setAccWord bank i j 0 core) core) core
      .done (s.updCore s.curCore put)) s

end Sys2Proof.Machine
end

