-- ==== Sys2Proof/Machine/Rays.lean ====
section
/-! DEFINITION. Rays and their anchors: placing and spilling rays (R148-R150, R292), `climb` (R285), and the anchor records
that hits are gathered at (R284, R294-R297). -/

namespace Sys2Proof.Machine

/-! Climber slots and the spill rings (R150). -/

/-- Climber slots of a core that are not free. -/
def usedSlots (s : State) (core : Nat) : List Nat := (List.range 256).filter fun k => s.cst core k != 0

/-- Slots a launch holds on a core, and the CSLOT of its groups there. -/
def slotsHeld (s : State) (core lid : Nat) : Nat := ((usedSlots s core).filter fun k => s.clid core k == lid).length
def slotsKept (s : State) (core lid : Nat) : Nat := (((residents s core).filter fun g => g.lid == lid).map (·.cslot)).sum

/-- Slots of the shared pool that are taken. -/
def sharedTaken (s : State) (core : Nat) : Nat :=
  let lids := ((usedSlots s core).map fun k => s.clid core k).eraseDups
  (lids.map fun l => slotsHeld s core l - slotsKept s core l).sum

def sharedSlots (s : State) (core : Nat) : Nat := 256 - ((residents s core).map (·.cslot)).sum

/-- The slot a ray of a launch takes: the lowest free one, if it may take one. -/
def raySlot (s : State) (core lid : Nat) : Option Nat :=
  if slotsHeld s core lid < slotsKept s core lid || sharedTaken s core < sharedSlots s core then
    (List.range 256).find? fun k => s.cst core k == 0
  else none

/-- The payload of a ray put in a slot, placed (R274, R275). -/
def fillSlot (core slot lid payload : Nat) (s : State) : State :=
  let s := s.setLs core (climberBase slot) 112 payload
  let s := s.setLs core (climberBase slot + 112) 16 (1 + lid * 256)
  ({ s with climbers := Sparse.set {} s.climbers (climberKey core slot) {} }).updCore core fun c =>
    { c with placedQ := c.placedQ ++ [slot] }

/-- Local address of entry `i` of the LS spill ring, from its oldest. -/
def spillAddr (c : Core) (i : Nat) : Nat := 0x2F8000 + (c.spillHead + i) % 192 * 128

/-- DPA of entry `i` of the HBM spill area, from its oldest. -/
def hbmAddr (c : Core) (i : Nat) : Nat := c.spillBase + (c.hbmHead + i) % (max 1 (c.spillBytes / 128)) * 128

/-- A ray that finds no slot goes to the LS spill ring or, behind others or with the ring full, to the HBM spill area. -/
def spillRay (core lid payload : Nat) (s : State) : State :=
  let c := s.core core
  if c.hbmSpill.isEmpty && c.spill.length < 192 then
    (s.setLs core (spillAddr c c.spill.length) 128 payload).updCore core fun c => { c with spill := c.spill ++ [lid] }
  else
    (s.updCore core fun c => { c with hbmSpill := c.hbmSpill ++ [lid] }).post .raySpillWrite (.msg
      { src := deviceAt core 0xFFFF, tgt := hbmAddr c c.hbmSpill.length, bytes := cellsOf (hbmAddr c c.hbmSpill.length) 128 payload })

/-- A ray arriving at a core: always accepted (R150, R315). -/
def placeRay (core lid payload : Nat) (s : State) : State :=
  let c := s.core core
  if c.spill.contains lid || c.hbmSpill.contains lid then spillRay core lid payload s
  else match raySlot s core lid with
    | some k => fillSlot core k lid payload s
    | none => spillRay core lid payload s

/-- Entries of the ring behind a removed one move up by one. -/
def closeGap (core i : Nat) : Nat → State → State
  | 0, s => s
  | n + 1, s =>
    let c := s.core core
    closeGap core (i + 1) n (s.setLs core (spillAddr c i) 128 (s.ls core (spillAddr c (i + 1)) 128))

/-- The oldest ray of the ring that may take a free slot takes it. -/
def unspill (core : Nat) (s : State) : State :=
  let c := s.core core
  match (List.range c.spill.length).find? fun i => (raySlot s core (c.spill.getD i 0)).isSome with
  | none => s
  | some i =>
    let lid := c.spill.getD i 0
    match raySlot s core lid with
    | none => s
    | some k =>
      let s := fillSlot core k lid (s.ls core (spillAddr c i) 112) s
      let s := if i = 0 then s.updCore core fun c => { c with spillHead := (c.spillHead + 1) % 192 }
        else closeGap core i (c.spill.length - 1 - i) s
      s.updCore core fun c => { c with spill := c.spill.eraseIdx i }

/-- `CLIMBER_SLOT_FREE`: core. -/
def execClimberSlotFree (s : State) : Host.Outcome State Fault Refusal :=
  event (fun s => match s.nums with
    | [core] => unspill core s
    | _ => s) s

/-- `RAY_SPILL_WRITE` (KIND 0x50): 128 bytes of the HBM spill area. -/
def execRaySpillWrite (s : State) : Host.Outcome State Fault Refusal :=
  onMsg (fun m s => (homeWrite s (lineOf m.tgt) 0 (pointOf s m.tgt 0) m.bytes .device 0).getD s) s

/-- The oldest ray of the HBM spill area may come back: its write is done and the ring has room. -/
def mayReload (s : State) (core : Nat) : Bool :=
  let c := s.core core
  !c.hbmSpill.isEmpty && decide (c.spill.length < 192) && !s.agenda.any fun t => match t.op, t.arg with
    | .raySpillWrite, .msg m => m.tgt == hbmAddr c 0
    | _, _ => false

/-- `RAY_SPILL_RELOAD` (KIND 0x51): core. A ray whose line is poisoned, or cannot be reached, is lost: its launch's fault count rises
(R67, log 89). -/
def execRaySpillReload (s : State) : Host.Outcome State Fault Refusal :=
  event (fun s => match s.nums with
    | [core] =>
      if mayReload s core then
        let c := s.core core
        let s := touch (lineOf (hbmAddr c 0)) 0 (pointOf s (hbmAddr c 0) 0) s
        let next (s : State) : State := s.updCore core fun c =>
          { c with hbmSpill := c.hbmSpill.tail, hbmHead := (c.hbmHead + 1) % (max 1 (c.spillBytes / 128)) }
        if (readFault s (hbmAddr c 0) 0).isSome then countFault (next s) (c.hbmSpill.headD 0)
        else next ((s.setLs core (spillAddr c c.spill.length) 128 (s.devRead (hbmAddr c 0) 128 0)).updCore core fun c =>
          { c with spill := c.spill ++ c.hbmSpill.take 1 })
      else s
    | _ => s) s

/-- A ray message of a launch to a logical core of its frame, at the physical core that holds it now (R144, R289). -/
def rayMsg (s : State) (src : Issuer) (lid lcore payload : Nat) (anch : DWord) : Task :=
  ⟨.ray, .msg { src := src, tgt := lsKey ((s.frameOf lid lcore).getD src.core) 0x2F0000, id := lid, point := lcore
                bytes := cellsOf 0 112 payload, anch := anch }⟩

/-! Images of saved groups (R344, R345). -/

/-- Watches on a partition follow it (R345). -/
def moveWatches (f : Nat → Option (Nat × Nat × Nat)) (s : State) : State :=
  { s with watches := s.watches.map fun (w : Watch) => match f w.key with
    | some (k, slot, p) => { w with key := k, slot := slot, point := p }
    | none => w }

/-- The offset of a word of a saved group's partition that a key of its image holds. -/
def imageOffset (s : State) (v : Saved) (k : Nat) : Option Nat :=
  if isLsKey k then none
  else ((List.range (v.group.pl / 4)).find? fun i => (imageAt s v (v.group.pb + 4 * i)).map (·.1) == some k).map fun i => v.group.pb + 4 * i

/-- A task acts on a line of the partition of a saved group's image. -/
def towardsImage (s : State) (v : Saved) (t : Task) : Bool :=
  let lines := (vaLines s v.ctx (v.va + (v.bytes - v.group.pl)) v.group.pl).map (·.1)
  match t.arg with
  | .msg m => decide (m.tgt < 2 ^ 56) && lines.contains (lineOf m.tgt)
  | _ => false

/-- Every line of a VA range can be written: the first failure. -/
def lineTrouble (hall ctx : Nat) : Nat → State → Nat → State × Option Nat
  | 0, s, _ => (s, none)
  | n + 1, s, va =>
    match translate s hall ctx va needWrite with
    | (s, .error r) => (s, some r)
    | (s, .ok t) => match lineFault s t.dpa (pteKey t.pte) with
      | some r => (s, some r)
      | none => lineTrouble hall ctx n s (va + 128)

/-- The image of a saved group can take one more climber entry: the 128 bytes behind it can be written, are no other image's, and
nothing is on its way to it. -/
def imageGrows (s : State) (v : Saved) : Bool :=
  let end_ := v.va + v.bytes
  vaFree s v.ctx v.va (v.bytes + 128) && (lineTrouble (hallOf v.group.core) v.ctx 1 s end_).2.isNone &&
    (!v.own || decide (end_ + 128 ≤ s.imageBase + s.imageBytes)) &&
    !(s.saved.any fun w => w.gid != v.gid && w.ctx == v.ctx && decide (w.va < end_ + 128) && decide (end_ < w.va + w.bytes)) &&
    !s.inTransit.any (towardsImage s v)

/-- A ray appended to the climber section of an image (R345): the partition moves up by one entry, NCLM and LEN grow. -/
def appendRay (v : Saved) (payload : Nat) (s : State) : State :=
  let hall := hallOf v.group.core
  let part := v.va + (v.bytes - v.group.pl)
  match readVaGo hall v.ctx needRead (v.group.pl / 128 + 2) s part v.group.pl with
  | (s, .error _) => countFault s v.group.lid
  | (s, .ok old) =>
    let put (s : State) (a n x : Nat) : State := (writeVa s hall v.ctx a n x).1
    let w : Saved := { v with nclm := v.nclm + 1, bytes := v.bytes + 128 }
    let s := put (put s part 128 (payload % 2 ^ 896)) (part + 128) v.group.pl old
    let s := put (put s (v.va + 1) 3 (w.bytes / 128)) (v.va + 52) 4 w.nclm
    let s := moveWatches (fun k => (imageOffset s v k).bind fun off =>
      (imageAt s w off).map fun (q : Nat × Nat) => (q.1, q.2, pointOf s q.1 0)) s
    { s with saved := s.saved.map fun (x : Saved) => if x.gid = v.gid then w else x }

/-- A ray for a saved group waits until its image can grow (log 90). -/
def rayWaits (s : State) (m : Msg) : Bool := match savedAt s m.id m.point with
  | some v => !imageGrows s v
  | none => false

/-- `RAY` (R150, R151, R345): placed on its core, appended to a saved group's image, or given to the supervisor. -/
def execRay (s : State) : Host.Outcome State Fault Refusal :=
  onMsg (fun m s =>
    let payload := bytesToNat (m.bytes.map (·.2))
    let core := (s.frameOf m.id m.point).getD (keyCore m.tgt)
    match savedAt s m.id m.point with
    | some v => if imageGrows s v then appendRay v payload s else s.post .ray (.msg m)
    | none =>
      if (s.core core).sealed then
        { s with discarded := Sparse.upd 0 s.discarded (coreDie core) (· + 1) }
      else
        let s := s.updCore core fun c => { c with raysReceived := c.raysReceived + 1 }
        if (s.launch? m.id).any fun l => l.phase == .running then placeRay core m.id payload s else s) s

/-! Anchor records (R284). -/

/-- The group whose anchor table holds a key: resident on the core, or saved with the key in its image. -/
def anchorGroup (s : State) (k off : Nat) : Option (Group × Anchors) :=
  let mine (g : Group) : Option (Group × Anchors) := match g.anchors with
    | some a => if a.base ≤ off && off < a.base + 32 * a.count then some (g, a) else none
    | none => none
  if isLsKey k then (residents s (keyCore k)).findSome? mine
  else s.saved.findSome? fun v => if (imageAt s v off).map (·.1) == some k then mine v.group else none

/-- The first byte of the record that holds a byte of a table. -/
def recordKey (k off base : Nat) : Nat := k - (off - base) % 32

def anchorState (s : State) (k : Nat) : Nat := min 3 (s.peek (k + 12) 1 % 16)
def setAnchorState (k st : Nat) (s : State) : State :=
  niSet (k + 12) 1 (s.peek (k + 12) 1 / 16 * 16 + st) s

/-- The record is in use by a ray: STATE 1 or 2. -/
def anchorLive (s : State) (k : Nat) : Bool := anchorState s k == 1 || anchorState s k == 2

def pendOf (s : State) (k : Nat) : Word := word32 s (k + 8)
def setPend (k : Nat) (v : Word) (s : State) : State := niSet (k + 8) 4 v.toNat s

/-- ECNT + 1, saturating at 255. -/
def countEcnt (k : Nat) (s : State) : State := niSet (k + 15) 1 (min 255 (s.peek (k + 15) 1 + 1)) s

/-! Delivery (R294, R297). -/

/-- A record into the fault ring; a full one counts it, and the traversal node does. -/
def deliverFault (g : Group) (a : Anchors) (tuple : BitVec 128) (s : State) : State :=
  match instOnCore s g a.fault with
  | none => countFault s g.lid
  | some q => match putRecord q.1.gid tuple s with
    | some s => s
    | none => countFault (countRefused q.1.gid s) g.lid

/-- The hit record with a reason and a cause. -/
def hitTuple (off bound si rtype cause reason : Nat) : BitVec 128 :=
  BitVec.ofNat 128 (off + bound / 2 ^ 32 * 2 ^ 32 + bound % 2 ^ 32 * 2 ^ 64 +
    (si + rtype * 2 ^ 12 + cause * 2 ^ 16 + reason * 2 ^ 24) * 2 ^ 96)

/-- The hit record of an anchor record is delivered. -/
def deliverHit (g : Group) (a : Anchors) (k off : Nat) (s : State) : State :=
  let bound := s.peek k 8
  let rtype := s.peek (k + 12) 1 / 16
  let frs := s.peek (k + 13) 1
  let fcs := s.peek (k + 14) 1
  let hit := bound % 2 ^ 32
  let si := if hit = 0xFFFFFFFF then (a.missb + rtype) % 4096 else hit / 2 ^ 20
  let tuple (cause reason : Nat) : BitVec 128 := hitTuple off bound si rtype cause reason
  if frs ≠ 0 then deliverFault g a (tuple fcs frs) s
  else if a.stlen ≤ si then deliverFault g a (tuple 0 1) (countFault s g.lid)
  else if !a.vmap.getLsbD si then deliverFault g a (tuple 0 2) (countFault s g.lid)
  else match instOnCore s g a.shade with
    | none => deliverFault g a (tuple 0 6) s
    | some q => match putRecord q.1.gid (tuple 0 0) s with
      | some s => s
      | none => deliverFault g a (tuple 0 6) s

/-- After an operation on a record: with STATE 2 and PEND 0 its hit record is delivered and STATE becomes 3 (R296). -/
def settleAnchor (g : Group) (a : Anchors) (k off : Nat) (s : State) : State :=
  if anchorState s k = 2 && pendOf s k = 0 then setAnchorState k 3 (deliverHit g a k off s) else s

/-! Hit messages (R294, R296). -/

/-- The local offset that a hit message names. -/
def anchOff (m : Msg) : Nat := ptrLow m.anch

/-- A hit minimum or hand-over that names no anchor record is counted as malformed. -/
def countMalformed (core : Nat) (s : State) : State := s.updCore core fun c => { c with malformed := c.malformed + 1 }

/-- A message applied to the anchor record it names; one to a sealed core returns undeliverable. -/
def onAnchor (m : Msg) (f : Group → Anchors → Nat → State → State) (s : State) : State :=
  if targetSealed s m then s.postAll [undeliverable m]
  else match anchorGroup s m.tgt (anchOff m) with
    | none => countMalformed (keyCore m.tgt) s
    | some (g, a) =>
      if anchOff m % 32 ≠ 0 then countMalformed (keyCore m.tgt) s
      else niTouch s m.tgt 32 fun s => settleAnchor g a m.tgt (anchOff m) (f g a m.tgt s)

/-- `HIT_MINIMUM` (R296). -/
def execHitMinimum (s : State) : Host.Outcome State Fault Refusal :=
  onMsg (fun m s => onAnchor m (fun _ _ k s =>
    if anchorLive s k then
      setPend k (pendOf s k - 1) (niSet k 8 (min (s.peek k 8) (m.arg.toNat % 2 ^ 64)) s)
    else countEcnt k s) s) s

/-- A hand-over on a record (R296). -/
def handedOver (imm : Word) (k : Nat) (s : State) : State :=
  let v := imm.toNat
  if !anchorLive s k then countEcnt k s
  else
    let s := setPend k (pendOf s k + BitVec.ofNat 32 (v % 2 ^ 16)) s
    if !imm.msb then s
    else if anchorState s k = 2 then countEcnt k s
    else setAnchorState k 2 (niSet (k + 13) 2 (v / 2 ^ 24 % 16 + v / 2 ^ 16 % 256 * 256) s)

/-- `PENDING_COUNT_END` (R296). -/
def execPendingCountEnd (s : State) : Host.Outcome State Fault Refusal :=
  onMsg (fun m s => onAnchor m (fun _ _ k s => handedOver m.imm k s) s) s

/-- The traversal node whose any-hit ring takes a candidate: that of the record it names, or else the one on the core. -/
def candidateGroup (s : State) (m : Msg) : Option (Group × Anchors) :=
  match anchorGroup s m.tgt (anchOff m) with
  | some q => some q
  | none => if isLsKey m.tgt then (residents s (keyCore m.tgt)).findSome? fun g => g.anchors.map fun a => (g, a) else none

/-- A candidate that the any-hit ring refuses: FCNT and ECNT count it, and PEND is lowered as for a rejected one. -/
def refuseCandidate (g : Group) (a : Anchors) (m : Msg) (s : State) : State :=
  let s := match instOnCore s g a.ahit with
    | some q => countRefused q.1.gid s
    | none => s
  if (anchorGroup s m.tgt (anchOff m)).isNone || anchOff m % 32 != 0 then s
  else niTouch s m.tgt 32 fun s => settleAnchor g a m.tgt (anchOff m) (setPend m.tgt (pendOf s m.tgt - 1) (countEcnt m.tgt s))

/-- `ANY_HIT_CANDIDATE` (R294): committed into the any-hit ring, or refused. -/
def execAnyHitCandidate (s : State) : Host.Outcome State Fault Refusal :=
  onMsg (fun m s =>
    if targetSealed s m then s.postAll [undeliverable m]
    else match candidateGroup s m with
      | none => countMalformed (keyCore m.tgt) s
      | some (g, a) => match (instOnCore s g a.ahit).bind fun q => putRecord q.1.gid (m.arg.setWidth 128) s with
        | some s => s
        | none => refuseCandidate g a m s) s

/-! Other NI operations on an anchor record (R296). -/

/-- An anchor record that a message touches: its table, its key and its local offset. -/
structure Touched where
  group : Group
  table : Anchors
  key : Nat
  off : Nat

/-- The local offset of a byte that a message touches. A store's target is the line of its pointer. -/
def touchedOff (m : Msg) (k : Nat) : Nat :=
  if isLsKey k then keyOff k else (if m.bytes.isEmpty then ptrLow m.va else ptrLow m.va / 128 * 128) + (k - m.tgt)

/-- The record that holds a byte a message touches. -/
def touchedAt (s : State) (m : Msg) (k : Nat) : Option Touched :=
  (anchorGroup s k (touchedOff m k)).map fun q =>
    ⟨q.1, q.2, recordKey k (touchedOff m k) q.2.base, touchedOff m k - (touchedOff m k - q.2.base) % 32⟩

/-- The records a message touches: those of the bytes it stores, or that of its target. -/
def touchedBy (s : State) (m : Msg) : List Touched :=
  ((if m.bytes.isEmpty then [m.tgt] else m.bytes.map (·.1)).filterMap (touchedAt s m)).foldl (fun rs r =>
    if rs.any fun q => q.key == r.key then rs else rs ++ [r]) []

/-- An NI operation, and what it leaves the anchor records it touches to do. `add`: it adds to the word at `m.tgt`. -/
def niAnchored (add : Bool) (ni : Msg → State → State) (m : Msg) (s : State) : State :=
  let records := if farOff s m then [] else touchedBy s m
  let late (r : Touched) : Bool := add && m.tgt == r.key + 8 && !anchorLive s r.key
  let t := ni m s
  if farOff t m then t
  else records.foldl (fun t r => settleAnchor r.group r.table r.key r.off (if late r then countEcnt r.key t else t)) t

/-- The message acts on a local store, or on a saved group's image through a kind-01 pointer (R345). -/
def atNi (m : Msg) : Bool := isLsKey m.tgt || ptrKind m.va == 1

/-- A message that its hall unit translates first, by `tr`, where its pointer is a device one (R77, R156). -/
def afterTranslation (tr go : Msg → State → State) (m : Msg) (s : State) : State := if m.tgt = farKey then tr m s else go m s

/-- `POSTED_STORE` (R156). -/
def execPostedStore (s : State) : Host.Outcome State Fault Refusal :=
  onMsg (afterTranslation (translateStore .postedStore) fun m s =>
    if atNi m then niAnchored false niPosted m s else atHome .postedStore m s) s

/-- The message is an add of a word. -/
def isAdd (m : Msg) : Bool := m.aop == .add && opBytes m == 4

/-- `ATOMIC_REQUEST` (R269). -/
def execAtomicRequest (s : State) : Host.Outcome State Fault Refusal :=
  onMsg (afterTranslation (translateMsg .atomicRequest needBoth) fun m s =>
    if atNi m then niAnchored (isAdd m) (niAtomic true) m s else atHome .atomicRequest m s) s

/-- `REDUCTION_DEVICE` (R270). -/
def execReductionDevice (s : State) : Host.Outcome State Fault Refusal :=
  onMsg (afterTranslation (translateMsg .reductionDevice needBoth) fun m s =>
    if atNi m then niAnchored (isAdd m) (niAtomic false) m s else atHome .reductionDevice m s) s

/-- `LS_REDUCTION_ATOMIC` (R155): `imm` 1 for an atomic, whose old value returns. -/
def execLsReductionAtomic (s : State) : Host.Outcome State Fault Refusal :=
  onMsg (fun m s => niAnchored (isAdd m) (niAtomic (m.imm == 1)) m s) s

/-- `COUNTER_DECREMENT` (R325). -/
def execCounterDecrement (s : State) : Host.Outcome State Fault Refusal :=
  onMsg (fun m s => niAnchored false niDecrement m s) s

/-! `climb` (R285). -/

/-- The checks of `climb` on the anchor addresses of its lanes. -/
def climbTrap (a : Anchors) (ls : List Nat) (x : Nat → Word) : Option (Nat × DWord) :=
  match ls.find? fun l => (x l).toNat % 32 != 0 with
  | some l => some (0x06, (x l).setWidth 64)
  | none => (ls.find? fun l => (x l).toNat < a.base || a.base + 32 * a.count ≤ (x l).toNat).map fun l =>
      (0x05, (x l).setWidth 64)

/-- A lane's ray is not well formed: a NaN, tmin below +0.0, tmax below tmin, or a reserved bit of its start word. -/
def badRay (c : Nat → Word) (start : Word) : Bool :=
  (List.range 8).any (fun k => (f32 (c k)).isNan) || (f32 (c 6)).lt (f32 0) || (f32 (c 7)).lt (f32 (c 6)) ||
    bitsAt start.toNat 30 2 != 0 || start.getLsbD 3

/-- The payload of a new climber. -/
def newClimber (entry : Word) (c : Nat → Word) (anchor : DWord) (start : Word) (rayId : Nat) : Nat :=
  let regs (k : Nat) : Nat :=
    if k < 8 then (c k).toNat
    else if k = 8 then anchor.toNat % 2 ^ 32
    else if k = 9 then anchor.toNat / 2 ^ 32
    else if k = 10 then 0x00010000
    else if k = 11 then bitsAt start.toNat 8 22
    else if k = 23 then 0x80000000 + bitsAt start.toNat 8 22
    else 0
  entry.toNat + bitsAt start.toNat 0 3 * 2 ^ 4 * 2 ^ 32 +
    ((List.range 24).map fun k => regs k * 2 ^ (64 + 32 * k)).sum + rayId * 2 ^ 832

/-- One lane of `climb`: its anchor record and its climber, and the status it receives. -/
def climbLane (entry : Word) (x : Nat → Word) (c : Nat → Nat → Word) (start : Nat → Word)
    (acc : State × List (Nat × Word)) (l : Nat) : State × List (Nat × Word) :=
  let (s, out) := acc
  let k := lsKey s.curCore (x l).toNat
  if anchorLive s k then (s, out ++ [(l, 1)])
  else if badRay (c l) (start l) then (s, out ++ [(l, 2)])
  else
    let s := niSet k 8 (0xFFFFFFFF + (c l 7).toNat * 2 ^ 32) s
    let s := niSet (k + 8) 7 ((1 + bitsAt (start l).toNat 4 4 * 16) * 2 ^ 32) s
    let anchor : DWord := BitVec.ofNat 64 (2 ^ 62 + s.logicalCore * 2 ^ 35 + (x l).toNat)
    (placeRay s.curCore s.curLid (newClimber entry (c l) anchor (start l) (s.peek (k + 16) 8)) s, out ++ [(l, 0)])

/-- `CLIMB` (R285). -/
def execClimb (g : Guard) (d : RegNo) (a : RegNo) (b : RegNo) (c : RegNo) (s : State) : Host.Outcome State Fault Refusal :=
  issue (.climb g d a b c) (fun s =>
    let ls := active s g
    let x (l : Nat) : Word := src s b.toNat l
    let entry := src s (c.toNat + 1) (firstLane s g)
    match s.curGroup.bind (·.anchors) with
    | none => .trap 0x05 0 s
    | some t => match climbTrap t ls x with
      | some (k, f) => .trap k f s
      | none =>
        if entry.toNat % 8 ≠ 0 then .trap 0x06 (entry.setWidth 64) s
        else if ls.any (fun l => lsBad s (lsKey s.curCore (x l).toNat) 32) then .seal s
        else
          let r := ls.foldl (climbLane entry x (fun l k => src s (a.toNat + k) l) (src s c.toNat)) (s, [])
          .done (putLanes r.1 ls d.toNat fun l => ((r.2.find? fun q => q.1 == l).map (·.2)).getD 0)) s

end Sys2Proof.Machine
end

