-- ==== Sys2Proof/Machine/Climbers.lean ====
section
/-! DEFINITION. The climber pipe (R275), what climbers alone execute (R276-R293), treelets, the canopy table and page-ins
(R278-R283, R291, R392). -/

namespace Sys2Proof.Machine

/-! The traversal word and the stack (R276). -/

structure Trav where
  cur : Nat
  nlnk : Nat
  nloc : Nat
  ncand : Nat
  nmin : Nat

def Trav.ofWord (w : Word) : Trav :=
  let v := w.toNat
  ⟨bitsAt v 20 12, bitsAt v 16 4, bitsAt v 12 4, bitsAt v 8 4, bitsAt v 0 8⟩

def Trav.word (t : Trav) : Word :=
  BitVec.ofNat 32 (t.cur % 4096 * 2 ^ 20 + t.nlnk % 16 * 2 ^ 16 + t.nloc % 16 * 2 ^ 12 + t.ncand % 16 * 2 ^ 8 + t.nmin % 256)

/-- The counts stack operations use. -/
def Trav.loc (t : Trav) : Nat := min t.nloc 12
def Trav.lnk (t : Trav) : Nat := min t.nlnk (12 - t.loc)

/-- The traversal word and a register of the current climber. -/
def curTrav (s : State) : Trav := Trav.ofWord (s.creg s.curCore s.cur.slot 10)
def curReg (s : State) (k : Nat) : Word := s.creg s.curCore s.cur.slot k
def setReg (k : Nat) (v : Word) (s : State) : State := s.setCreg s.curCore s.cur.slot k v
def setTrav (t : Trav) (s : State) : State := setReg 10 t.word s

/-- The end of the current climber with a reason and a cause: it does not go on at the next word. -/
def endHere (reason cause : Nat) (s : State) : Exec := .wait 0 (failClimber s s.curCore s.cur.slot reason cause)

/-- The climber leaves its pipe context with a new ST. -/
def leavePipe (core slot st : Nat) (s : State) : State :=
  (s.setCst core slot st).updCore core fun c => { c with active := c.active.filter (· != slot) }

/-- Its operations are all answered (R289, R390). -/
def settledHere (s : State) : Bool := s.curClimber.ops.isEmpty && s.curClimber.atms.isEmpty

/-- It is freed with nothing sent, its anchor pointer being bad (R293); answers to operations it has in flight find nobody. -/
def dropBad (s : State) : Exec := .wait 0 (freeClimber (countFault s s.curLid) s.curCore s.cur.slot)

/-! Treelets (R278, R392). -/

/-- A treelet in the NI's table. -/
def treeletAt (s : State) (core id : Nat) : Option (Nat × Nat × Nat) := (s.core core).treelets.find? fun t => t.1 == id

/-- Local address of record CUR of the current treelet, if it names one. -/
def recordAddr (s : State) : Option Nat :=
  let i := (curTrav s).cur
  match treeletAt s s.curCore ((curReg s 11).toNat % 2 ^ 22) with
  | none => none
  | some (_, slot, size) => if (size + 1) * 64 ≤ i then none else some (slot * 4096 + 64 * i)

/-- The next access of `nbox` and `ntri` (R286): a fetch, or the second read of SEQ, `at_` bytes into the record. `go`
gets the accepted record; nothing, with `worn` when the attempts are exhausted. -/
def probeRecord (tries : BitVec 4) (at_ : Nat) (go : Option (BitVec 512) → Bool → State → Exec) (s : State) : Exec :=
  let clear (s : State) : State := s.updCurClimber fun c => { c with probe := none }
  match recordAddr s with
  | none => go none false (clear s)
  | some a =>
    if lsBad s (lsKey s.curCore a) 64 then .seal s
    else
      let s := lsRepair s (lsKey s.curCore a) 64
      let fetch (n : Nat) (s : State) : Exec :=
        .wait 0 (s.updCurClimber fun c => { c with probe := some (n, BitVec.ofNat 512 (s.ls s.curCore a 64)) })
      match s.curClimber.probe with
      | none => fetch 1 s
      | some (n, r) =>
        let seq := bitsAt r.toNat (8 * at_) 16
        if seq = s.ls s.curCore (a + at_) 2 && seq % 2 = 0 then go (some r) false (clear s)
        else if tries.toNat < n then go none true (clear s)
        else fetch (n + 1) s

/-! Node tests (R286). -/

/-- An exact quotient rounded in a mode to f32; NaN of a NaN or of two infinities (R47, R225). -/
def ratio (mode : RMode) (a b : FVal) : FVal :=
  match a, b with
  | .nan, _ => .nan
  | _, .nan => .nan
  | .inf _, .inf _ => .nan
  | .inf x, .fin y _ _ => .inf (x != y)
  | .fin x _ _, .inf y => .fin (x != y) 0 0
  | .fin x m e, .fin y n k =>
    if n = 0 then .nan else if m = 0 then .fin false 0 0 else FFmt.f32.val (FFmt.f32.quotient mode (x != y) m e n k).1

/-- O + q × 2^(e − 127), exact, then rounded. -/
def planeAt (mode : RMode) (o : FVal) (q e : Nat) : FVal :=
  FFmt.f32.val (FFmt.f32.finish mode (FVal.sum mode [o, .fin false q ((e : Int) - 127)])).1

/-- `min` and `max` of R286; NaN of a NaN (R47). -/
def lesserOf (a b : FVal) : FVal := if a.isNan || b.isNan then .nan else if b.lt a then b else a
def greaterOf (a b : FVal) : FVal := if a.isNan || b.isNan then .nan else if a.lt b then b else a

/-- The slab of one axis: its near and far ends, nothing when it misses; `none` inside for the whole line. -/
def slab (lo hi o d : FVal) : Option (Option (FVal × FVal)) :=
  if d.isZero then
    if !lo.isNan && !hi.isNan && !o.isNan && !o.lt lo && !hi.lt o then some none else none
  else
    let neg (v : FVal) : FVal := (FVal.sum .rn [v, o.negate]).val
    let t (mode : RMode) (v : FVal) : FVal := ratio mode (neg v) d
    some (some (lesserOf (t .rd lo) (t .rd hi), greaterOf (t .ru lo) (t .ru hi)))

/-- The slabs of the three axes of child `k` of a node, or nothing when an axis rules the child out. -/
def childSlabs (s : State) (r k : Nat) : Option (List (Option (FVal × FVal))) :=
  let axis (a : Nat) : Option (Option (FVal × FVal)) :=
    let e := bitsAt r (96 + 8 * a) 8
    let qlo := bitsAt r (128 + 48 * k + 8 * a) 8
    let qhi := bitsAt r (128 + 48 * k + 24 + 8 * a) 8
    let o := f32 (BitVec.ofNat 32 (bitsAt r (32 * a) 32))
    if e = 255 || qhi < qlo then none
    else slab (planeAt .rd o qlo e) (planeAt .ru o qhi e) (f32 (curReg s a)) (f32 (curReg s (3 + a)))
  match axis 0, axis 1, axis 2 with
  | some x, some y, some z => some [x, y, z]
  | _, _, _ => none

/-- A child reference, or nothing when it is empty (R279). -/
def childRef (r k : Nat) : Option Nat :=
  let v := bitsAt r (320 + 32 * k) 32
  match v / 2 ^ 30 with
  | 3 => none
  | 2 => if bitsAt v 22 8 ≠ 0 then none else some v
  | _ => if bitsAt v 12 18 ≠ 0 then none else some v

/-- The entry distance of a hit child. -/
def childHit (s : State) (r k : Nat) : Option FVal :=
  match childRef r k with
  | none => none
  | some _ => match childSlabs s r k with
    | none => none
    | some xs =>
      let spans := xs.filterMap id
      let near := spans.foldl (fun t q => greaterOf t q.1) (f32 (curReg s 6))
      let far := spans.foldl (fun t q => lesserOf t q.2) (f32 (curReg s 7))
      if near.isNan || far.isNan || far.lt near then none else some near

/-- The hit children, nearest first, ties by lower number. -/
def hitOrder (s : State) (r : Nat) : List Nat :=
  let hits := (List.range 4).filterMap fun k => (childHit s r k).map fun t => (k, t)
  let put (q : Nat × FVal) (acc : List (Nat × FVal)) : List (Nat × FVal) :=
    (acc.takeWhile fun p => !q.2.lt p.2) ++ q :: (acc.dropWhile fun p => !q.2.lt p.2)
  (hits.foldl (fun acc q => put q acc) []).map (·.1)

/-- The result word of `nbox`. -/
def boxResult (order : List Nat) : Nat :=
  let all := order ++ (List.range 4).filter fun k => !order.contains k
  (order.map fun k => 2 ^ k).sum + ((List.range 4).map fun i => all.getD i 0 * 2 ^ (4 + 2 * i)).sum + order.length * 2 ^ 12

/-- A child pushed: links grow down from c23, others up from c12. -/
def pushRef (s : State) (ref : Nat) : State :=
  let t := curTrav s
  if ref / 2 ^ 30 = 2 then setTrav { t with nlnk := t.lnk + 1, nloc := t.loc } (setReg (24 - (t.lnk + 1)) (BitVec.ofNat 32 ref) s)
  else setTrav { t with nloc := t.loc + 1, nlnk := t.lnk } (setReg (11 + (t.loc + 1)) (BitVec.ofNat 32 ref) s)

/-- p16-p31 and p15. -/
def setBoxPreds (result : Nat) (worn : Bool) (s : State) : State :=
  putPred (s.setPreds s.curCore s.cur.slot
    (BitVec.ofNat 32 ((s.preds s.curCore s.cur.slot).toNat % 2 ^ 16 + result * 2 ^ 16))) 15 worn

/-- `NBOX` (R286). -/
def execNbox (g : Guard) (tries : BitVec 4) (s : State) : Host.Outcome State Fault Refusal :=
  issue (.nbox g tries) (fun s => probeRecord tries 56 (fun r worn s =>
    match r with
    | none => .done (setBoxPreds 0 worn s)
    | some v =>
      let order := hitOrder s v.toNat
      let t := curTrav s
      let room := 12 - t.loc - t.lnk
      let kept := (order.take room).filterMap (childRef v.toNat)
      let s := setBoxPreds (boxResult order) false s
      let s := if room < order.length then putPred s 13 true else s
      let s := if order.isEmpty then s else setTrav { t with nlnk := t.lnk, nloc := t.loc } s
      .done (kept.reverse.foldl pushRef s)) s) s

/-! Triangle tests (R287). -/

/-- f32 arithmetic on words, rounded to nearest even. -/
def fAdd (a b : Word) : Word := BitVec.ofNat 32 (FFmt.f32.add a.toNat b.toNat)
def fSub (a b : Word) : Word := BitVec.ofNat 32 (FFmt.f32.sub a.toNat b.toNat)
def fMul (a b : Word) : Word := BitVec.ofNat 32 (FFmt.f32.mul a.toNat b.toNat)
def fDiv (a b : Word) : Word := BitVec.ofNat 32 (FFmt.f32.div a.toNat b.toNat).1

/-- A vector of three f32. -/
structure V3 where
  x : Word
  y : Word
  z : Word

def V3.sub (a b : V3) : V3 := ⟨fSub a.x b.x, fSub a.y b.y, fSub a.z b.z⟩
def V3.dot (a b : V3) : Word := fAdd (fAdd (fMul a.x b.x) (fMul a.y b.y)) (fMul a.z b.z)
def V3.cross (a b : V3) : V3 :=
  ⟨fSub (fMul a.y b.z) (fMul a.z b.y), fSub (fMul a.z b.x) (fMul a.x b.z), fSub (fMul a.x b.y) (fMul a.y b.x)⟩

/-- What a triangle test finds. -/
structure TriHit where
  t : Word
  u : Word
  v : Word

/-- `a ≥ b` and `a ≤ b` as numbers; false with a NaN. -/
def fGe (a b : Word) : Bool := !(f32 a).isNan && !(f32 b).isNan && !(f32 a).lt (f32 b)
def fLe (a b : Word) : Bool := fGe b a

/-- The test of R287 on the 512 bits of a triangle record. -/
def triTest (s : State) (r : Nat) : Option TriHit :=
  let w (i : Nat) : Word := BitVec.ofNat 32 (bitsAt r (32 * i) 32)
  let vtx (i : Nat) : V3 := ⟨w (3 * i), w (3 * i + 1), w (3 * i + 2)⟩
  let e1 := (vtx 1).sub (vtx 0)
  let e2 := (vtx 2).sub (vtx 0)
  let d : V3 := ⟨curReg s 3, curReg s 4, curReg s 5⟩
  let o := (V3.mk (curReg s 0) (curReg s 1) (curReg s 2)).sub (vtx 0)
  let p := d.cross e2
  let det := e1.dot p
  let ds := bitsAt r 353 1 = 1
  if (f32 det).isZero || (f32 det).isNan ||
      (!ds && ((predBit s 5 && (f32 det).lt (f32 0)) || (predBit s 6 && (f32 0).lt (f32 det)))) then none
  else
    let q := o.cross e1
    let u := fDiv (o.dot p) det
    let v := fDiv (d.dot q) det
    let t := fDiv (e2.dot q) det
    if fGe u 0 && fGe v 0 && fLe (fAdd u v) 0x3F800000 && fGe t (curReg s 6) && (f32 t).lt (f32 (curReg s 7)) &&
        w 9 != 0xFFFFFFFF then some ⟨t, u, v⟩ else none

/-- round_rne(x × 65535), the product being an f32 (R287). -/
def bary16 (x : Word) : Nat :=
  match f32 (fMul x 0x477FFF00) with
  | .fin n m e => (FVal.toInt .rn n m e).1.toNat % 2 ^ 16
  | _ => 0

/-- A hit message of the current climber to its anchor. -/
def sendHit (op : Instr) (arg : Nat) (s : State) : Option State :=
  let p := anchorOf s s.curCore s.cur.slot
  (anchorKey s s.curLid p).map fun k =>
    s.post op (.msg { src := { deviceAt s.curCore s.cur.slot with climber := true }, tgt := k, anch := p, arg := BitVec.ofNat 128 arg })

/-- An opaque hit: c7, the hand-over that a full NMIN calls for, and the hit minimum. -/
def opaqueHit (t hitw : Word) (s : State) : Exec :=
  let s := putPred (setReg 7 t (s.updCurClimber fun c => { c with latch := none })) 12 false
  let full := (curTrav s).nmin == 255
  match (if full then handOver s s.curCore s.cur.slot false false 0 0 255 else some s) with
  | none => dropBad s
  | some s => match sendHit .hitMinimum (t.toNat * 2 ^ 32 + hitw.toNat) s with
    | none => dropBad s
    | some s => .done (setTrav { curTrav s with nmin := if full then 1 else (curTrav s).nmin + 1 } s)

/-- `NTRI` (R287). -/
def execNtri (g : Guard) (tries : BitVec 4) (s : State) : Host.Outcome State Fault Refusal :=
  issue (.ntri g tries) (fun s => probeRecord tries 46 (fun r worn s =>
    let s := putPred s 15 worn
    match r.bind fun v => (triTest s v.toNat).map fun h => (v.toNat, h) with
    | none => .done (putPred (s.updCurClimber fun c => { c with latch := some (0x7F800000, 0, 0xFFFFFFFF) }) 12 false)
    | some (v, h) =>
      let hitw : Word := BitVec.ofNat 32 (bitsAt v 288 32)
      if bitsAt v 352 1 = 1 || predBit s 4 then opaqueHit h.t hitw s
      else .done (putPred (s.updCurClimber fun c =>
        { c with latch := some (h.t, BitVec.ofNat 32 (bary16 h.v * 2 ^ 16 + bary16 h.u), hitw) }) 12 true)) s) s

/-! `cand`, `rsync`, `fin` (R293). -/

/-- `CAND`. -/
def execCand (g : Guard) (s : State) : Host.Outcome State Fault Refusal :=
  issue (.cand g) (fun s =>
    match (if predBit s 12 then s.curClimber.latch else none) with
    | none => .done (putPred s 12 false)
    | some (t, bary, hitw) =>
      if t = 0x7F800000 then .done (putPred s 12 false)
      else if (curTrav s).ncand = 15 then .done (putPred s 14 true)
      else match sendHit .anyHitCandidate ((curReg s 8).toNat + t.toNat * 2 ^ 32 + hitw.toNat * 2 ^ 64 + bary.toNat * 2 ^ 96) s with
        | none => dropBad s
        | some s => .done (putPred (putPred (setTrav { curTrav s with ncand := (curTrav s).ncand + 1 } s) 12 false) 14 false)) s

/-- `RSYNC`: BOUND read by an atomic that changes nothing; the climber leaves its context until the result comes. -/
def execRsync (g : Guard) (s : State) : Host.Outcome State Fault Refusal :=
  issue (.rsync g) (fun s =>
    match s.curClimber.await with
    | .answered _ v c =>
      if c ≠ 0 then endHere 3 c s
      else
        let t : Word := BitVec.ofNat 32 (v / 2 ^ 32)
        .done (if t.ult (curReg s 7) then setReg 7 t s else s)
    | .sent _ => .wait 0 s
    | _ =>
      let p := anchorOf s s.curCore s.cur.slot
      match anchorKey s s.curLid p with
      | none => dropBad s
      | some k =>
        let id := s.nextId
        let m : Msg := { src := issuerOf s 0x6A 0, tgt := k, va := p, sz := .d, aop := .minN64, arg := BitVec.ofNat 128 (2 ^ 64 - 1)
                         id := id, kind := 1 }
        .wait 0 (leavePipe s.curCore s.cur.slot 4
          (setAwait (.sent id) (s.freshId.post (if isLsKey k then .lsReductionAtomic else .atomicRequest) (.msg m))))) s

/-- `FIN`: the final hand-over, once every operation is answered. -/
def execFin (g : Guard) (s : State) : Host.Outcome State Fault Refusal :=
  issue (.fin g) (fun s =>
    if !settledHere s then .wait 0 s else .wait 0 (endClimber s s.curCore s.cur.slot false 0 0)) s

/-! Moving (R289, R290). -/

/-- The current climber leaves for a logical core, to resume at `pc` there. -/
def migrate (lcore : Nat) (pc : Word) (s : State) : State :=
  let c := s.curCore
  let k := s.cur.slot
  let s := s.setCpc c k pc
  let t := rayMsg s { deviceAt c k with climber := true } s.curLid lcore (s.ls c (climberBase k) 112) (anchorOf s c k)
  (freeClimber (s.postAll [t]) c k).updCore c fun x => { x with raysSent := x.raysSent + 1 }

/-- `HOP` (R290). -/
def execHop (g : Guard) (a : RegNo) (s : State) : Host.Outcome State Fault Refusal :=
  issue (.hop g a) (fun s =>
    let x := src s a.toNat 0
    match (if 2 ^ 27 ≤ x.toNat then none else s.frameOf s.curLid x.toNat) with
    | none => .trap 0x17 (x.setWidth 64) s
    | some c =>
      if c = s.curCore then .done s
      else if !settledHere s then .wait 0 s
      else .wait 0 (migrate x.toNat (s.curPc + 8) s)) s

/-! The canopy table (R282, R283). -/

/-- A canopy entry. -/
structure CanopyEntry where
  state : Nat
  pol : Nat
  size : Nat
  slot : Nat
  img : Nat
  nown : Nat
  /-- logical core words within the package, owner 0 first -/
  owners : List Nat

/-- The entry of a link, or nothing when the link is treated as empty. -/
def CanopyEntry.ofBits (v : Nat) : Option CanopyEntry :=
  let nown := if 4 < bitsAt v 20 3 then 0 else bitsAt v 20 3
  let slot := bitsAt v 10 10
  let size := bitsAt v 4 6
  if bitsAt v 125 3 ≠ 0 || bitsAt v 23 5 ≠ 0 || 767 < slot || 768 < slot + size + 1 then none
  else some { state := bitsAt v 0 2, pol := bitsAt v 2 2, size := size, slot := slot, img := bitsAt v 28 45 * 4096, nown := nown
              owners := (List.range nown).map fun i => bitsAt v (73 + 13 * i) 13 }

/-- The canopy table of a launch's traversal node: VA and length. -/
def canopyOf (s : State) (lid : Nat) : Option (Nat × Nat) :=
  (s.groups ++ s.saved.map (·.group)).findSome? fun g =>
    if g.lid = lid then g.anchors.map fun a => (a.canva, a.canlen) else none

def launchCtx (s : State) (lid : Nat) : Nat := match s.launch? lid with
  | some l => l.ctx
  | none => 0

/-- An entry read through its home: 2^127, which makes its link empty, beyond the table. -/
def readCanopy (s : State) (hall lid id : Nat) : State × Except Nat Nat :=
  match canopyOf s lid with
  | none => (s, .ok (2 ^ 127))
  | some (va, len) => if len ≤ id then (s, .ok (2 ^ 127)) else readVa s hall (launchCtx s lid) (va + 16 * id) 16

/-- The line of an entry. -/
def canopyLine (s : State) (hall lid id : Nat) : Nat :=
  match canopyOf s lid with
  | none => 0
  | some (va, _) => match (translate s hall (launchCtx s lid) (va + 16 * id) needRead).2 with
    | .ok t => lineOf t.dpa
    | .error _ => 0

/-- `CANOPY_LOOKUP` (R283): answered from the hall unit's cache, where it counts a visit, or from the entry's home.
Treelet in `id`'s place of `arg`, launch in `key`. -/
def execCanopyLookup (s : State) : Host.Outcome State Fault Refusal :=
  onMsg (fun m s =>
    let hall := hallOf m.src.core
    let id := m.arg.toNat
    match (s.hall hall).canopy.find? fun c => c.lid == m.key && c.id == id with
    | some c =>
      (s.updHall hall fun h => { h with canopy := h.canopy.map fun c =>
        if c.lid == m.key && c.id == id then { c with visits := c.visits + 1 } else c }).postAll [answerMsg m c.entry.toNat 0]
    | none => match readCanopy s hall m.key id with
      | (s, .error r) => s.postAll [answerMsg m 0 r]
      | (s, .ok v) =>
        let s := if v = 2 ^ 127 then s else s.updHall hall fun h =>
          { h with canopy := (⟨m.key, id, canopyLine s hall m.key id, BitVec.ofNat 128 v, 1⟩ :: h.canopy).take 2048 }
        s.postAll [answerMsg m v 0]) s

/-! Page-ins (R291). -/

/-- An arena range of a core is free for a treelet of a launch. -/
def arenaFree (s : State) (lid core slot size : Nat) : Bool :=
  let arena := (residents s core).any fun g => g.lid == lid && match g.anchors with
    | some a => decide (a.arb ≤ slot * 4096) && decide ((slot + size + 1) * 4096 ≤ a.arb + a.arl)
    | none => false
  let clash (b n : Nat) : Bool := decide (b ≤ slot + size) && decide (slot ≤ b + n)
  arena && !(s.core core).sealed && !((s.core core).treelets.any fun t => clash t.2.1 t.2.2) &&
    !(s.halls.any fun h => h.2.pageIns.any fun p => p.core == core && match CanopyEntry.ofBits p.entry.toNat with
      | some e => clash e.slot e.size
      | none => false)

/-- The cores of a launch's frame on a die, those of `hall` first, then by hall and logical core word. -/
def pagingOrder (s : State) (lid die hall : Nat) : List (Nat × Nat) :=
  let mine := (s.frames.filter fun f => f.lid == lid && coreDie f.physical == die).map fun f => (f.logical, f.physical)
  let halls := hall :: (List.range 40).map fun i => die * 40 + i
  let sorted := sortNats (mine.map (·.1))
  ((halls.eraseDups.map fun h => sorted.filterMap fun l => mine.find? fun q => q.1 == l && hallOf q.2 == h)).flatten

/-- The core a treelet is paged onto by a hall unit. -/
def pagingCore (s : State) (hall lid : Nat) (e : CanopyEntry) : Option Nat :=
  ((pagingOrder s lid (hall / 40) hall).find? fun q => arenaFree s lid q.2 e.slot e.size).map (·.2)

/-- The climbers a hall unit holds for a treelet. -/
def waitersOf (s : State) (hall lid id : Nat) : List Parked := (s.hall hall).parked.filter fun p => p.lid == lid && p.id == id

def dropWaiting (hall lid id : Nat) (s : State) : State :=
  s.updHall hall fun h => { h with parked := h.parked.filter (fun p => !(p.lid == lid && p.id == id))
                                   rereads := h.rereads.filter fun r => !(r.1 == lid && r.2.1 == id) }

/-- The waiters of a treelet end with reason 4 and an R80 reason. -/
def failWaiters (hall lid id reason : Nat) (s : State) : State :=
  (waitersOf s hall lid id).foldl (fun s p => failClimber s p.core p.slot 4 reason) (dropWaiting hall lid id s)

/-- The waiters of a treelet are placed and issue their `nlink` again. -/
def wakeWaiters (hall lid id : Nat) (s : State) : State :=
  (waitersOf s hall lid id).foldl (fun s p => placeAgain s p.core p.slot) (dropWaiting hall lid id s)

def dropPageIn (hall lid id : Nat) (s : State) : State :=
  s.updHall hall fun h => { h with pageIns := h.pageIns.filter fun p => !(p.lid == lid && p.id == id) }

/-- A canopy update of a hall unit (R283): form 0 to Paging, 1 the end of a page-in, 2 a replica, 3 back to Cold; the
expected entry and the new one. -/
def canopyMsg (s : State) (hall lid id form expect new : Nat) : Task :=
  ⟨.canopyUpdate, .msg { src := deviceAt (unitCore s hall) 0xFFFF, point := hall, key := lid, id := id, kind := form
                         arg := BitVec.ofNat 128 expect, arg2 := BitVec.ofNat 128 new }⟩

/-- An entry with another STATE. -/
def withState (v st : Nat) : Nat := v / 4 * 4 + st

/-- A hall unit begins to page a cold treelet in. -/
def startPageIn (hall lid id entry : Nat) (e : CanopyEntry) (s : State) : State :=
  if (s.hall hall).pageIns.any fun p => p.lid == lid && p.id == id then s
  else match pagingCore s hall lid e with
    | none => failWaiters hall lid id 0 s
    | some c =>
      (s.updHall hall fun h => { h with pageIns := h.pageIns ++ [⟨lid, id, c, BitVec.ofNat 128 entry, 0, false⟩] }).postAll
        [canopyMsg s hall lid id 0 entry (withState entry 1)]

/-- The current climber parks on a cold or paging treelet. -/
def parkOn (id entry : Nat) (e : CanopyEntry) (s : State) : State :=
  let hall := hallOf s.curCore
  let lid := s.curLid
  let fresh := !((s.hall hall).rereads.any fun r => r.1 == lid && r.2.1 == id)
  let s := (leavePipe s.curCore s.cur.slot 3 (setAwait .none s)).updHall hall fun h => { h with
    parked := h.parked ++ [⟨s.curCore, s.cur.slot, lid, id, s.clk⟩]
    rereads := if fresh then h.rereads ++ [(lid, id, s.clk)] else h.rereads }
  if e.state = 0 then startPageIn hall lid id entry e s else s

/-! `nlink` (R288). -/

/-- The owner a climber goes to: fewest hops, the lower index of equals, never its own core. -/
def nearestOwner (s : State) (e : CanopyEntry) : Option Nat :=
  let far (l : Nat) : Option (Nat × Nat) :=
    match s.frameOf s.curLid (s.pkg * 8192 + l) with
    | none => none
    | some c => if c = s.curCore then none else some (hops s.curCore c, s.pkg * 8192 + l)
  ((e.owners.filterMap far).foldl (fun (b : Option (Nat × Nat)) q => match b with
    | none => some q
    | some p => if q.1 < p.1 then some q else some p) none).map (·.2)

/-- What `nlink` does with the canopy entry of its top link. -/
def followLink (id entry : Nat) (e : CanopyEntry) (s : State) : Exec :=
  if e.state < 2 then .wait 0 (parkOn id entry e s)
  else match nearestOwner s e with
    | none => endHere 4 0 s
    | some l => if !settledHere s then .wait 0 s else .wait 0 (migrate l s.curPc (setAwait .none s))

/-- The lookup of a treelet is sent; the climber leaves its context until the answer comes. -/
def lookUp (id : Nat) (s : State) : Exec :=
  let n := s.nextId
  let m : Msg := { src := issuerOf s 0x68 0, tgt := lsKey (unitCore s (hallOf s.curCore)) 0, key := s.curLid
                   arg := BitVec.ofNat 128 id, id := n, kind := 1 }
  .wait 0 (leavePipe s.curCore s.cur.slot 4 (setAwait (.sent n) (s.freshId.post .canopyLookup (.msg m))))

/-- The loop of R288. -/
def nlinkLoop : Nat → State → Exec
  | 0, s => .wait 0 s
  | fuel + 1, s =>
    let t := curTrav s
    let flags (p10 p11 : Bool) (s : State) : State := putPred (putPred s 10 p10) 11 p11
    if t.loc ≠ 0 then
      let e := (curReg s (11 + t.loc)).toNat
      .done (flags (e / 2 ^ 30 == 1) false (setTrav { t with nloc := t.loc - 1, cur := e % 4096 } s))
    else if t.lnk = 0 then .done (flags false true s)
    else
      let id := (curReg s (24 - t.lnk)).toNat % 2 ^ 22
      if (treeletAt s s.curCore id).isSome then
        .done (flags false false (setTrav { t with nlnk := t.lnk - 1, cur := 0 } (setReg 11 (BitVec.ofNat 32 id) s)))
      else match s.curClimber.await with
        | .sent _ => .wait 0 s
        | .answered _ v r =>
          if r ≠ 0 then endHere 4 r s
          else match CanopyEntry.ofBits v with
            | none => nlinkLoop fuel (setAwait .none (setTrav { t with nlnk := t.lnk - 1 } s))
            | some e => followLink id v e s
        | _ => lookUp id s

/-- `NLINK` (R288). -/
def execNlink (g : Guard) (s : State) : Host.Outcome State Fault Refusal := issue (.nlink g) (nlinkLoop 13) s

/-! Canopy updates and page-ins. -/

/-- Every line of a VA range, and the entries its walk reads, are held by nothing. -/
def readable (s : State) (hall ctx va n : Nat) : Bool := walkFree s hall ctx va && vaFree s ctx va n

/-- An entry can be read or changed now: its line is held by no request, lease or page operation (R95, R109). -/
def canopyFree (s : State) (hall lid id : Nat) : Bool := match canopyOf s lid with
  | none => true
  | some (va, len) => decide (len ≤ id) || readable s hall (launchCtx s lid) (va + 16 * id) 16

/-- The compare-and-swap of a whole entry at its home: done, changed meanwhile, or failed with an R80 reason. -/
def swapEntry (s : State) (hall lid id expect new : Nat) : State × Except Nat Bool :=
  match readCanopy s hall lid id with
  | (s, .error r) => (s, .error r)
  | (s, .ok v) =>
    if v ≠ expect then (s, .ok false)
    else match canopyOf s lid with
      | none => (s, .ok false)
      | some (va, _) => match writeVa s hall (launchCtx s lid) (va + 16 * id) 16 new with
        | (s, some r) => (s, .error r)
        | (s, none) => (s, .ok true)

/-- A treelet enters the table of 768 entries (R392); one that finds it full is left out (log 81). -/
def addTreelet (core id slot size : Nat) (s : State) : State :=
  s.updCore core fun c => { c with treelets := ((c.treelets.filter fun t => t.1 != id) ++ [(id, slot, size)]).take 768 }

def removeTreelet (core id : Nat) (s : State) : State :=
  s.updCore core fun c => { c with treelets := c.treelets.filter fun t => t.1 != id }

/-- A replica is unsubscribed and dropped (R291). -/
def dropReplica (core id : Nat) (e : CanopyEntry) (s : State) : State :=
  let s := removeTreelet core id s
  ((s.core core).subs.filter fun u => u.record == noRecord && decide (e.slot * 4096 ≤ u.lsb) && decide (u.lsb < (e.slot + e.size + 1) * 4096)).foldl
    (fun s u => endSub core 0 u s) s

/-- `CANOPY_UPDATE` (R283, R291): applied at its home, and what the hall unit that sent it does then. -/
def execCanopyUpdate (s : State) : Host.Outcome State Fault Refusal :=
  onMsg (fun m s =>
    let hall := m.point
    match (s.hall hall).pageIns.find? fun p => p.lid == m.key && p.id == m.id with
    | none => (swapEntry s hall m.key m.id m.arg.toNat m.arg2.toNat).1
    | some p =>
      let (s, r) := swapEntry s hall m.key m.id m.arg.toNat m.arg2.toNat
      match CanopyEntry.ofBits p.entry.toNat, m.kind, r with
      | some e, 2, .ok true => dropPageIn hall m.key m.id (addTreelet p.core m.id e.slot e.size s)
      | some e, 2, _ => dropPageIn hall m.key m.id (dropReplica p.core m.id e s)
      | _, 0, .ok true => s.post .treeletPageInFill (.msg { src := deviceAt p.core 0xFFFF, point := hall, key := m.key, id := m.id })
      | _, 0, .error r => failWaiters hall m.key m.id r (dropPageIn hall m.key m.id s)
      | _, 1, .ok true => wakeWaiters hall m.key m.id (dropPageIn hall m.key m.id s)
      | _, 1, .error r => failWaiters hall m.key m.id r (dropPageIn hall m.key m.id (removeTreelet p.core m.id s))
      | _, 1, .ok false => dropPageIn hall m.key m.id (removeTreelet p.core m.id s)
      | _, _, _ => dropPageIn hall m.key m.id s) s

/-- The image of a page-in cannot be read: back to Cold, its waiters end; a replica is dropped. -/
def failPageIn (hall : Nat) (p : PageIn) (e : CanopyEntry) (reason : Nat) (s : State) : State :=
  if p.replica then dropPageIn hall p.lid p.id (dropReplica p.core p.id e s)
  else
    let v := withState p.entry.toNat 1
    (failWaiters hall p.lid p.id reason s).postAll [canopyMsg s hall p.lid p.id 3 v (withState v 0)]

/-- `TREELET_PAGE_IN_FILL` (KIND 0x52): the next line of the image is read and written to the arena. -/
def execTreeletPageInFill (s : State) : Host.Outcome State Fault Refusal :=
  onMsg (fun m s =>
    match (s.hall m.point).pageIns.find? fun p => p.lid == m.key && p.id == m.id with
    | none => s
    | some p => match CanopyEntry.ofBits p.entry.toNat with
      | none => dropPageIn m.point m.key m.id s
      | some e =>
        if (s.core p.core).sealed then dropPageIn m.point m.key m.id s
        else match readVa s m.point (launchCtx s p.lid) (e.img + p.done) 128 with
          | (s, .error r) => failPageIn m.point p e r s
          | (s, .ok v) =>
            let s := fillLs s p.core (e.slot * 4096 + p.done) 128 v
            let s := s.updHall m.point fun h => { h with pageIns := h.pageIns.map fun q =>
              if q.lid == p.lid && q.id == p.id then { q with done := q.done + 128 } else q }
            if p.done + 128 < (e.size + 1) * 4096 then s.post .treeletPageInFill (.msg m)
            else s.post .pageInComplete (.nums [m.point, m.id, p.lid])) s

/-- The image of a treelet page by page: VA, DPA, bytes and PTE of each piece in one page; nothing unless the pages are
homed on a die with device bias (R97, R291). -/
def imagePieces (s : State) (ctx : Nat) : Nat → Nat → Nat → Option (List (Nat × Nat × Nat × Nat))
  | 0, _, _ => none
  | fuel + 1, va, n =>
    if n = 0 then some []
    else match walk s ctx va with
      | .error _ => none
      | .ok f =>
        let here := min n (2 ^ f.page - va % 2 ^ f.page)
        if pteHs f.pte ≠ 1 || pteBit f.pte 7 || dpaSpace (ptePa f.pte) ≠ 0 then none
        else (imagePieces s ctx fuel (va + here) (n - here)).map fun ps =>
          (va, ptePa f.pte / 2 ^ f.page * 2 ^ f.page + va % 2 ^ f.page, here, f.pte) :: ps

/-- The die an image is homed on. -/
def imageDie (s : State) (ctx va : Nat) : Nat := match walk s ctx va with
  | .ok f => pteHome f.pte % 8
  | .error _ => 0

/-- A core's copy of a treelet is subscribed under the conditions of R97 and filled from the snapshot (R102, R291): whether it
could be. -/
def subscribeCopy (core gid : Nat) (e : CanopyEntry) : List (Nat × Nat × Nat × Nat) → State → State × Bool
  | [], s => (s, true)
  | (va, dpa, n, pte) :: ps, s =>
    let lsb := e.slot * 4096 + (va - e.img)
    let point := pointOf s dpa pte
    if (s.core core).subs.any fun u => u.dpa == dpa && u.lsb == lsb then subscribeCopy core gid e ps s
    else if pteHome pte % 8 ≠ coreDie core || subsStatus s core point dpa ⟨va, lsb, n, 0, 0, 0⟩ ≠ 0 ||
        (List.range (n / 128)).any (fun k => (readFault s (dpa + 128 * k) (pteKey pte)).isSome) then (s, false)
    else subscribeCopy core gid e ps (enterSub core noRecord gid [] point dpa n lsb (pteKey pte) s)

/-- The traversal group of a launch on a core. -/
def anchorGid (s : State) (lid core : Nat) : Nat :=
  (((residents s core).find? fun g => g.lid == lid && g.anchors.isSome).map (·.gid)).getD 0

/-- A replica and, with it, the first owner's copy, unless it is already, are subscribed (R291). -/
def subscribeReplica (p : PageIn) (e : CanopyEntry) (s : State) : State × Bool :=
  match imagePieces s (launchCtx s p.lid) 8 e.img ((e.size + 1) * 4096) with
  | none => (s, false)
  | some ps =>
    let first := e.owners.head?.bind fun l => s.frameOf p.lid (s.pkg * 8192 + l)
    match subscribeCopy p.core (anchorGid s p.lid p.core) e ps s, first with
    | (s, true), some c => subscribeCopy c (anchorGid s p.lid c) e ps s
    | r, _ => r

/-- `PAGE_IN_COMPLETE`: hall, treelet, launch. The treelet enters the core's table and the canopy update is sent; a replica and
the first owner's copy are subscribed before it, and a replica that cannot be is dropped (log 81). -/
def execPageInComplete (s : State) : Host.Outcome State Fault Refusal :=
  event (fun s => match s.nums with
    | [hall, id, lid] =>
      match (s.hall hall).pageIns.find? fun p => p.lid == lid && p.id == id with
      | none => s
      | some p => match CanopyEntry.ofBits p.entry.toNat with
        | none => s
        | some e =>
          let v := p.entry.toNat
          let own := s.logicalOn p.lid p.core % 8192
          if p.replica then
            match subscribeReplica p e s with
            | (s, false) => dropPageIn hall p.lid id (dropReplica p.core id e s)
            | (s, true) =>
              (addTreelet p.core id e.slot e.size s).postAll [canopyMsg s hall p.lid id 2 v
                (withState (v - bitsAt v 20 3 * 2 ^ 20 - bitsAt v (73 + 13 * e.nown) 13 * 2 ^ (73 + 13 * e.nown)) 3 +
                  (e.nown + 1) * 2 ^ 20 + own * 2 ^ (73 + 13 * e.nown))]
          else
            let w := withState v 1
            (addTreelet p.core id e.slot e.size s).postAll [canopyMsg s hall p.lid id 1 w
              (withState (w - bitsAt w 20 3 * 2 ^ 20 - bitsAt w 73 52 * 2 ^ 73) 2 + 2 ^ 20 + own * 2 ^ 73)]
    | _ => s) s

/-- Launches with climbers waiting at a hall unit for a treelet. -/
def waitingLids (s : State) (hall id : Nat) : List Nat :=
  (((s.hall hall).parked.filter fun p => p.id == id).map (·.lid)).eraseDups

/-- One entry read again: its waiters end, wake, or wait 1,024 counts more. -/
def rereadEntry (hall id lid : Nat) (s : State) : State :=
  match readCanopy s hall lid id with
  | (s, .error r) => failWaiters hall lid id r s
  | (s, .ok v) =>
    if v % 4 = 1 then s.updHall hall fun h => { h with rereads := h.rereads.map fun r =>
      if r.1 == lid && r.2.1 == id then (lid, id, s.clk) else r }
    else wakeWaiters hall lid id s

/-- `PAGING_REREAD`: hall, treelet; every 1,024 counts of `clk`, by a hall unit that is not paging it in itself. -/
def execPagingReread (s : State) : Host.Outcome State Fault Refusal :=
  event (fun s => match s.nums with
    | [hall, id] =>
      ((waitingLids s hall id).filter fun lid =>
        !((s.hall hall).pageIns.any fun p => p.lid == lid && p.id == id) &&
        (s.hall hall).rereads.any fun r => r.1 == lid && r.2.1 == id && decide (1024 ≤ s.clkSince r.2.2)).foldl
          (fun s lid => rereadEntry hall id lid s) s
    | _ => s) s

/-- `PAGING_WAITER_TIMEOUT`: hall, treelet; 2^20 counts after they parked, with the entry still Paging. -/
def execPagingWaiterTimeout (s : State) : Host.Outcome State Fault Refusal :=
  event (fun s => match s.nums with
    | [hall, id] =>
      let late (lid : Nat) : List Parked := (waitersOf s hall lid id).filter fun p => decide (2 ^ 20 ≤ s.clkSince p.since)
      ((waitingLids s hall id).filter fun lid => match (readCanopy s hall lid id).2 with
          | .ok v => v % 4 == 1
          | .error _ => false).foldl (fun s lid => (late lid).foldl (fun s p =>
            failClimber (s.updHall hall fun h => { h with parked := h.parked.erase p }) p.core p.slot 4 0) s) s
    | _ => s) s

/-- `REPLICATION_THRESHOLD`: hall, treelet. A treelet visited 4,096 times is copied to a free core of its image's die. -/
def execReplicationThreshold (s : State) : Host.Outcome State Fault Refusal :=
  event (fun s => match s.nums with
    | [hall, id] =>
      match (s.hall hall).canopy.find? fun c => c.id == id && decide (4096 ≤ c.visits) with
      | none => s
      | some c => match CanopyEntry.ofBits c.entry.toNat with
        | none => s
        | some e =>
          let ctx := launchCtx s c.lid
          let die := imageDie s ctx e.img
          let clear := s.updHall hall fun h => { h with canopy := h.canopy.map fun d => if d == c then { d with visits := 0 } else d }
          if e.state < 2 || e.pol ≠ 1 || 4 ≤ e.nown || (imagePieces s ctx 8 e.img ((e.size + 1) * 4096)).isNone ||
              (s.hall hall).pageIns.any (fun p => p.lid == c.lid && p.id == id) then clear
          else match (pagingOrder s c.lid die hall).find? fun q => arenaFree s c.lid q.2 e.slot e.size with
            | none => clear
            | some q =>
              (clear.updHall hall fun h => { h with pageIns := h.pageIns ++ [⟨c.lid, id, q.2, c.entry, 0, true⟩] }).post
                .treeletPageInFill (.msg { src := deviceAt q.2 0xFFFF, point := hall, key := c.lid, id := id })
    | _ => s) s

/-- `VISIT_COUNT_CLEAR`: hall; every 2^20 counts of `clk`. -/
def execVisitCountClear (s : State) : Host.Outcome State Fault Refusal :=
  event (fun s => match s.nums with
    | [hall] =>
      if 2 ^ 20 ≤ s.clkSince (s.hall hall).visitsAt then
        s.updHall hall fun h => { h with visitsAt := s.clk, canopy := h.canopy.map fun c => { c with visits := 0 } }
      else s
    | _ => s) s

/-! The pipe (R275, R390). -/

/-- `CLIMBER_CONTEXT_ENTRY`: core. The climber placed first enters one of 16 contexts. -/
def execClimberContextEntry (s : State) : Host.Outcome State Fault Refusal :=
  event (fun s => match s.nums with
    | [core] =>
      let c := s.core core
      match c.placedQ with
      | [] => s
      | k :: ks =>
        if c.active.length < 16 && s.issuing core then
          (s.setCst core k 2).updCore core fun c => { c with active := c.active ++ [k], placedQ := ks }
        else s
    | _ => s) s

/-- An instruction of the current climber that cannot go on yet: a register it names waits for an `atm` result, or it waits for
the climber's operations (R269, R271, R275, R390). -/
def climberHeld (s : State) (i : Instr) : Bool :=
  (match shapeOf i with
    | some sh => s.pending.any (namesReg sh ·)
    | none => false) ||
  (match i with
    | .fence _ mask scope => match s.curAwait with
      | .sent n => !fenceMet s mask scope.toNat n
      | _ => false
    | .fin g => activeMask s g != 0 && !settledHere s
    | .hop g _ => activeMask s g != 0 && !settledHere s
    | .nlink g => activeMask s g != 0 && !settledHere s && (match s.curClimber.await with
      | .answered _ v 0 => bitsAt v 0 2 ≥ 2
      | _ => false)
    | _ => false)

/-- A climber of the pipe that may issue, or end: its word is fetched and its operands are written (R275). -/
def climberReady (s : State) (core k : Nat) : Bool :=
  let c := s.climber core k
  match c.failed with
  | some _ => c.ops.isEmpty && c.atms.isEmpty
  | none =>
    decide (s.xbnd core ≤ (s.cpc core k).toNat) || match wordAt c.buf (s.cpc core k).toNat with
      | none => false
      | some w => match (decode w).toOption with
        | some i => !climberHeld { s with cur := .climber core k, ir := w } i
        | none => true

/-- `CLIMBER_ISSUE`: core. The ready climber that issued least recently issues its word, or ends; one whose `nbox` or `ntri` makes
its next access has issued already. -/
def execClimberIssue (s : State) : Host.Outcome State Fault Refusal :=
  event (fun s => match s.nums with
    | [core] =>
      if !s.issuing core then s
      else match (s.core core).active.find? (climberReady s core) with
        | none => s
        | some k =>
          let s := if (s.climber core k).probe.isSome then s
            else s.updCore core fun c => { c with active := c.active.filter (· != k) ++ [k] }
          match (s.climber core k).failed with
          | some (reason, cause) => endClimber s core k true reason cause
          | none =>
            if s.xbnd core ≤ (s.cpc core k).toNat then failClimber s core k 3 0x04
            else match wordAt (s.climber core k).buf (s.cpc core k).toNat with
              | none => s
              | some w => { s with cur := .climber core k, ir := w }
    | _ => s) s

end Sys2Proof.Machine
end

