-- ==== Sys2Proof/Machine/Launch.lean ====
section
/-! DEFINITION. Launches (R300-R312): validation, the order of the arbiter, placement, completion, `lnch` and the host's launch
rings; combining barriers (R327). -/

namespace Sys2Proof.Machine

/-! Fields of a record (R300). -/

def recBit (rec : BitVec 1024) (k : Nat) : Bool := rec.getLsbD k
def recPrio (rec : BitVec 1024) : Nat := bitsAt rec.toNat 16 4
def recChan (rec : BitVec 1024) : Bool := recBit rec 24
def recSys (rec : BitVec 1024) : Bool := recBit rec 25
def recClm (rec : BitVec 1024) : Bool := recBit rec 27
def recDi (rec : BitVec 1024) : Bool := recBit rec 28
def recEntry (rec : BitVec 1024) : Nat := bitsAt rec.toNat 32 32
def recCodeva (rec : BitVec 1024) : Nat := bitsAt rec.toNat 64 64
def recCodesz (rec : BitVec 1024) : Nat := bitsAt rec.toNat 128 32
/-- XBND in bytes. -/
def recXbnd (rec : BitVec 1024) : Nat := bitsAt rec.toNat 160 16 * 4096
def recAcch (rec : BitVec 1024) : Nat := bitsAt rec.toNat 192 8
def recCslot (rec : BitVec 1024) : Nat := bitsAt rec.toNat 208 16
def recLsb (rec : BitVec 1024) : Nat := bitsAt rec.toNat 224 32
def recArgva (rec : BitVec 1024) : Nat := bitsAt rec.toNat 256 64
def recCmpl (rec : BitVec 1024) : DWord := BitVec.ofNat 64 (rec.toNat / 2 ^ 320)
/-- Frame width in halls. -/
def recHalls (rec : BitVec 1024) : Nat := if bitsAt rec.toNat 408 4 = 0 then 8 else bitsAt rec.toNat 408 4
def recBcnt (rec : BitVec 1024) : Nat := bitsAt rec.toNat 412 4
def recLsbase (rec : BitVec 1024) : Nat := bitsAt rec.toNat 416 32
def recRstva (rec : BitVec 1024) : Nat := bitsAt rec.toNat 448 64

/-- Groups of a launch (R303). -/
def recGroups (rec : BitVec 1024) : Nat := extProd rec 2 (recLevels rec - 2) * recQ rec

/-- Groups of its gang (R305); CHAN or GN makes it the whole launch. -/
def recGang (rec : BitVec 1024) : Nat :=
  if recChan rec || recGn rec then recGroups rec
  else match ((List.range (recLevels rec)).filter fun k => 2 ≤ k && 3 ≤ levScope rec k && levScope rec k ≤ 5).getLast? with
    | some k => unitGroups rec k
    | none => 1

/-- The logical core of group G (R304). -/
def recCore (pkg : Nat) (rec : BitVec 1024) (g : Nat) : Nat :=
  let hc := recHalls rec
  let j := g % 16
  let h := g / 16
  coreWord pkg (h / (5 * hc) % 8) (4 * (h % hc) + j % 4) (4 * (h / hc % 5) + j / 4)

/-! Validation (R301). -/

/-- A reserved bit is set. -/
def recReserved (rec : BitVec 1024) : Bool :=
  bitsAt rec.toNat 20 4 != 0 || bitsAt rec.toNat 29 3 != 0 || bitsAt rec.toNat 396 4 != 0 ||
    (List.range 8).any fun k => bitsAt rec.toNat (539 + 64 * k) 37 != 0

/-- Every field is in its range, and what is built from them fits (reason 3). -/
def recFieldsOk (rec : BitVec 1024) : Bool :=
  decide (2 ≤ recLevels rec) && decide (recLevels rec ≤ 8) && decide (1 ≤ recWaves rec) && decide (recWaves rec ≤ 16) &&
  decide (8 ≤ recRegs rec) && decide (recRegs rec ≤ 320) && decide (recWaves rec * recRegs rec ≤ 2048) &&
  decide (0x1000 ≤ recXbnd rec) && decide (recXbnd rec ≤ 0x2EF000) &&
  recCodesz rec % 8 == 0 && decide (8 ≤ recCodesz rec) && decide (recCodesz rec ≤ recXbnd rec) &&
  recEntry rec % 8 == 0 && decide (recEntry rec < recCodesz rec) &&
  decide (recAcch rec ≤ 16) && decide (recCslot rec ≤ 256) && decide (recHalls rec ≤ 8) &&
  recLsb rec % 4096 == 0 && recLsbase rec % 4096 == 0 && (recArgva rec == 0 || decide (4096 ≤ recLsb rec)) &&
  decide (recXbnd rec ≤ recLsbase rec) && decide (recLsbase rec + recLsb rec ≤ 0x2F0000)

/-- One level keeps R302 and R305. -/
def levelOk (rec : BitVec 1024) (k : Nat) : Bool :=
  if recLevels rec ≤ k then levExt rec k == 0 && levScope rec k == 0
  else if k = 0 then levExt rec 0 == 32 && levScope rec 0 == 0
  else levExt rec k != 0 &&
    (if k = 1 then levScope rec 1 == 1 && levExt rec 1 % recWaves rec == 0
     else decide (2 ≤ levScope rec k) && decide (levScope rec k ≤ 6) && decide (levScope rec (k - 1) ≤ levScope rec k) &&
      (match levScope rec k with
       | 3 => [1, 2, 4, 8, 16].contains (unitGroups rec k)
       | 4 => 80 * recHalls rec % unitGroups rec k == 0
       | 5 => 640 * recHalls rec % unitGroups rec k == 0
       | _ => true))

/-- The level rules of R302-R305. -/
def recLevelsOk (rec : BitVec 1024) : Bool :=
  (List.range 8).all (levelOk rec) && (recLevels rec == 2 || levScope rec 2 != 2 || levExt rec 1 == recWaves rec) &&
    decide (recGroups rec < 2 ^ 32)

/-- VA of the data header (R312). -/
def dataHeader (rec : BitVec 1024) : Nat := recCodeva rec + (recCodesz rec + 127) / 128 * 128

/-- The hall unit of the arbiter (R308). -/
def arbiterHall : Nat := 0

/-- DB and DL of the data image; nothing when the header is refused (R312). -/
def dataImage (s : State) (rec : BitVec 1024) : Option (Nat × Nat) :=
  match (readVa s arbiterHall (recCtx rec) (dataHeader rec) 16).2 with
  | .error _ => none
  | .ok v =>
    let db := bitsAt v 0 32
    let dl := bitsAt v 32 32
    if v / 2 ^ 64 ≠ 0 || dl % 4 ≠ 0 || dl < 4 || recLsb rec < dl || db % 4 ≠ 0 || db < recLsbase rec ||
        recLsbase rec + recLsb rec < db + dl || (recArgva rec ≠ 0 && db < recLsbase rec + 256 && recLsbase rec < db + dl)
    then none else some (db, dl)

/-- The traversal descriptor of a node (R318). -/
def descriptor (s : State) (rec : BitVec 1024) (n : NodeRec) : Option Anchors :=
  let slot := Sparse.get {} s.graphs (recGslot rec)
  match (readVa s arbiterHall slot.ctx n.param 64).2 with
  | .error _ => none
  | .ok v =>
    let ancn := bitsAt v 192 16
    let ancb := bitsAt v 160 32
    let arl := bitsAt v 128 32
    let arb := bitsAt v 96 32
    let lo := recLsbase rec
    let hi := lo + recLsb rec
    let serves (node kind slots : Nat) : Bool := match nodeRecord s arbiterHall (recGslot rec) node with
      | some m => m.kind == kind && decide (slots ≤ 2 ^ m.log2n)
      | none => false
    if v / 2 ^ 352 ≠ 0 || bitsAt v 284 4 ≠ 0 || bitsAt v 269 3 ≠ 0 || 4096 < bitsAt v 256 13 || bitsAt v 252 4 ≠ 0 ||
        bitsAt v 236 4 ≠ 0 || bitsAt v 220 4 ≠ 0 || ancb % 32 ≠ 0 || arb % 4096 ≠ 0 || arl % 4096 ≠ 0 ||
        ancb < lo || hi < ancb + 32 * ancn || arb < lo || hi < arb + arl ||
        !serves (bitsAt v 208 12) 0 (15 * ancn) || !serves (bitsAt v 224 12) 0 ancn || !serves (bitsAt v 240 12) 4 ancn
    then none
    else match (readVa s arbiterHall slot.ctx (bitsAt v 288 64) 512).2 with
      | .error _ => none
      | .ok m => some { base := ancb, count := ancn, ahit := bitsAt v 208 12, shade := bitsAt v 224 12, fault := bitsAt v 240 12
                        stlen := bitsAt v 256 13, missb := bitsAt v 272 12, vmap := BitVec.ofNat 4096 m
                        canva := bitsAt v 0 64, canlen := bitsAt v 64 32, arb := arb, arl := arl }

/-- The launch record that a node of kind 0 or 4 names, read in the slot's context, is the one submitted (R316, R317); PARAM 0
names none, as the nodes of R380 do (log 47). -/
def paramOk (s : State) (rec : BitVec 1024) (n : NodeRec) : Bool :=
  n.param == 0 || match (readVa s arbiterHall (Sparse.get {} s.graphs (recGslot rec)).ctx n.param 128).2 with
    | .ok v => BitVec.ofNat 1024 v == rec
    | .error _ => false

/-- The node a GN launch serves, with what it sets in the NIs; nothing for reason 5. -/
def servedNode (s : State) (rec : BitVec 1024) : Option (NodeRec × Option Anchors) :=
  match nodeRecord s arbiterHall (recGslot rec) (recNode rec) with
  | none => none
  | some n =>
    if fixedKind n.kind || n.ringa % 64 ≠ 0 || n.ringa < recLsbase rec ||
        recLsbase rec + recLsb rec < n.ringa + 64 + 20 * 2 ^ n.log2n then none
    else if n.kind = 1 then (if recClm rec then (descriptor s rec n).map fun a => (n, some a) else none)
    else if paramOk s rec n then some (n, none) else none

/-- What validation reads is held by no request, lease or page operation (R95, R109). -/
def submitFree (s : State) (rec : BitVec 1024) : Bool :=
  (!recDi rec || readable s arbiterHall (recCtx rec) (dataHeader rec) 16) &&
  (!recGn rec || (nodeFree s arbiterHall (recGslot rec) (recNode rec) &&
    match nodeRecord s arbiterHall (recGslot rec) (recNode rec) with
    | some n => n.param == 0 || readable s arbiterHall (Sparse.get {} s.graphs (recGslot rec)).ctx n.param 128
    | none => true))

/-- Launches with groups never placed: the arbiter's table (R301). -/
def pendingCount (s : State) : Nat :=
  (s.launches.filter fun l => decide (l.next < l.total) && (l.phase == .pending || l.phase == .running)).length

/-- The outcome of a submission (R301), the first reason in the order 1, 3, 2, 3, 4, 5, 6. -/
def validate (s : State) (sub : Submission) : Nat :=
  let rec_ := sub.record
  if bitsAt rec_.toNat 0 8 ≠ 1 || recReserved rec_ then 1
  else if !recFieldsOk rec_ then 3
  else if !recLevelsOk rec_ then 2
  else if 640 * recHalls rec_ < recGang rec_ then 3
  else if recDi rec_ && (dataImage s rec_).isNone then 3
  else if !sub.priv && (recSys rec_ || (sub.ring.isNone && recCtx rec_ != sub.ctx)) then 4
  else if recGn rec_ && (servedNode s rec_).isNone then 5
  else if 1024 ≤ pendingCount s then 6
  else 0

/-- A launch joins the table under the next id (R306, R309). -/
def acceptLaunch (sub : Submission) (s : State) : State :=
  let n := s.accepted + 1
  let prio := if sub.ring.isNone && !isAgent sub.src then sub.prio else min (recPrio sub.record) sub.prio
  { s with accepted := n
           launches := s.launches ++ [{ lid := n % 2 ^ 31, record := sub.record, va := sub.va, prio := prio, sys := recSys sub.record
                                        ctx := recCtx sub.record, order := n, total := recGroups sub.record
                                        image := if recDi sub.record then dataImage s sub.record else none }] }

/-- `LAUNCH_SUBMIT`: accepted or refused; a wave is answered, a record of a host ring reported (R301, R306, R363). -/
def execLaunchSubmit (s : State) : Host.Outcome State Fault Refusal :=
  event (fun s => match s.arg with
    | .submit sub =>
      let r := validate s sub
      let s := if r = 0 then acceptLaunch sub s else s
      match sub.ring with
      | some i =>
        let s := { s with ringTurn := Sparse.set 0 s.ringTurn sub.prio i }
        if r = 0 then s else report s (reportBits 1 0 0 0 r i 0 sub.va s.clk 0)
      | none =>
        if isAgent sub.src then
          s.postAll [answerMsg { src := sub.src, id := sub.id } (if r = 0 then s.accepted % 2 ^ 31 else 2 ^ 31 + r) 0]
        else if r = 0 then s else report s (reportBits 1 0 0 0 r 0 0 sub.va s.clk 0)
    | _ => s) s

/-- `HOST_RING_COMMIT`: ring, slot, value (R306). -/
def execHostRingCommit (s : State) : Host.Outcome State Fault Refusal :=
  event (fun s => match s.nums with
    | [i, slot, value] => commitRing i slot (BitVec.ofNat 32 value) s
    | _ => s) s

/-! The order of the arbiter (R307). -/

/-- SYS launches come first, then higher effective priority. -/
def launchRank (l : Launch) : Nat := (if l.sys then 16 else 0) + l.prio

/-- A saved group that the arbiter is to resume. -/
def ownSaved (s : State) (lid : Nat) : List Saved := s.saved.filter fun v => v.own && v.group.lid == lid

/-- A launch has a gang to place or to resume. -/
def wantsPlace (s : State) (l : Launch) : Bool :=
  (l.phase == .pending || l.phase == .running) && (decide (l.next < l.total) || !(ownSaved s l.lid).isEmpty)

/-- Of two launches, the one offered first. -/
def offeredFirst (a b : Launch) : Launch :=
  if launchRank a < launchRank b || (launchRank a == launchRank b && decide (b.order < a.order)) then b else a

/-- The launch at the head (R307, R315). -/
def headLaunch (s : State) : Option Launch :=
  match s.launches.filter (wantsPlace s) with
  | [] => none
  | l :: ls => some (ls.foldl offeredFirst l)

/-! Where groups fit (R310, R311). -/

/-- A core's groups, with their records. -/
def recordsOn (s : State) (core : Nat) : List (Group × BitVec 1024) :=
  (residents s core).map fun g => (g, match s.launch? g.lid with
    | some l => l.record
    | none => 0)

/-- Two non-empty ranges meet. -/
def rangesMeet (a n b m : Nat) : Bool := decide (a < b + m) && decide (b < a + n) && n != 0 && m != 0

/-- Instances of the nodes that a traversal node names are on the core (R318). -/
def nodesPlaced (s : State) (core gslot : Nat) (a : Anchors) : Bool :=
  [a.ahit, a.shade, a.fault].all fun n => (instances s gslot n).any fun q => q.1.core == core && q.1.phase == .resident

/-- A core meets R310 for a group of a launch. -/
def fits (s : State) (l : Launch) (desc : Option Anchors) (core : Nat) : Bool :=
  let r := l.record
  let on := recordsOn s core
  let sum (f : Group × BitVec 1024 → Nat) : Nat := (on.map f).sum
  let cslots := sum (fun q => q.1.cslot) + recCslot r
  let c := s.core core
  !c.sealed && !c.off && (on.isEmpty || c.xbnd.toNat == recXbnd r) && (c.mchk.toNat < 16 * 2 ^ 16 || recAcch r == 0) &&
  decide (sum (fun q => q.1.waves) + recWaves r + c.supervisor.isSome.toNat ≤ 16) &&
  decide (sum (fun q => q.1.waves * q.1.regs) + recWaves r * recRegs r + 8 * c.supervisor.isSome.toNat ≤ 2048) &&
  on.all (fun q => recCodeva q.2 == recCodeva r && recCodesz q.2 == recCodesz r && recXbnd q.2 == recXbnd r && recCtx q.2 == recCtx r &&
    !rangesMeet q.1.pb q.1.pl (recLsbase r) (recLsb r) && q.1.lid != l.lid && !q.1.chan && q.1.pair.isNone) &&
  (!recChan r || on.isEmpty) && decide (sum (fun q => q.1.acch) + recAcch r ≤ 16) && decide (cslots ≤ 256) &&
  (!recClm r || decide (128 * cslots ≤ c.spillBytes)) &&
  (match desc with
   | some a => nodesPlaced s core (recGslot r) a
   | none => true)

/-- The cores of a hall in the order of their numbers. -/
def hallCores (pkg hall : Nat) : List Nat :=
  (List.range 16).map fun n => coreWord pkg (hall / 40) (hall % 40 % 8 * 4 + n % 4) (hall % 40 / 8 * 4 + n / 4)

/-- Cores taken and halls chosen so far in a plan: group, core; logical hall, physical hall. -/
structure Plan where
  cores : List (Nat × Nat) := []
  halls : List (Nat × Nat) := []
  deriving DecidableEq, Repr

/-- Cores of a hall that a plan may still use. -/
def openCores (s : State) (l : Launch) (desc : Option Anchors) (p : Plan) (hall : Nat) : List Nat :=
  (hallCores s.pkg hall).filter fun c => !(p.cores.any fun q => q.2 == c) && fits s l desc c

/-- The hall of a die with the most open cores, the lowest on a tie. -/
def bestHall (s : State) (l : Launch) (desc : Option Anchors) (p : Plan) (die : Nat) : Nat :=
  ((List.range 40).foldl (fun (best : Nat × Nat) i =>
    let n := (openCores s l desc p (die * 40 + i)).length
    if best.2 < n then (die * 40 + i, n) else best) (die * 40, 0)).1

/-- The physical hall that holds a logical hall of a launch. -/
def hallHeld (s : State) (l : Launch) (lh : Nat) : Option Nat :=
  (s.groups.find? fun g => g.lid == l.lid && hallOf g.lcore == lh).map fun g => hallOf g.core

/-- A plan with one more group, if a core of its hall is open. -/
def planOne (s : State) (l : Launch) (desc : Option Anchors) (item lcore : Nat) (p : Plan) : Option Plan :=
  let lh := hallOf lcore
  let ph := match p.halls.find? fun q => q.1 == lh with
    | some q => q.2
    | none => (hallHeld s l lh).getD (bestHall s l desc p (coreDie lcore))
  (openCores s l desc p ph).head?.map fun c => { cores := p.cores ++ [(item, c)], halls := (lh, ph) :: p.halls }

/-- A plan for groups, as number and logical core. -/
def planAll (s : State) (l : Launch) (desc : Option Anchors) : List (Nat × Nat) → Plan → Option Plan
  | [], p => some p
  | (i, lc) :: is, p => (planOne s l desc i lc p).bind (planAll s l desc is)

/-- What the traversal node of a launch sets in the NIs. -/
def descOf (s : State) (l : Launch) : Option Anchors :=
  if recGn l.record then (servedNode s l.record).bind (·.2) else none

/-- A group of the launch holds a logical core, resident or saved (R304). -/
def logicalHeld (s : State) (l : Launch) (lc : Nat) : Bool :=
  (s.groups.any fun g => g.lid == l.lid && g.lcore == lc) || s.saved.any fun v => v.group.lid == l.lid && v.group.lcore == lc

/-- The next gang of a launch that has never been placed: its groups with their logical cores. -/
def nextGang (s : State) (l : Launch) : List (Nat × Nat) :=
  ((List.range (min (recGang l.record) (l.total - l.next))).map fun i => (l.next + i, recCore s.pkg l.record (l.next + i)))

/-- The gang of a group's number. -/
def gangOf (l : Launch) (num : Nat) : Nat := num / recGang l.record

/-- The saved groups of the lowest saved gang of a launch. -/
def savedGang (s : State) (l : Launch) : List Saved :=
  match (ownSaved s l.lid).foldl (fun (b : Option Nat) v => some (min (b.getD (gangOf l v.group.num)) (gangOf l v.group.num))) none with
  | none => []
  | some k => (ownSaved s l.lid).filter fun v => gangOf l v.group.num == k

/-- Where the head launch's next gang goes, if it can be placed: saved groups by their group ids, others by number. -/
def headPlan (s : State) (l : Launch) : Option Plan :=
  match savedGang s l with
  | [] =>
    if (nextGang s l).any fun q => logicalHeld s l q.2 then none else planAll s l (descOf s l) (nextGang s l) {}
  | vs => planAll s l (descOf s l) (vs.map fun v => (v.gid, v.group.lcore)) {}

/-! Placement (R311). -/

/-- What placement copies is held by no request, lease or page operation (R95, R109). -/
def placeFree (s : State) (l : Launch) (core : Nat) : Bool :=
  let r := l.record
  ((!(residents s core).isEmpty) || readable s (hallOf core) l.ctx (recCodeva r) (recCodesz r)) &&
  (match l.image with
    | some (_, dl) => readable s (hallOf core) l.ctx (dataHeader r + 128) dl
    | none => true) &&
  (recArgva r == 0 || readable s (hallOf core) l.ctx (recArgva r) 256) && submitFree s r

/-- A fault of a copy of placement, or of a record read for it, ends the launch. -/
def placeFault (l : Launch) (num core va reason : Nat) (s : State) : State :=
  s.post .launchEndOnFault (.ending { lid := l.lid, g := num, core := core, slot := 0, cause := causeOf reason, pc := 0
                                      faddr := BitVec.ofNat 64 va, reason := reason, clk := s.clk })

/-- Bytes of a VA range copied into a local store by a hall's engine; the reason when it faults. -/
def copyIn (hall ctx need va n core off : Nat) (s : State) : State × Option Nat :=
  match readVaGo hall ctx need (n / 128 + 2) s va n with
  | (s, .error r) => (s, some r)
  | (s, .ok v) => (fillLs s core off n v, none)

/-- The core takes the launch's code (step 1). -/
def placeCode (l : Launch) (core : Nat) (s : State) : State × Option (Nat × Nat) :=
  if !(residents s core).isEmpty then (s, none)
  else
    let s := s.updCore core fun c => { c with xbnd := BitVec.ofNat 32 (recXbnd l.record) }
    match copyIn (hallOf core) l.ctx needFill (recCodeva l.record) (recCodesz l.record) core 0 s with
    | (s, some r) => (s, some (recCodeva l.record, r))
    | (s, none) => (s, none)

/-- The data image and the argument block (step 2). -/
def placeData (l : Launch) (core : Nat) (s : State) : State × Option (Nat × Nat) :=
  let r := l.record
  let (s, e) := if recDi r then
      match l.image with
      | none => (s, some (dataHeader r, 1))
      | some (db, dl) => match copyIn (hallOf core) l.ctx needRead (dataHeader r + 128) dl core db s with
        | (s, some k) => (s, some (dataHeader r + 128, k))
        | (s, none) => (s, none)
    else (s, none)
  match e with
  | some e => (s, some e)
  | none =>
    if recArgva r = 0 then (s, none)
    else match copyIn (hallOf core) l.ctx needRead (recArgva r) 256 core (recLsbase r) s with
      | (s, some k) => (s, some (recArgva r, k))
      | (s, none) => (s, none)

/-- A binding entry of the argument block; one with a reserved bit is not valid. -/
def Binding.ofBits (v : Nat) : Binding :=
  { valid := decide (bitsAt v 160 1 = 1) && decide (v / 2 ^ 161 = 0), obj := BitVec.ofNat 64 v, reg := BitVec.ofNat 64 (v / 2 ^ 64)
    len := BitVec.ofNat 32 (v / 2 ^ 128) }

/-- The binding table a group starts with. -/
def placeBinds (s : State) (r : BitVec 1024) (core : Nat) : List Binding :=
  if recArgva r = 0 then []
  else (List.range (recBcnt r)).map fun k => Binding.ofBits (s.ls core (recLsbase r + 32 * k) 32)

/-- The ring of an instance, empty, cursor 0 attached (R317). -/
def initRing (core : Nat) (n : NodeRec) (s : State) : State :=
  let size := 2 ^ n.log2n
  let s := s.setLs core n.ringa (64 + 4 * size) 0
  s.setLs core n.ringa 8 (n.log2n + 2 ^ 8 + 5 * 2 ^ 16 + (n.ringa + 64 + 4 * size) * 2 ^ 32)

/-- Treelets that the canopy gives a logical core. -/
def placeTreelets (l : Launch) (a : Anchors) (core lcore : Nat) (s : State) : State :=
  (List.range a.canlen).foldl (fun s id =>
    match (readVa s (hallOf core) l.ctx (a.canva + 16 * id) 16).2 with
    | .error _ => s
    | .ok v => match CanopyEntry.ofBits v with
      | none => s
      | some e => if 2 ≤ e.state && e.owners.contains (lcore % 8192) then addTreelet core id e.slot e.size s else s) s

/-- Wave slots of a core with no wave, lowest first. -/
def openSlots (s : State) (core : Nat) : List Nat :=
  (List.range 16).filter fun w => !(s.wave core w).live && (s.core core).supervisor != some w

/-- A wave at its launch (R198, R303). -/
def startWave (gid index : Nat) (entry : Word) : Wave :=
  { live := true, gid := gid, index := index, launchMask := 0xFFFFFFFF
    splits := [{ live := true, pc := entry, mask := 0xFFFFFFFF }, {}, {}, {}] }

/-- The waves of a placed group start, their save areas zero. -/
def startWaves (gid core : Nat) (entry : Word) (slots : List Nat) (s : State) : State :=
  ((List.range slots.length).zip slots).foldl (fun s q =>
    (s.setWave core q.2 (startWave gid q.1 entry)).setLs core (saveArea q.2) 192 0) s

/-- The channels of a core at the start of a CHAN group (R153). -/
def resetChannels (core : Nat) (s : State) : State := s.updCore core fun c => { c with channels := [] }

/-- The core at the place of another in the hall of a core. -/
def placeIn (core other : Nat) : Nat :=
  coreWord (corePkg core) (coreDie core) (coreX core / 4 * 4 + coreX other % 4) (coreY core / 4 * 4 + coreY other % 4)

/-- A frame entry written; where its logical hall has moved, none of its groups being resident, the other entries of the hall are
rewritten with it, each to its place in the new hall (R9). -/
def setFrame (lid lcore core : Nat) (s : State) : State :=
  let follow (f : Frame) : Frame :=
    if f.lid == lid && hallOf f.logical == hallOf lcore && hallOf f.physical != hallOf core &&
        !(s.groups.any fun g => g.lid == lid && g.lcore == f.logical) then
      { f with physical := placeIn core f.physical }
    else f
  { s with frames := ((s.frames.filter fun f => !(f.lid == lid && f.logical == lcore)).map follow) ++ [⟨lid, lcore, core, none⟩] }

/-- A group of a launch with what the launch record, and the node of a GN launch, give it. -/
def newGroup (gid : Nat) (l : Launch) (num lcore core : Nat) (slots : List Nat) (node : Option (NodeRec × Option Anchors)) : Group :=
  let r := l.record
  { gid := gid, lid := l.lid, num := num, core := core, lcore := lcore, slots := slots, waves := recWaves r, regs := recRegs r
    pb := recLsbase r, pl := recLsb r, chan := recChan r, cslot := recCslot r, acch := recAcch r
    placed := gid, coalt := BitVec.ofNat 32 ((node.map fun n => n.1.coal).getD 0)
    inst := node.map fun n => { gslot := recGslot r, node := recNode r, kind := n.1.kind, ringa := n.1.ringa, log2n := n.1.log2n
                                thr := n.1.thr, prods := n.1.prods }
    anchors := node.bind (·.2) }

/-- A group placed on a core (R311). -/
def commitGroup (l : Launch) (num lcore core : Nat) (s : State) : State :=
  let r := l.record
  let gid := s.placements + 1
  let node := if recGn r then servedNode s r else none
  let s := setFrame l.lid lcore core s
  let (s, e1) := placeCode l core s
  let (s, e2) := placeData l core s
  let slots := (openSlots s core).take (recWaves r)
  let g : Group := { newGroup gid l num lcore core slots node with binds := placeBinds s r core }
  let s := { s with groups := s.groups ++ [g], placements := gid }
  match e1, e2, recGn r && node.isNone with
  | some e, _, _ => placeFault l num core e.1 e.2 s
  | none, some e, _ => placeFault l num core e.1 e.2 s
  | none, none, true => placeFault l num core 0 1 s
  | none, none, false =>
    let s := if recChan r then resetChannels core s else s
    let s := match node with
      | some n => initRing core n.1 s
      | none => s
    let s := match node.bind (·.2) with
      | some a => placeTreelets l a core lcore s
      | none => s
    startWaves gid core (BitVec.ofNat 32 (recEntry r)) slots s

/-- `GANG_PLACE`: launch. The gang at the head is placed whole. -/
def execGangPlace (s : State) : Host.Outcome State Fault Refusal :=
  event (fun s => match s.nums with
    | [lid] => match headLaunch s with
      | none => s
      | some l =>
        if l.lid != lid || !(savedGang s l).isEmpty then s
        else match headPlan s l with
          | none => s
          | some p =>
            let s := s.updLaunch lid fun l => { l with phase := .running, next := l.next + p.cores.length }
            p.cores.foldl (fun s q => commitGroup l q.1 (recCore s.pkg l.record q.1) q.2 s) s
    | _ => s) s

/-! Completion (R308). -/

/-- Where a pointer leads for a unit of a hall, in the context and frame of a launch. -/
def unitAim (s : State) (hall : Nat) (l : Launch) (p : DWord) (need : Nat) : State × Option Aim :=
  if ptrKind p = 0 then
    match translate s hall l.ctx p.toNat need with
    | (t, .error _) => (t, none)
    | (t, .ok tr) => (t, some ⟨tr.dpa, pteKey tr.pte, pointOf t tr.dpa tr.pte, false⟩)
  else if ptrKind p = 3 || (ptrKind p = 2 && (!l.sys || !coreExists (ptrCore p))) then (s, none)
  else (s, (lsTarget s l.lid p).map fun (q : Nat × Nat) => ⟨q.1, q.2, pointOf s q.1 0, false⟩)

/-- An add sent by the arbiter. -/
def arbiterAdd (l : Launch) (p : DWord) (v : Nat) (s : State) : State :=
  match unitAim s arbiterHall l p needBoth with
  | (s, none) => s
  | (s, some a) => s.freshId.post (if isLsKey a.key then .lsReductionAtomic else .reductionDevice) (.msg
      { src := deviceAt (unitCore s arbiterHall) 0xFFFF, tgt := a.key, va := p, ctx := l.ctx, key := a.slot, scope := 5
        arg := BitVec.ofNat 128 v, point := a.point, group := s.nextId })

/-- CMPL is incremented. -/
def incrementCmpl (l : Launch) (s : State) : State :=
  if recCmpl l.record = 0 || (recCmpl l.record).toNat % 4 ≠ 0 then s else arbiterAdd l (recCmpl l.record) 1 s

/-- Every operation of a launch is complete at device scope. -/
def launchQuiet (l : Launch) : Bool := l.ops.all (·.applied)

/-- The last group has exited and the operations are complete. -/
def mayComplete (s : State) (l : Launch) : Bool :=
  l.phase == .running && l.next == l.total && !(s.groups.any fun g => g.lid == l.lid) &&
    !(s.saved.any fun v => v.group.lid == l.lid) && launchQuiet l

/-- A launch is over: its frame goes. -/
def closeLaunch (lid : Nat) (s : State) : State :=
  ({ s with frames := s.frames.filter fun f => f.lid != lid, cbars := s.cbars.filter fun c => c.lid != lid }).updLaunch lid
    fun l => { l with phase := .done, ops := [] }

/-- `LAUNCH_COMPLETION`: launch. -/
def execLaunchCompletion (s : State) : Host.Outcome State Fault Refusal :=
  event (fun s => match s.nums with
    | [lid] => match s.launch? lid with
      | none => s
      | some l => if mayComplete s l then closeLaunch lid (incrementCmpl l s) else s
    | _ => s) s

/-! `lnch` and `lnchw` (R309). -/

/-- A message of the arbiter leaves its core; a paired group holds it (R355). -/
def sendTask (t : Task) (s : State) : State :=
  if s.paired then
    s.updGroup s.curWave.gid fun g => { g with pair := g.pair.map fun p => { p with held := p.held ++ [t] } }
  else s.postAll [t]

/-- The submission of the issuing wave. -/
def submitHere (va v id : Nat) (s : State) : State :=
  sendTask ⟨.launchSubmit, .submit
    { record := BitVec.ofNat 1024 v, va := va, ring := none, src := issuerOf s 0x6D 0, priv := s.privileged, ctx := s.curCtx
      prio := match s.curLaunch with
        | some l => if l.sys then 16 else l.prio
        | none => 0
      id := id }⟩ s

/-- The launch named by an answer is over. -/
def launchOver (s : State) (v : Nat) : Bool :=
  decide (2 ^ 31 ≤ v) || match s.launch? v with
    | some l => l.phase == .done
    | none => true

/-- The body of both forms: the checks, the submission, the wait for its outcome and, for `lnchw`, for the launch. -/
def lnchBody (wait : Bool) (g : Guard) (d a : RegNo) (s : State) : Exec :=
  match s.curAwait with
  | .sent _ => .wait 16 s
  | .answered _ v _ =>
    if wait && !launchOver s v then .wait 16 s else .done (putLanes s (active s g) d.toNat fun _ => BitVec.ofNat 32 v)
  | _ =>
    let va := src64 s a.toNat (firstLane s g)
    if ptrKind va = 2 && !s.privileged then .trap 0x18 va s
    else if ptrKind va ≠ 0 || va.toNat / 2 ^ 57 ≠ 0 then .trap 0x17 va s
    else if va.toNat % 128 ≠ 0 then .trap 0x06 va s
    else if !readable s (hallOf s.curCore) s.curCtx va.toNat 128 then .wait 16 s
    else match readVa s (hallOf s.curCore) s.curCtx va.toNat 128 with
      | (s, .error r) => .trap (reasonCause r) va s
      | (s, .ok v) => .wait 16 (setAwait (.sent s.nextId) (submitHere va.toNat v s.nextId s).freshId)

/-- `LNCH`. -/
def execLnch (g : Guard) (d : RegNo) (a : RegNo) (s : State) : Host.Outcome State Fault Refusal :=
  issue (.lnch g d a) (lnchBody false g d a) s

/-- `LNCHW`. -/
def execLnchw (g : Guard) (d : RegNo) (a : RegNo) (s : State) : Host.Outcome State Fault Refusal :=
  issue (.lnchw g d a) (lnchBody true g d a) s

/-! Combining barriers (R327). -/

/-- What a wave's active lanes combine to. -/
def combineReplies (sub : Nat) (vs : List Word) : Word :=
  match sub with
  | 1 => cbarValue 1 (vs.map (· &&& 0x7FFFFFFF))
  | k => cbarValue k vs

/-- The body of the five forms. -/
def cbarBody (sub : Nat) (g : Guard) (scope : BitVec 3) (d a : RegNo) (s : State) : Exec :=
  let m := activeMask s g
  if s.curWave.launchMask &&& ~~~s.curWave.exited != m then .trap 0x09 ((s.curWave.launchMask ^^^ m).setWidth 64) s
  else match s.curGroup, s.curLaunch with
    | some gr, some l => match levelOf l.record scope.toNat with
      | none => .trap 0x1C (BitVec.ofNat 64 scope.toNat) s
      | some k =>
        let unit := unitOf l.record k gr.num
        let index := s.curWave.index
        let mine (c : Cbar) : Bool := c.lid == l.lid && c.level == k && c.unit == unit
        match s.curAwait with
        | .sent _ =>
          (match (s.cbars.find? mine).bind fun c => c.replies.find? fun r => r.1 == gr.num && r.2.1 == index with
           | none => .wait 9 s
           | some (_, _, bad, v) =>
             let taken (c : Cbar) : Cbar :=
               if mine c then { c with replies := c.replies.filter fun r => !(r.1 == gr.num && r.2.1 == index) } else c
             let t := { s with cbars := s.cbars.map taken }
             if bad then .trap 0x1C (BitVec.ofNat 64 (sub + v.toNat * 256)) t
             else .done (putLanes t (active t g) d.toNat fun _ => v))
        | _ =>
          let v := combineReplies sub ((active s g).map fun x => src s a.toNat x)
          .wait 9 (setAwait (.sent s.nextId) (s.post .cbarArrival (.msg
            { src := issuerOf s 0x5A index, ctx := l.lid, id := s.nextId, imm := v, kind := sub, reason := k
              va := BitVec.ofNat 64 unit, arg := BitVec.ofNat 128 gr.num })).freshId)
    | _, _ => .wait 9 s

/-- `CBAR_SYNC`. -/
def execCbarSync (g : Guard) (scope : BitVec 3) (d : RegNo) (s : State) : Host.Outcome State Fault Refusal :=
  issue (.cbarSync g scope d) (cbarBody 0 g scope d 384) s

/-- `CBAR_MAX`. -/
def execCbarMax (g : Guard) (scope : BitVec 3) (d : RegNo) (a : RegNo) (s : State) : Host.Outcome State Fault Refusal :=
  issue (.cbarMax g scope d a) (cbarBody 1 g scope d a) s

/-- `CBAR_MAXN`. -/
def execCbarMaxn (g : Guard) (scope : BitVec 3) (d : RegNo) (a : RegNo) (s : State) : Host.Outcome State Fault Refusal :=
  issue (.cbarMaxn g scope d a) (cbarBody 2 g scope d a) s

/-- `CBAR_ADD`. -/
def execCbarAdd (g : Guard) (scope : BitVec 3) (d : RegNo) (a : RegNo) (s : State) : Host.Outcome State Fault Refusal :=
  issue (.cbarAdd g scope d a) (cbarBody 3 g scope d a) s

/-- `CBAR_MIN`. -/
def execCbarMin (g : Guard) (scope : BitVec 3) (d : RegNo) (a : RegNo) (s : State) : Host.Outcome State Fault Refusal :=
  issue (.cbarMin g scope d a) (cbarBody 4 g scope d a) s

/-- An arrival at a combining unit: it opens a generation, joins it, or is answered as a mismatch. -/
def arriveCbar (m : Msg) (l : Launch) (s : State) : State :=
  let unit := m.va.toNat
  let num := m.arg.toNat
  let mine (c : Cbar) : Bool := c.lid == l.lid && c.level == m.reason && c.unit == unit
  let s := if s.cbars.any mine then s else { s with cbars := s.cbars ++ [⟨l.lid, m.reason, unit, 0, 0, 0, [], []⟩] }
  let expect := unitWaves s l m.reason unit
  let join (c : Cbar) : Cbar :=
    let c := if c.arrived.isEmpty then { c with expect := expect, sub := m.kind } else c
    if c.sub ≠ m.kind then { c with replies := c.replies ++ [(num, m.src.lane, true, BitVec.ofNat 32 c.sub)] }
    else settleCbar { c with arrived := c.arrived ++ [(num, m.src.lane, m.imm)] }
  { s with cbars := s.cbars.map fun c => if mine c then join c else c }

/-- `CBAR_ARRIVAL` (R327): the launch in `ctx`, the level in `reason`, the unit in `va`, the group in `arg`, the wave's
index in its issuer's lane. -/
def execCbarArrival (s : State) : Host.Outcome State Fault Refusal :=
  onMsg (fun m s => match s.launch? m.ctx with
    | some l => arriveCbar m l s
    | none => s) s

end Sys2Proof.Machine
end

