-- ==== Sys2Proof/Machine/Preempt.lean ====
section
/-! DEFINITION. Pre-emption and resumption (R343-R346), halting (R347), the supervisor (R351) and the end of a launch on a fault
(R352). -/

namespace Sys2Proof.Machine

/-! When a group may leave its core (R343). -/

/-- A key lies in the partition of a group on its core. -/
def inPart (g : Group) (k : Nat) : Bool := isLsKey k && keyCore k == g.core && inRange (k % 2 ^ 35) 1 g.pb g.pl

/-- A message is on its way to the partition of a group. -/
def towardsPart (g : Group) (t : Task) : Bool := match t.arg with
  | .msg m => inPart g m.tgt || inPart g m.scope
  | _ => false

/-- The issuer is a wave of a group. -/
def ofGroup (g : Group) (i : Issuer) : Bool := !i.climber && i.core == g.core && g.slots.contains i.slot

/-- The numbers its splits wait for. -/
def awaitedIds (s : State) (g : Group) : List Nat :=
  (g.slots.flatMap fun w => (s.wave g.core w).splits).filterMap fun p => match p.await with
    | .sent id => some id
    | _ => none

/-- The request of a blocking instruction of a group is still on its way. -/
def awaitedTask (g : Group) (ids : List Nat) (t : Task) : Bool :=
  match t.op, t.arg with
  | .watchRetry, _ => false
  | .cbarArrival, _ => false
  | _, .msg m => ofGroup g m.src && ids.contains m.id
  | _, .copy c => ofGroup g c.src && ids.contains c.id
  | _, .submit b => ofGroup g b.src && ids.contains b.id
  | _, _ => false

/-- A ray of a launch is in flight. -/
def rayInFlight (lid : Nat) (t : Task) : Bool := match t.op, t.arg with
  | .ray, .msg m => m.id == lid
  | .raySpillWrite, _ => true
  | _, _ => false

/-- A word or a credit of a channel is in flight. -/
def channelTask (t : Task) : Bool := match t.op with
  | .channelWord => true
  | .channelCreditReturn => true
  | _ => false

/-- An `mxal` of a wave has been granted its banks and is about to retire (R242). -/
def aboutToHold (w : Wave) : Bool :=
  w.acc.2 != 0 && w.splits.any fun p => p.park == .waiting 12 && match p.await with
    | .sent _ => true
    | _ => false

/-- A wave holds nothing that R343 waits for. -/
def waveMayLeave (s : State) (core slot : Nat) : Bool :=
  let w := s.wave core slot
  let c := s.core core
  w.block.isNone && w.leases.isEmpty && w.atms.isEmpty && !c.pairWait.contains slot && !(c.pairs.any fun o => o == some slot) &&
    !(c.mma.any fun m => m.slot == slot) && !aboutToHold w

/-- Climber slots of a launch on a core. -/
def climbersOf (s : State) (core lid : Nat) : List Nat := (usedSlots s core).filter fun k => s.clid core k == lid

/-- An answer that a group waits for is owed by a pool line until its write-back: what it answers has been applied (R86, R343). -/
def answerOwed (s : State) (g : Group) (ids : List Nat) : Bool :=
  s.lines.any fun l => l.2.owed.any fun o => o.written.any (awaitedTask g ids)

/-- Every condition of R343 for a group. -/
def mayLeave (s : State) (g : Group) : Bool :=
  let ids := awaitedIds s g
  !answerOwed s g ids &&
  g.pair.isNone && g.slots.all (waveMayLeave s g.core) &&
  (climbersOf s g.core g.lid).all (fun k => (s.climber g.core k).ops.isEmpty && (s.climber g.core k).atms.isEmpty) &&
  s.inTransit.all fun t =>
    !towardsPart g t && !awaitedTask g ids t && !((g.cslot != 0 || g.anchors.isSome) && rayInFlight g.lid t) && !(g.chan && channelTask t)

/-! The image (R344). -/

/-- The slot of a group that holds the matrix turn. -/
def turnOf (s : State) (g : Group) : Option Nat := (s.core g.core).turn.filter fun w => g.slots.contains w

/-- Climber entries of a launch on a core: slots, then spilled rays, oldest first. -/
def climberEntries (s : State) (core lid : Nat) : List (BitVec 1024) :=
  let c := s.core core
  let slots := (climbersOf s core lid).map fun k => s.ls core (climberBase k) 128
  let ring := (((List.range c.spill.length).filter fun i => c.spill.getD i 0 == lid).map fun i => s.ls core (spillAddr c i) 128)
  let hbm := (((List.range c.hbmSpill.length).filter fun i => c.hbmSpill.getD i 0 == lid).map fun i => s.devRead (hbmAddr c i) 128 0)
  (slots ++ ring ++ hbm).map (BitVec.ofNat 1024)

/-- The bytes of a group's registers, of its accumulator runs. -/
def regsBytes (g : Group) : Nat := g.slots.length * g.regs * 128
def runLength (s : State) (g : Group) (w : Nat) : Nat := (s.wave g.core w).acc.2
def accBytes (s : State) (g : Group) : Nat := (g.slots.map fun w => runLength s g w * 16384).sum

/-- Where the sections behind the wave blocks begin, from the lengths of those before them. -/
structure Layout where
  regs : Nat
  acc : Nat
  latches : Nat
  channels : Nat
  climbers : Nat
  part : Nat
  bytes : Nat

def layoutOf (regs acc : Nat) (turn chan : Bool) (nclm pl : Nat) : Layout :=
  let r := 256 + 1024 + 16 * 1024
  let a := r + regs
  let l := a + acc
  let c := l + (if turn then 17408 else 0)
  let k := c + (if chan then 4096 else 0)
  { regs := r, acc := a, latches := l, channels := c, climbers := k, part := k + 128 * nclm, bytes := k + 128 * nclm + pl }

def groupLayout (s : State) (g : Group) (nclm : Nat) : Layout :=
  layoutOf (regsBytes g) (accBytes s g) (turnOf s g).isSome g.chan nclm g.pl

/-- The image header. -/
def headerBits (s : State) (g : Group) (nclm bytes : Nat) : Nat :=
  let va := match s.launch? g.lid with
    | some l => l.va
    | none => 0
  let flags := (turnOf s g).isSome.toNat + g.chan.toNat * 2 + (g.slots.any fun w => (s.wave g.core w).tm).toNat * 4
  (g.slots.map fun w => runLength s g w * 2 ^ (528 + 5 * w) + 2 ^ (512 + w)).sum + va % 2 ^ 64 * 2 ^ 448 + nclm % 2 ^ 32 * 2 ^ 416 +
    g.lcore % 2 ^ 27 * 2 ^ 389 + flags * 2 ^ 384 + g.num % 2 ^ 32 * 2 ^ 352 + g.lid % 2 ^ 32 * 2 ^ 320 + s.clk % 2 ^ 64 * 2 ^ 256 +
    bytes / 128 % 2 ^ 24 * 2 ^ 8 + 1

/-- A section of an image written through the hall's engine. -/
def putImage (hall ctx va : Nat) (s : State) (off n v : Nat) : State := (writeVa s hall ctx (va + off) n v).1

/-- A register of a wave as 128 bytes, lane 0 first. -/
def regBytes (s : State) (core slot r : Nat) : Nat :=
  (List.range 32).foldr (fun l acc => (s.vreg core slot r l).toNat + 2 ^ 32 * acc) 0

/-- A value of `n` bits at a bit of a block. -/
def fieldAt (at_ n v : Nat) : Nat := v % 2 ^ n * 2 ^ at_

/-- A set of small numbers as a mask. -/
def maskBits (n : Nat) (xs : List Nat) : Nat := (((List.range n).filter xs.contains).map (2 ^ ·)).sum
def bitsMask (n v : Nat) : List Nat := (List.range n).filter v.testBit

/-- A barrier in 16 bytes: its fields' places are the model's (log 56). -/
def barrierBits (b : Barrier) : Nat :=
  fieldAt 0 32 b.gen.toNat + fieldAt 32 8 b.expect + fieldAt 40 1 b.count.isSome.toNat + fieldAt 48 16 (maskBits 16 b.arrived) +
    fieldAt 64 32 (b.count.getD 0)

def barrierFrom (v : Nat) (masks : List (Nat × Word)) : Barrier :=
  { gen := BitVec.ofNat 32 v, expect := bitsAt v 32 8, count := if v.testBit 40 then some (bitsAt v 64 32) else none
    arrived := bitsMask 16 (bitsAt v 48 16), masks := masks }

/-- An entry of the binding table (R267). -/
def Binding.bits (b : Binding) : Nat :=
  b.obj.toNat + b.reg.toNat * 2 ^ 64 + b.len.toNat * 2 ^ 128 + b.valid.toNat * 2 ^ 160

/-- The CSRs of a group. -/
def groupCsrs (g : Group) : List Word := [g.tvec, g.cregb, g.cregl, g.ifw, g.ifh, g.coalt]

/-- The flow control of a channel in a byte: credits, words in its buffer, and what a sealed neighbour has done (log 56). -/
def channelBits (c : Channel) : Nat :=
  fieldAt 0 2 c.credits + fieldAt 2 2 c.words.length + fieldAt 4 1 c.sealedIn.toNat + fieldAt 5 1 c.readTrapped.toNat +
    fieldAt 6 1 c.writeTrapped.toNat

/-- The group block (R344): barriers, binding table, group CSRs from byte 768, channel credits from byte 832 (log 56). -/
def groupBlock (g : Group) (channels : List Channel) : Nat :=
  ((List.range 16).map fun b => fieldAt (128 * b) 128 (barrierBits (barrierOf g b))).sum +
  ((List.range 16).map fun k => fieldAt (2048 + 256 * k) 256 (g.binds.getD k {}).bits).sum +
  ((List.range 6).map fun k => fieldAt (6144 + 32 * k) 32 ((groupCsrs g).getD k 0).toNat).sum +
  ((List.range 16).map fun k => fieldAt (6656 + 8 * k) 8 (channelBits (channels.getD k {}))).sum

/-- A park state in three bits, and the number that goes with it. -/
def parkBits : Park → Nat × Nat
  | .running => (0, 0)
  | .join _ => (1, 0)
  | .barrier b => (2, b)
  | .sleep t => (3, t)
  | .yield _ _ => (0, 0)
  | .waiting why => (4, why)

def parkFrom (clk k v : Nat) : Park :=
  match k with
  | 1 => .join clk
  | 2 => .barrier v
  | 3 => .sleep v
  | 4 => .waiting v
  | _ => .running

/-- A split in 16 bytes (log 56). -/
def splitBits (p : Split) : Nat :=
  fieldAt 0 32 p.mask.toNat + fieldAt 32 22 p.pc.toNat + fieldAt 54 4 p.depth + fieldAt 58 1 p.live.toNat +
    fieldAt 59 3 (parkBits p.park).1 + fieldAt 64 64 (parkBits p.park).2

/-- A split taken from an image; what it waits for is not of the image. -/
def splitFrom (clk v : Nat) (p : Split) : Split :=
  { p with mask := BitVec.ofNat 32 v, pc := BitVec.ofNat 32 (bitsAt v 32 22), depth := bitsAt v 54 4, live := v.testBit 58
           park := parkFrom clk (bitsAt v 59 3) (bitsAt v 64 64) }

/-- The CSRs of a wave, what R198 and R338 keep for it, and whether it held the turn (R257). -/
def waveCsrs (w : Wave) (turn : Bool) : List Word :=
  w.fstat :: (List.range 4).map (w.scr.getD · 0) ++
    [w.launchMask, w.exited, BitVec.ofNat 32 w.index, BitVec.ofNat 32 (w.tm.toNat + 2 * maskBits 4 w.freeAtTrap + 32 * turn.toNat)]

/-- The block of a wave but for its stacks and save area (R344): splits, CSRs from byte 512, reservation table from byte 576, arrival
masks from byte 704 (log 56). -/
def waveBlock (g : Group) (w : Wave) (turn : Bool) : Nat :=
  ((List.range 4).map fun p => fieldAt (128 * p) 128 (splitBits (w.splits.getD p {}))).sum +
  ((List.range 9).map fun k => fieldAt (4096 + 32 * k) 32 ((waveCsrs w turn).getD k 0).toNat).sum +
  ((List.range w.resv.length).map fun k => match w.resv.getD k ⟨0, 0, 0⟩ with
    | ⟨node, gid, credits⟩ => fieldAt (4608 + 128 * k) 128 (fieldAt 0 32 node + fieldAt 32 64 gid + fieldAt 96 32 credits)).sum +
  ((List.range 16).map fun b => fieldAt (5632 + 32 * b) 32 (Sparse.get 0 (barrierOf g b).masks w.index).toNat).sum

/-- A wave taken from its block. -/
def waveFrom (clk v : Nat) (w : Wave) : Wave :=
  let csr (k : Nat) : Word := BitVec.ofNat 32 (bitsAt v (4096 + 32 * k) 32)
  { w with
    splits := (List.range w.splits.length).map fun p => splitFrom clk (bitsAt v (128 * p) 128) (w.splits.getD p {})
    fstat := csr 0, scr := [csr 1, csr 2, csr 3, csr 4], launchMask := csr 5, exited := csr 6, index := (csr 7).toNat
    tm := (csr 8).getLsbD 0, freeAtTrap := bitsMask 4 ((csr 8).toNat / 2)
    resv := (List.range 8).filterMap fun k =>
      let r := bitsAt v (4608 + 128 * k) 128
      if bitsAt r 32 64 = 0 then none else some ⟨bitsAt r 0 32, bitsAt r 32 64, bitsAt r 96 32⟩ }

/-- A wave's block says that it held the turn. -/
def heldTurn (v : Nat) : Bool := v.testBit (4096 + 32 * 8 + 5)

/-- The arrival masks of barrier `b` in the blocks of waves, by index. -/
def masksFrom (b : Nat) (blocks : List (Nat × Nat)) : List (Nat × Word) :=
  blocks.foldl (fun m q => Sparse.set 0 m q.1 (BitVec.ofNat 32 (bitsAt q.2 (5632 + 32 * b) 32))) []

/-- A group taken from its block; `blocks` are those of its waves by index. -/
def groupFrom (v : Nat) (blocks : List (Nat × Nat)) (g : Group) : Group :=
  let csr (k : Nat) : Word := BitVec.ofNat 32 (bitsAt v (6144 + 32 * k) 32)
  { g with
    bars := (List.range 16).foldl (fun m b => Sparse.set {} m b (barrierFrom (bitsAt v (128 * b) 128) (masksFrom b blocks))) []
    binds := (List.range g.binds.length).map fun k => Binding.ofBits (bitsAt v (2048 + 256 * k) 256)
    tvec := csr 0, cregb := csr 1, cregl := csr 2, ifw := csr 3, ifh := csr 4, coalt := csr 5 }

/-- The sections of an image but for its header; `waves` as they are saved. -/
def putSections (g : Group) (waves : List (Nat × Wave)) (ctx va : Nat) (y : Layout) (climbers : List (BitVec 1024)) (s : State) : State :=
  let hall := hallOf g.core
  let put := putImage hall ctx va
  let s := put s 256 1024 (groupBlock g ((List.range 16).map fun k => s.chan g.core k))
  let s := (List.range 16).foldl (fun s w => put s (1280 + 1024 * w) 1024 (match waves.find? fun q => q.1 == w with
    | some q => waveBlock g q.2 (turnOf s g == some w)
    | none => 0)) s
  let s := g.slots.foldl (fun s w =>
    put (put s (imageStacks w) 256 (s.ls g.core (stackAddr w 0 0) 256)) (imageSaveArea w) 192 (s.ls g.core (saveArea w) 192)) s
  let s := ((List.range g.slots.length).zip g.slots).foldl (fun s (q : Nat × Nat) =>
    (List.range g.regs).foldl (fun s r => put s (y.regs + (q.1 * g.regs + r) * 128) 128 (regBytes s g.core q.2 r)) s) s
  let s := (g.slots.foldl (fun (p : State × Nat) w =>
    let n := runLength p.1 g w * 16384
    (if n = 0 then p.1 else put p.1 p.2 n (Memory.load (p.1.core g.core).acc ((p.1.wave g.core w).acc.1 * 16384) n), p.2 + n)) (s, y.acc)).1
  let s := if (turnOf s g).isSome then put s y.latches 17408 (Memory.load (s.core g.core).latches 0 17408) else s
  let s := if g.chan then (List.range 32).foldl (fun s i =>
      put s (y.channels + 128 * i) 128 (((s.chan g.core (i / 2)).words.getD (i % 2) 0).toNat)) s
    else s
  let s := ((List.range climbers.length).zip climbers).foldl (fun s (q : Nat × BitVec 1024) => put s (y.climbers + 128 * q.1) 128 q.2.toNat) s
  if g.pl = 0 then s else put s y.part g.pl (s.ls g.core g.pb g.pl)

/-- The first line of an image, its header, on its way to its home: the last that is written. -/
def imageLine (s : State) (ctx va : Nat) (v : Nat) (i : Issuer) (id bytes : Nat) : List Task :=
  match walk s ctx va with
  | .error _ => []
  | .ok f =>
    let k := ptePa f.pte / 2 ^ f.page * 2 ^ f.page + va % 2 ^ f.page
    [⟨.preemptionSaveRestoreLine, .msg
      { src := i, tgt := k, key := pteKey f.pte, point := pointOf s k f.pte, bytes := cellsOf k 128 v, id := id
        arg := BitVec.ofNat 128 bytes }⟩]

/-- `PREEMPTION_SAVE_RESTORE_LINE` (KIND 0x53): a line written at its home, or in a local store; the header of a `ctxsv`'s
image answers it. -/
def execPreemptionSaveRestoreLine (s : State) : Host.Outcome State Fault Refusal :=
  onMsg (fun m s =>
    let s := if isLsKey m.tgt then { s with mem := Memory.writeCells s.mem m.bytes }
      else (homeWrite s (lineOf m.tgt) m.key m.point m.bytes .device 0).getD s
    if isAgent m.src then s.postAll [answerMsg m m.arg.toNat 0] else s) s

/-! Saving (R343, R344). -/

/-- Credit requests of the waves of a group that wait at instances: the instance's node and group, and the request. -/
def creditWaits (s : State) (g : Group) : List (Nat × Nat × Waiter) :=
  (s.groups ++ s.saved.map (·.group)).flatMap fun h => match h.inst with
    | some n => (n.waiters.filter fun w => ofGroup g w.src).map fun w => (n.node, h.gid, w)
    | none => []

/-- What a blocked split keeps (R343): a combining barrier its arrival, a credit request what it was granted, a request for banks
(R257), an answer; the rest is abandoned. -/
def savedAwait (s : State) (waits : List (Nat × Nat × Waiter)) (sp : Split) : Await :=
  match sp.await with
  | .settling _ => .none
  | .atRing _ => .none
  | .sent id =>
    if sp.park == .waiting 9 || sp.park == .waiting 12 then sp.await
    else match waits.find? fun q => q.2.2.id == id with
      | none => .none
      | some q => if q.2.2.src.maj = 0x52 then .none
        else .answered id (q.2.2.got + ((s.group? q.2.1).map (·.lcore)).getD 0 * 2 ^ 32) 0x100
  | a => a

def savedPark (p : Park) : Park := match p with
  | .yield _ _ => .running
  | .waiting 9 => .waiting 9
  | .waiting _ => .running
  | p => p

def savedSplit (s : State) (waits : List (Nat × Nat × Waiter)) (sp : Split) : Split :=
  { sp with await := savedAwait s waits sp, park := savedPark sp.park, buf := [] }

/-- Credits granted to a waiting request enter the reservation table. -/
def keepCredits (w : Wave) (q : Nat × Nat × Waiter) : Wave :=
  if q.2.2.got = 0 then w
  else if w.resv.any (fun r => r.gid == q.2.1) then
    { w with resv := w.resv.map fun r => if r.gid == q.2.1 then { r with credits := r.credits + q.2.2.got } else r }
  else { w with resv := w.resv ++ [⟨q.1, q.2.1, q.2.2.got⟩] }

/-- Waiting credit requests leave the instances, their grants kept. -/
def detachWaiters (g : Group) (h : Group) : Group :=
  { h with inst := h.inst.map fun n => { n with waiters := n.waiters.filter fun w => !ofGroup g w.src } }

/-- Climber slots and spilled rays of a launch leave a core; operations that its climbers have in flight pass to the launch. -/
def dropClimbers (core lid : Nat) (s : State) : State :=
  let ops := (climbersOf s core lid).flatMap fun k => (s.climber core k).ops
  let s := if ops.isEmpty then s else s.updLaunch lid fun l => { l with ops := l.ops ++ ops }
  let s := (climbersOf s core lid).foldl (fun s k => freeClimber s core k) s
  let c := s.core core
  let keep := (List.range c.spill.length).filter fun i => c.spill.getD i 0 != lid
  let rays := keep.map fun i => (c.spill.getD i 0, s.ls core (spillAddr c i) 128)
  let far := ((List.range c.hbmSpill.length).filter fun i => c.hbmSpill.getD i 0 != lid).map fun i =>
    (c.hbmSpill.getD i 0, s.devRead (hbmAddr c i) 128 0)
  if c.spill.length = keep.length && c.hbmSpill.length = far.length then s
  else
    let s := s.updCore core fun c => { c with spill := [], hbmSpill := [] }
    (rays ++ far).foldl (fun s (q : Nat × Nat) => spillRay core q.1 (q.2 % 2 ^ 896) s) s

/-- Commands issued before a group is saved follow physical pointers into its partition to its image (R129). -/
def redirectCopies (r : Redirect) (s : State) : State :=
  let add (c : CopyCmd) : CopyCmd := { c with moved := c.moved ++ [r] }
  { s with halls := s.halls.map fun (h : Nat × Hall) => (h.1, { h.2 with queue := h.2.queue.map add })
           agenda := s.agenda.map fun t => match t.arg with
             | .copy c => { t with arg := .copy (add c) }
             | _ => t }

/-- Splits of a group that hold words of channels, the one whose instruction came last first. -/
def insertBegan (s : State) (core : Nat) (q : Nat × Nat) : List (Nat × Nat) → List (Nat × Nat)
  | [] => [q]
  | r :: rs =>
    let began (q : Nat × Nat) : Nat := ((s.wave core q.1).splits.getD q.2 {}).began
    if began q < began r then r :: insertBegan s core q rs else q :: r :: rs

/-- Words that abandoned instructions consumed stand in their channels again (R29, R343). -/
def giveBackAll (g : Group) (s : State) : State :=
  (((g.slots.flatMap fun w => (List.range 4).map fun p => (w, p)).filter fun q =>
      !((s.wave g.core q.1).splits.getD q.2 {}).taken.isEmpty).foldl (fun l q => insertBegan s g.core q l) []).foldl
    (fun s q => giveBack g.core q.1 q.2 s) s

/-- A group is saved at a VA of a context: its image is written, its core freed, its frame entry marked. `i` and `id` are
answered with the image's bytes once the header is written. -/
def saveGroup (g : Group) (ctx va : Nat) (own : Bool) (i : Issuer) (id : Nat) (s : State) : State :=
  let climbers := if g.cslot != 0 || g.anchors.isSome then climberEntries s g.core g.lid else []
  let y := groupLayout s g climbers.length
  let head := headerBits s g climbers.length y.bytes
  let waits := creditWaits s g
  let s := giveBackAll g s
  let s := { s with groups := s.groups.map (detachWaiters g)
                    saved := s.saved.map fun (v : Saved) => { v with group := detachWaiters g v.group }
                    watches := s.watches.filter fun w => !ofGroup g w.src }
  let waves := g.slots.map fun w =>
    let x := s.wave g.core w
    let x := (waits.filter fun q => q.2.2.src.slot == w).foldl keepCredits x
    (w, { x with splits := x.splits.map (savedSplit s waits), clkLatch := none, pairing := none, stopped := false })
  let s := putSections g waves ctx va y climbers (endSubs s g.core g.gid 2)
  let c := s.core g.core
  let g' : Group := { g with phase := .saved, inst := g.inst.map fun n => { n with takers := [] } }
  let v : Saved := { gid := g.gid, va := va, ctx := ctx, group := g', waves := waves, turn := turnOf s g
                     nclm := climbers.length, bytes := y.bytes, clk := s.clk
                     own := own, bankAsks := c.accWait.filter fun q => g.slots.contains q.1
                     turnAsks := c.turnWait.filter fun w => g.slots.contains w }
  let s := if climbers.isEmpty then s else dropClimbers g.core g.lid s
  let s := redirectCopies ⟨g.core, g.pb, g.pl, g.lid, g.lcore⟩ (leaveCore g 2 s)
  let s := if g.chan then resetChannels g.core s else s
  let s := { s with saved := s.saved ++ [v]
                    frames := s.frames.map fun (f : Frame) =>
                      if f.lid == g.lid && f.logical == g.lcore then { f with saved := some va } else f }
  let s := moveWatches (fun k => if inPart g k then (imageAt s v (k % 2 ^ 35)).map fun (q : Nat × Nat) => (q.1, q.2, pointOf s q.1 0) else none) s
  let s := putImage (hallOf g.core) ctx va s 128 128 (head / 2 ^ 1024)
  s.postAll (imageLine s ctx va (head % 2 ^ 1024) i id y.bytes)

/-! The arbiter's pre-emption (R307, R343). -/

/-- Context in which the arbiter's image range is translated (log 30). -/
def imageCtx : Nat := 0

/-- The lowest place of the arbiter's range free for an image, besides those taken: VA and bytes. -/
def imagePlace (s : State) (taken : List (Nat × Nat)) (bytes : Nat) : Option Nat :=
  let top := (s.imageBase + 127) / 128 * 128
  let used := taken ++ (s.saved.filter (·.own)).map fun v => (v.va, v.bytes)
  (sortNats (top :: used.map fun v => v.1 + v.2)).find? fun a =>
    decide (top ≤ a) && decide (a + bytes ≤ s.imageBase + s.imageBytes) && !used.any fun v => rangesMeet a bytes v.1 v.2

/-- Groups of a gang resident. -/
def gangGroups (s : State) (l : Launch) (k : Nat) : List Group := s.groups.filter fun g => g.lid == l.lid && gangOf l g.num == k

/-- Resident gangs that a rank may pre-empt: rank, latest placement, launch, gang. -/
def lowerGangs (s : State) (rank : Nat) : List (Nat × Nat × Nat × Nat) :=
  (s.launches.filter fun l => l.phase == .running && launchRank l < rank).flatMap fun l =>
    let gs := s.groups.filter fun g => g.lid == l.lid
    ((gs.map fun g => gangOf l g.num).eraseDups).map fun k =>
      (launchRank l, (((gs.filter fun g => gangOf l g.num == k).map (·.placed)).foldl max 0), l.lid, k)

/-- Of two gangs, the one pre-empted first: lower rank, then later placed. -/
def goesFirst (a b : Nat × Nat × Nat × Nat) : Bool := decide (a.1 < b.1) || (a.1 == b.1 && decide (b.2.1 ≤ a.2.1))

def insertGang (x : Nat × Nat × Nat × Nat) : List (Nat × Nat × Nat × Nat) → List (Nat × Nat × Nat × Nat)
  | [] => [x]
  | y :: ys => if goesFirst x y then x :: y :: ys else y :: insertGang x ys

/-- The state without gangs, to see whether the head would fit. -/
def withoutGangs (s : State) (gs : List (Nat × Nat × Nat × Nat)) : State :=
  { s with groups := s.groups.filter fun g => !gs.any fun q => q.2.2.1 == g.lid && match s.launch? g.lid with
      | some l => gangOf l g.num == q.2.2.2
      | none => false }

/-- The shortest run of gangs from the front whose removal lets the head be placed. -/
def victimRun (s : State) (l : Launch) (taken : List (Nat × Nat × Nat × Nat)) :
    List (Nat × Nat × Nat × Nat) → Option (List (Nat × Nat × Nat × Nat))
  | [] => none
  | q :: qs =>
    let now := taken ++ [q]
    if (headPlan (withoutGangs s now) l).isSome then some now else victimRun s l now qs

/-- Gangs of a run that are not needed drop out, the last first. -/
def pruneRun (s : State) (l : Launch) : List (Nat × Nat × Nat × Nat) → List (Nat × Nat × Nat × Nat) → List (Nat × Nat × Nat × Nat)
  | [], kept => kept
  | q :: qs, kept =>
    if (headPlan (withoutGangs s (qs.reverse ++ kept)) l).isSome then pruneRun s l qs kept else pruneRun s l qs (q :: kept)

/-- The gangs the arbiter pre-empts now: launch and gang. -/
def victims (s : State) : List (Nat × Nat) :=
  match headLaunch s with
  | none => []
  | some l =>
    if (headPlan s l).isSome then []
    else match victimRun s l [] ((lowerGangs s (launchRank l)).foldr insertGang []) with
      | none => []
      | some run => (pruneRun s l run.reverse []).map fun q => (q.2.2.1, q.2.2.2)

/-- The bytes of a group's image. -/
def imageLength (s : State) (g : Group) : Nat :=
  (groupLayout s g (if g.cslot != 0 || g.anchors.isSome then climberEntries s g.core g.lid else []).length).bytes

/-- The local store that a save reads holds an uncorrectable word (R166). -/
def sectionsBad (s : State) (g : Group) : Bool :=
  !s.badLs.isEmpty && (lsBad s (lsKey g.core g.pb) g.pl || g.slots.any fun w =>
    lsBad s (lsKey g.core (stackAddr w 0 0)) 256 || lsBad s (lsKey g.core (saveArea w)) 192)

/-- Places of the arbiter's range for the images of groups, where every line can be written and is held by nothing. -/
def imagePlaces (s : State) : List Group → List (Nat × Nat) → Option (List (Group × Nat))
  | [], _ => some []
  | g :: gs, taken =>
    let n := imageLength s g
    match imagePlace s taken n with
    | none => none
    | some va =>
      if (lineTrouble (hallOf g.core) imageCtx (n / 128) s va).2.isSome || !vaFree s imageCtx va n then none
      else (imagePlaces s gs ((va, n) :: taken)).map fun ps => (g, va) :: ps

/-- The groups of a gang saved together, or none of them (R305); a core whose store a save cannot read is sealed. -/
def saveAll (gs : List Group) (s : State) : State :=
  if gs.any (sectionsBad s) then (gs.filter (sectionsBad s)).foldl (fun s g => sealCore g.core s) s
  else match imagePlaces s gs [] with
  | none => s
  | some ps => ps.foldl (fun s q => saveGroup q.1 imageCtx q.2 true .device 0 s) s

/-- A paired group is to close its interval and end the pairing (R355). -/
def closePairing (g : Group) (s : State) : State :=
  (g.slots.foldl (fun s w => s.updWave g.core w fun w => { w with stopped := true }) s).updGroup g.gid fun g =>
    { g with pair := g.pair.map fun p => { p with leaving := true } }

/-- A gang is pre-empted: its pairings close first, and it is saved once every group may leave (R305, R343, R355). -/
def preemptGang (gs : List Group) (s : State) : State :=
  if gs.any (fun g => g.pair.isSome) then (gs.filter fun g => g.pair.isSome).foldl (fun s g => closePairing g s) s
  else if gs.all (mayLeave s) then saveAll gs s
  else s

/-- `GANG_PREEMPT`: launch, gang. -/
def execGangPreempt (s : State) : Host.Outcome State Fault Refusal :=
  event (fun s => match s.nums with
    | [lid, k] => match s.launch? lid with
      | none => s
      | some l =>
        if (victims s).contains (lid, k) then preemptGang (gangGroups s l k) s else s
    | _ => s) s

/-- The resident groups of the gang of a group. -/
def gangWith (s : State) (g : Group) : List Group := match s.launch? g.lid with
  | some l => gangGroups s l (gangOf l g.num)
  | none => [g]

/-- `PREEMPTION_SEAL_FRAME_COMMAND` (KIND 0x06): the gang of a group is pre-empted, a core sealed, a frame entry written. -/
def execPreemptionSealFrameCommand (s : State) : Host.Outcome State Fault Refusal :=
  event (fun s => match s.arg with
    | .ctrl (.preempt gid) => match s.group? gid with
      | none => s
      | some g => preemptGang (gangWith s g) s
    | .ctrl (.seal core) => sealCore core s
    | .ctrl (.frame lid logical physical) => setFrame lid logical physical s
    | _ => s) s

/-! Resumption (R345). -/

/-- Runs of accumulator banks for waves, each the lowest free one. -/
def giveRuns (core : Nat) : List (Nat × Nat) → State → Option State
  | [], s => some s
  | (w, n) :: ws, s =>
    if n = 0 then giveRuns core ws (s.updWave core w fun x => { x with acc := (0, 0) })
    else match freeRun s core n with
      | none => none
      | some b => giveRuns core ws (s.updWave core w fun x => { x with acc := (b, n) })

/-- The wave slots of a saved group on a new core: old and new. -/
def newSlots (s : State) (v : Saved) (core : Nat) : List (Nat × Nat) := v.group.slots.zip (openSlots s core)

/-- A core has what a saved group needs: R310 and contiguous runs, in the hall of the resident groups of its logical hall (R9), and no
group on its logical core (R304). -/
def fitsBut (s : State) (l : Launch) (v : Saved) (core : Nat) : Bool :=
  let runs := (newSlots s v core).map fun q => (q.2, (Sparse.get {} v.waves q.1).acc.2)
  (match hallHeld s l (hallOf v.group.lcore) with
    | some h => h == hallOf core
    | none => true) && !(s.groups.any fun g => g.lid == l.lid && g.lcore == v.group.lcore) &&
  fits s l (if v.group.anchors.isSome then descOf s l else none) core && (giveRuns core runs s).isSome

/-- An image can be read now: its lines are held by nothing, and no message is on its way to it. -/
def imageReady (s : State) (l : Launch) (v : Saved) (core : Nat) : Bool :=
  decide (4 ≤ s.clkSince v.clk) && vaFree s v.ctx v.va v.bytes && placeFree s l core &&
    !s.inTransit.any fun t => match t.op, t.arg with
      | .preemptionSaveRestoreLine, .msg _ => true
      | _, _ => towardsImage s v t

/-- A core takes a saved group now; a group that held the turn finds it free, and takes it ahead of every waiting request, once no
accepted `mma` reads the latches (R248, R257). -/
def fitsSaved (s : State) (l : Launch) (v : Saved) (core : Nat) : Bool :=
  fitsBut s l v core && imageReady s l v core && (v.turn.isNone || ((s.core core).turn.isNone && (s.core core).mma.isEmpty))

/-- A restored wave. -/
def wakeWave (gid : Nat) (acc : Nat × Nat) (w : Wave) : Wave := { w with live := true, gid := gid, acc := acc }

/-- `n` bytes of an image from an offset. -/
def imagePart (img off n : Nat) : Nat := img / 2 ^ (8 * off) % 2 ^ (8 * n)

/-- The registers of a wave from an image. -/
def loadRegs (core slot regs img off : Nat) (s : State) : State :=
  (List.range (regs * 32)).foldl (fun s k =>
    s.setVreg core slot (k / 32) (k % 32) (BitVec.ofNat 32 (imagePart img (off + 4 * k) 4))) s

/-- A channel from an image: its byte of the group block, and its words. -/
def imageChannel (img off k : Nat) : Channel :=
  let v := imagePart img (1088 + k) 1
  { credits := bitsAt v 0 2, sealedIn := v.testBit 4, readTrapped := v.testBit 5, writeTrapped := v.testBit 6
    words := (List.range (bitsAt v 2 2)).map fun j => BitVec.ofNat 1024 (imagePart img (off + 128 * (2 * k + j)) 128) }

/-- Climber entries of an image, in order. -/
def imageClimbers (img off n : Nat) : List Nat := (List.range n).map fun i => imagePart img (off + 128 * i) 112

/-- The layout of a saved group's image. -/
def savedLayout (v : Saved) : Layout :=
  layoutOf (v.group.slots.length * v.group.regs * 128) ((v.waves.map fun (p : Nat × Wave) => p.2.acc.2 * 16384).sum) v.turn.isSome
    v.group.chan v.nclm v.group.pl

/-- A group restored from its image on a core (R257, R345). -/
def restoreGroup (l : Launch) (v : Saved) (core img : Nat) (s : State) : State :=
  let slots := newSlots s v core
  let y := savedLayout v
  let (s, e) := placeCode l core s
  let block (w : Nat) : Nat := imagePart img (1280 + 1024 * w) 1024
  let g : Group := { groupFrom (imagePart img 256 1024) (v.waves.map fun q => (q.2.index, block q.1)) v.group with
    core := core, slots := slots.map (·.2), phase := .resident, placed := s.placements + 1 }
  let s := setFrame g.lid g.lcore core
    { s with groups := s.groups ++ [g], placements := s.placements + 1, saved := s.saved.filter fun x => x.gid != v.gid }
  let runs := slots.map fun q => (q.2, (Sparse.get {} v.waves q.1).acc.2)
  let s := (giveRuns core runs s).getD s
  let s := slots.foldl (fun s (q : Nat × Nat) =>
    let s := s.setWave core q.2 (wakeWave g.gid (s.wave core q.2).acc (waveFrom s.clk (block q.1) (Sparse.get {} v.waves q.1)))
    let s := fillLs s core (stackAddr q.2 0 0) 256 (imagePart img (imageStacks q.1) 256)
    fillLs s core (saveArea q.2) 192 (imagePart img (imageSaveArea q.1) 192)) s
  let s := ((List.range slots.length).zip slots).foldl (fun s (q : Nat × Nat × Nat) =>
    loadRegs core q.2.2 g.regs img (y.regs + q.1 * g.regs * 128) s) s
  let s := (slots.foldl (fun (p : State × Nat) (q : Nat × Nat) =>
    let r := (p.1.wave core q.2).acc
    (p.1.updCore core fun c => { c with acc := Memory.store c.acc (r.1 * 16384) (r.2 * 16384) (imagePart img p.2 (r.2 * 16384)) },
     p.2 + r.2 * 16384)) (s, y.acc)).1
  let s := match slots.find? fun q => v.turn.isSome && heldTurn (block q.1) with
    | some q => s.updCore core fun c => { c with turn := some q.2, latches := Memory.store c.latches 0 17408 (imagePart img y.latches 17408) }
    | none => s
  let moved (w : Nat) : Nat := ((slots.find? fun q => q.1 == w).map (·.2)).getD 0
  let s := s.updCore core fun c => { c with
    accWait := c.accWait ++ v.bankAsks.map fun q => (moved q.1, q.2), turnWait := c.turnWait ++ v.turnAsks.map moved }
  let s := if g.chan then s.updCore core fun c =>
      { c with channels := (List.range 16).foldl (fun m k => Sparse.set {} m k (imageChannel img y.channels k)) [] } else s
  let s := if g.pl = 0 then s else fillLs s core g.pb g.pl (imagePart img y.part g.pl)
  let s := moveWatches (fun k => (imageOffset s v k).map fun off => (lsKey core off, 0, 400 + core)) s
  let s := match g.anchors with
    | some a => placeTreelets l a core g.lcore s
    | none => s
  let s := (imageClimbers img y.climbers v.nclm).foldl (fun s r => placeRay core g.lid r s) s
  match e with
  | some e => placeFault l g.num core e.1 e.2 s
  | none => s

/-- The bytes of an image, read by a hall's engine. -/
def readImage (hall : Nat) (v : Saved) (s : State) : State × Except Nat Nat :=
  readVaGo hall v.ctx needRead (v.bytes / 128 + 2) s v.va v.bytes

/-- A saved group resumes on a core; an image that cannot be read ends its launch. -/
def resumeOn (l : Launch) (v : Saved) (core : Nat) (s : State) : State :=
  match readImage (hallOf core) v s with
  | (s, .error r) => placeFault l v.group.num core v.va r s
  | (s, .ok img) => restoreGroup l v core img s

/-- The head's saved gang, with the cores it goes to, when it can resume but for a turn that it takes. -/
def resumeCores (s : State) : Option (Launch × List (Saved × Nat)) :=
  match headLaunch s with
  | none => none
  | some l =>
    let vs := savedGang s l
    match vs, headPlan s l with
    | [], _ => none
    | _, none => none
    | vs, some p =>
      let cores := vs.map fun v => (v, ((p.cores.find? fun q => q.1 == v.gid).map (·.2)).getD 0)
      if cores.all fun q => fitsBut s l q.1 q.2 then some (l, cores) else none

/-- The same when it can resume. -/
def resumePlan (s : State) : Option (Launch × List (Saved × Nat)) :=
  (resumeCores s).filter fun p => p.2.all fun q => fitsSaved s p.1 q.1 q.2

/-- A group about to resume on a core takes its turn, also by a `ctxld` that waits for it: no waiting request gets it (R257). -/
def turnReserved (s : State) (core : Nat) : Bool :=
  ((List.range 16).any fun w => (s.wave core w).splits.any fun p => p.await == .resuming) ||
  match resumeCores s with
  | some (_, qs) => qs.any fun q => q.2 == core && q.1.turn.isSome
  | none => false

/-- `GROUP_RESUME`: group. Its gang resumes together. -/
def execGroupResume (s : State) : Host.Outcome State Fault Refusal :=
  event (fun s => match s.nums with
    | [gid] => match resumePlan s with
      | none => s
      | some (l, qs) =>
        if (qs.head?.map fun q => q.1.gid) == some gid then qs.foldl (fun s q => resumeOn l q.1 q.2 s) s else s
    | _ => s) s

/-! `ctxsv` and `ctxld` (R346). -/

/-- The operands of both: VA and third word of the lowest active lane. -/
def ctxVa (s : State) (g : Guard) (a : RegNo) : DWord := src64 s a.toNat (firstLane s g)
def ctxWord (s : State) (g : Guard) (a : RegNo) : Word := src s (a.toNat + 2) (firstLane s g)

/-- Another group of the same gang exists. -/
def gangShared (s : State) (t : Group) : Bool :=
  match s.launch? t.lid with
  | none => false
  | some l => (s.groups ++ s.saved.map (·.group)).any fun g => g.lid == t.lid && g.gid != t.gid && gangOf l g.num == gangOf l t.num

/-- `ctxsv` once its group is known. -/
def saveHere (t : Group) (va : DWord) (out : State → Nat → Exec) (s : State) : Exec :=
  if t.pair.isSome then .wait 16 (closePairing t s)
  else if !mayLeave s t || !vaFree s s.curCtx va.toNat (imageLength s t) then .wait 16 s
  else if sectionsBad s t then .seal s
  else match lineTrouble (hallOf s.curCore) s.curCtx (imageLength s t / 128) s va.toNat with
    | (s, some r) => out s (0x80000005 + r * 16)
    | (s, none) => .wait 16 (saveGroup t s.curCtx va.toNat false (issuerOf s 0x7D 0) s.nextId (setAwait (.sent s.nextId) s.freshId))

/-- `CTXSV`. -/
def execCtxsv (g : Guard) (d : RegNo) (a : RegNo) (s : State) : Host.Outcome State Fault Refusal :=
  issue (.ctxsv g d a) (fun s =>
    let out (s : State) (v : Nat) : Exec := .done (putLanes s (active s g) d.toNat fun _ => BitVec.ofNat 32 v)
    let va := ctxVa s g a
    let slot := (ctxWord s g a).toNat % 32
    match s.curAwait with
    | .sent _ => .wait 16 s
    | .answered _ v _ => out s v
    | _ =>
      if ptrKind va ≠ 0 || va.toNat / 2 ^ 57 ≠ 0 then .trap 0x17 va s
      else if va.toNat % 128 ≠ 0 then .trap 0x06 va s
      else match (residents s s.curCore).find? fun t => t.slots.contains slot with
        | none => out s 0x80000001
        | some t =>
          if t.gid = s.curWave.gid then out s 0x80000001
          else if gangShared s t then out s 0x80000003
          else saveHere t va out s) s

/-- A group as an image of its launch gives it, where the package keeps nothing of it: from the header `h` and the launch's record
(R346, log 91). -/
def groupOfImage (s : State) (l : Launch) (h va ctx bytes : Nat) : Saved :=
  let r := l.record
  let gid := s.placements + 1
  let slots := bitsMask 16 (bitsAt h 512 16)
  let node := if recGn r then servedNode s r else none
  { gid := gid, va := va, ctx := ctx, nclm := bitsAt h 416 32, bytes := bytes, clk := bitsAt h 256 64, own := false
    turn := if h.testBit 384 then slots.head? else none
    group := { newGroup gid l (bitsAt h 352 32) (recCore s.pkg r (bitsAt h 352 32)) 0 slots node with
      phase := .saved, binds := List.replicate 16 {} }
    waves := ((List.range slots.length).zip slots).map fun q =>
      (q.2, { startWave gid q.1 0 with acc := (0, bitsAt h (528 + 5 * q.2) 5) }) }

/-- The saved group that a well-formed image header names, of a running launch of this package: the one the package keeps, or one
made from the image. `LEN` is what the other fields make it. -/
def headerNames (s : State) (va ctx h : Nat) : Option (Launch × Saved) :=
  let slots := bitsMask 16 (bitsAt h 512 16)
  let run (w : Nat) : Nat := bitsAt h (528 + 5 * w) 5
  match s.launch? (bitsAt h 320 32) with
  | none => none
  | some l =>
    let r := l.record
    let num := bitsAt h 352 32
    let y := layoutOf (slots.length * recRegs r * 128) ((slots.map fun w => run w * 16384).sum) (h.testBit 384) (recChan r) (bitsAt h 416 32)
      (recLsb r)
    if bitsAt h 0 8 ≠ 1 || bitsAt h 32 224 ≠ 0 || h / 2 ^ 608 ≠ 0 || bitsAt h 387 2 ≠ 0 || l.phase != .running || l.total ≤ num ||
        slots.length ≠ recWaves r || bitsAt h 448 64 ≠ l.va || bitsAt h 389 27 ≠ recCore s.pkg r num % 2 ^ 27 ||
        h.testBit 385 != recChan r || ((List.range 16).any fun w => !slots.contains w && run w != 0) || bitsAt h 8 24 ≠ y.bytes / 128 then none
    else match s.saved.find? fun v => v.group.lid == l.lid && v.group.num == num && v.clk % 2 ^ 64 == bitsAt h 256 64 with
      | some v => some (l, { v with va := va, ctx := ctx, nclm := bitsAt h 416 32, bytes := y.bytes })
      | none => some (l, groupOfImage s l h va ctx y.bytes)

/-- `CTXLD`. A group that held the turn keeps the core's for itself while it waits (R257). -/
def execCtxld (g : Guard) (d : RegNo) (a : RegNo) (s : State) : Host.Outcome State Fault Refusal :=
  issue (.ctxld g d a) (fun s =>
    let out (s : State) (v : Nat) : Exec := .done (putLanes s (active s g) d.toNat fun _ => BitVec.ofNat 32 v)
    let va := ctxVa s g a
    let core := s.curCore
    if ptrKind va ≠ 0 || va.toNat / 2 ^ 57 ≠ 0 then .trap 0x17 va s
    else if va.toNat % 128 ≠ 0 then .trap 0x06 va s
    else if !readable s (hallOf core) s.curCtx va.toNat 256 then .wait 16 s
    else if ctxWord s g a ≠ 0 then .trap 0x01 s.ir s
    else match readVa s (hallOf core) s.curCtx va.toNat 256 with
      | (s, .error _) => out s 0x80000001
      | (s, .ok h) => match headerNames s va.toNat s.curCtx h with
        | none => out s 0x80000001
        | some (l, v) =>
          if !fitsBut s l v core then out s 0x80000003
          else if !fitsSaved s l v core then .wait 16 (if v.turn.isSome then setAwait .resuming s else s)
          else match readImage (hallOf core) v s with
            | (s, .error _) => out s 0x80000001
            | (s, .ok img) =>
              let low := ((newSlots s v core).map (·.2)).headD 0
              out (restoreGroup l v core img s) low) s

/-! Halt (R347). -/

/-- Every core of the package, by core word. -/
def allCores (s : State) : List Nat :=
  (List.range 256).flatMap fun k => (List.range 20).map fun y => coreWord s.pkg (k / 32) (k % 32) y

/-- A core is to halt; one that is already keeps the split that halted it. -/
def setHalted (core : Nat) (s : State) : State := s.updCore core fun c => { c with halted := true }

/-- The issuing core is to halt: it stops once its lease blocks are closed, and the issuing split, behind the `halt`, issues nothing
before the core is resumed (R347). -/
def haltHere (s : State) : State :=
  (setHalted s.curCore s).updCore s.curCore fun c => { c with haltBy := some (s.cur.slot * 4 + s.cur.split) }

/-- `HALT`. -/
def execHalt (g : Guard) (s : State) : Host.Outcome State Fault Refusal :=
  issue (.halt g) (fun s => .done (haltHere s)) s

/-- `HALT_ALL`. -/
def execHaltAll (g : Guard) (s : State) : Host.Outcome State Fault Refusal :=
  issue (.haltAll g) (fun s => .done (haltHere ((allCores s).foldr setHalted s))) s

/-- A core goes on. -/
def clearHalted (core : Nat) (s : State) : State := s.updCore core fun c => { c with halted := false, haltBy := none }

/-- A resume command at a hottest junction of `temp` °C: a package halted for its temperature is held until it is below 95
(R374). -/
def resumeCore (core temp : Nat) (s : State) : Option State :=
  if s.thermal && 95 ≤ temp then none else some (clearHalted core { s with thermal := false })

/-- `IEEE_1149_1_RESUME`: core, temperature. -/
def execIeee11491Resume (s : State) : Host.Outcome State Fault Refusal :=
  event (fun s => match s.nums with
    | [core, temp] => (resumeCore core temp s).getD s
    | _ => s) s

/-! The supervisor (R351). -/

/-- An entry of a canopy without an owner: Cold once none is left. -/
def withoutOwner (v own : Nat) : Nat :=
  match CanopyEntry.ofBits v with
  | none => v
  | some e =>
    if e.state < 2 || !e.owners.contains own then v
    else
      let left := e.owners.filter (· != own)
      let base := v - v / 2 ^ 20 % 8 * 2 ^ 20 - v / 2 ^ 73 % 2 ^ 52 * 2 ^ 73
      let base := if left.isEmpty then withState base 0 else base
      base + left.length * 2 ^ 20 + (((List.range left.length).zip left).map fun (q : Nat × Nat) => q.2 * 2 ^ (73 + 13 * q.1)).sum

/-- A sealed core leaves the canopy entries of a traversal launch (R291, R349). -/
def dropOwner (g : Group) (s : State) : State :=
  match g.anchors with
  | none => s
  | some a => (List.range a.canlen).foldl (fun s id =>
      match readCanopy s (hallOf g.core) g.lid id with
      | (s, .error _) => s
      | (s, .ok v) =>
        let w := withoutOwner v (g.lcore % 8192)
        if v = 2 ^ 127 || w = v then s else (swapEntry s (hallOf g.core) g.lid id v w).1) s

/-- Why the supervisor ends a launch. -/
def sealEnd (s : State) (g : Group) : EndReq :=
  { lid := g.lid, g := g.num, core := g.core, slot := 0, cause := 0x19, pc := 0, faddr := 0, reason := 0, clk := s.clk }

/-- Healthy cores of a die. -/
def healthyCores (s : State) (die : Nat) : List Nat :=
  ((List.range 40).flatMap fun i => hallCores s.pkg (die * 40 + i)).filter fun c => !s.outOfService c

/-- A core has a wave slot and the least registers, 8 a lane, for the supervisor's wave (log 34). -/
def supervisorFits (s : State) (core : Nat) : Bool :=
  !(openSlots s core).isEmpty && decide (((residents s core).map fun g => g.waves * g.regs).sum + 8 ≤ 2048)

/-- The core where a die's supervisor stands. -/
def supervisorAt (s : State) (die : Nat) : Option Nat := (healthyCores s die).find? fun c => (s.core c).supervisor.isSome

/-- Groups whose gang makes room for the supervisor: of the gangs that have one on a healthy core of the die and no system priority,
that of lowest priority, most recently placed (R307, R351). -/
def supervisorVictims (s : State) (die : Nat) : List Group :=
  let here (q : Nat × Nat × Nat × Nat) : List Group := match s.launch? q.2.2.1 with
    | some l => gangGroups s l q.2.2.2
    | none => []
  match ((lowerGangs s 16).filter fun q => (here q).any fun g => (healthyCores s die).contains g.core).foldr insertGang [] with
  | [] => []
  | q :: _ => here q

/-- The supervisor does its work and leaves its slot: the sealed core's treelets leave the canopy, and the launches that had a group on
it end. -/
def supervise (die core : Nat) (s : State) : State :=
  let s := { s with cores := s.cores.map fun (c : Nat × Core) =>
    if (healthyCores s die).contains c.1 then (c.1, { c.2 with supervisor := none }) else c }
  let gs := residents s core
  let s := gs.foldl (fun s g => dropOwner g s) s
  gs.foldl (fun s g => s.post .launchEndOnFault (.ending (sealEnd s g))) s

/-- `SUPERVISOR_PLACE`: die, sealed core. The supervisor is placed on the lowest healthy core of the die that has room for it, where
none has after the gang in its way is pre-empted; placed, it does its work. A die with no healthy core has it done from outside
(log 34). -/
def execSupervisorPlace (s : State) : Host.Outcome State Fault Refusal :=
  event (fun s => match s.nums with
    | [die, core] =>
      if (supervisorAt s die).isSome || (healthyCores s die).isEmpty then supervise die core s
      else match (healthyCores s die).find? (supervisorFits s) with
        | some c => (({ s with supervisors := Sparse.set none s.supervisors die (some c) }).updCore c fun v =>
            { v with supervisor := (openSlots s c).head? }).post .supervisorPlace (.nums [die, core])
        | none => (preemptGang (supervisorVictims s die) s).post .supervisorPlace (.nums [die, core])
    | _ => s) s

/-! Ending a launch on a fault (R352). -/

/-- The report's view of a request: the logical core of the failing group (R304, R363). -/
def framed (s : State) (l : Launch) (r : EndReq) : EndReq := { r with core := recCore s.pkg l.record r.g }

/-- A saved group is dropped: its credits return, its operations pass to the launch. -/
def dropSaved (v : Saved) (s : State) : State :=
  let back := (v.waves.flatMap fun (p : Nat × Wave) => p.2.resv).map fun r => graphMsg s (deviceAt v.group.core 0xFFFF) r.gid 4 r.credits 0
  let s := dropCounters (s.postAll back) v.group
  let s := s.updLaunch v.group.lid fun l => { l with ops := l.ops ++ (v.waves.flatMap fun (p : Nat × Wave) => p.2.ops) }
  { s with saved := s.saved.filter fun x => x.gid != v.gid
           halls := s.halls.map fun (h : Nat × Hall) => (h.1, { h.2 with faults := h.2.faults.filter fun f => f.2.2 != v.gid }) }

/-- The leases of a group's waves abort. -/
def abortGroup (g : Group) (s : State) : State := g.slots.foldl (fun s w => abortLeases g.core w s) s

/-- Every group of a launch stops, unsaved. -/
def stopLaunch (r : EndReq) (s : State) : State :=
  let gs := s.groups.filter fun g => g.lid == r.lid
  let s := gs.foldl (fun s g => freeGroup g 1 (dropClimbers g.core g.lid (abortGroup g s))) s
  let s := (s.saved.filter fun v => v.group.lid == r.lid).foldl (fun s v => dropSaved v s) s
  s.updLaunch r.lid fun l => { l with phase := .ending, fault := some r }

/-- The restart record of a launch, and the record it names, are held by no request, lease or page operation. -/
def endFree (s : State) (l : Launch) : Bool :=
  recRstva l.record == 0 || (readable s arbiterHall l.ctx (recRstva l.record) 64 &&
    match (readVa s arbiterHall l.ctx (recRstva l.record) 64).2 with
    | .ok v => bitsAt v 0 64 == 0 || readable s arbiterHall l.ctx (bitsAt v 0 64) 128
    | .error _ => true)

/-- What ownership of a sealed core's treelets is written in is held by no request, lease or page operation. -/
def ownersFree (s : State) (core : Nat) : Bool :=
  (residents s core).all fun g => match g.anchors with
    | some a => (List.range a.canlen).all fun id => canopyFree s (hallOf core) g.lid id
    | none => true

/-- The restart record written (R352): COUNT and LIMIT, RLVA, or nothing where there is none or it cannot be reached. -/
def writeRestart (l : Launch) (r : EndReq) (s : State) : State × Option (Nat × Nat × Nat) :=
  let va := recRstva l.record
  if va = 0 then (s, none)
  else match readVa s arbiterHall l.ctx va 64 with
    | (s, .error _) => (s, none)
    | (s, .ok v) =>
      let s := (writeVa s arbiterHall l.ctx (va + 11) 1 (r.cause % 256)).1
      let s := (writeVa s arbiterHall l.ctx (va + 12) 12 (r.core % 2 ^ 27 * 32 + r.clk % 2 ^ 64 * 2 ^ 32)).1
      (s, some (bitsAt v 72 8, bitsAt v 64 8, bitsAt v 0 64))

/-- A restart: COUNT is incremented and RLVA submitted with the original's priority; nothing when it cannot be read. -/
def restart (l : Launch) (rlva : Nat) (s : State) : Option State :=
  match readVa s arbiterHall l.ctx rlva 128 with
  | (_, .error _) => none
  | (s, .ok v) =>
    some ((arbiterAdd l (BitVec.ofNat 64 (recRstva l.record + 8)) 0x100 s).post .launchSubmit (.submit
      { record := BitVec.ofNat 1024 v, va := rlva, ring := none, src := .device, priv := l.sys, ctx := l.ctx, prio := l.prio }))

/-- A stopped launch is over: reported, restarted or completed. -/
def finishEnding (l : Launch) (r : EndReq) (s : State) : State :=
  let s := report s (reportBits 2 r.core r.slot r.cause r.reason r.g r.lid r.faddr.toNat r.clk r.pc)
  let (s, rec_) := writeRestart l r s
  let again := match rec_ with
    | some (count, limit, rlva) => if r.cause = 0x19 && count < limit && rlva ≠ 0 then restart l rlva s else none
    | none => none
  match again with
  | some s => closeLaunch l.lid s
  | none => closeLaunch l.lid (incrementCmpl l s)

/-- `LAUNCH_END_ON_FAULT`: the first request stops the launch's groups; once its operations have completed or faulted, the
same event, with the request kept, ends it. -/
def execLaunchEndOnFault (s : State) : Host.Outcome State Fault Refusal :=
  event (fun s => match s.arg with
    | .ending r => match s.launch? r.lid with
      | none => s
      | some l => match l.phase with
        | .done => s
        | .ending => if launchQuiet l && l.fault == some r then finishEnding l r s else s
        | _ => stopLaunch (framed s l r) s
    | _ => s) s

end Sys2Proof.Machine
end

