-- ==== Sys2Proof/Machine/Pair.lean ====
section
/-! DEFINITION. Paired cores (R353-R357): pairing, intervals and their fingerprints, roll-back, and `unpair` and `fpck`. -/

namespace Sys2Proof.Machine

/-! Checkpoints. -/

def withCsrs (g : Group) (v : List Word) : Group :=
  { g with tvec := v.getD 0 0, cregb := v.getD 1 0, cregl := v.getD 2 0, ifw := v.getD 3 0, ifh := v.getD 4 0, coalt := v.getD 5 0 }

/-- All ones, where a fingerprint begins (R354). -/
def crcStart : DWord := 0xFFFFFFFFFFFFFFFF

/-- A wave at the opening of an interval; one that has exited stays stopped. -/
def openWave (w : Wave) : Wave := { w with retired := 0, fprint := crcStart, stopped := waveOver w }

/-- The checkpoint of a group. -/
def checkpointOf (s : State) (g : Group) : Checkpoint :=
  { waves := g.slots.map fun w => (w, s.wave g.core w)
    regs := g.slots.map fun w => (w, Sparse.get [] s.regs (waveKey g.core w))
    csrs := groupCsrs g, bars := g.bars, binds := g.binds
    stackBytes := g.slots.map fun w => (w, s.ls g.core (stackAddr w 0 0) 256, s.ls g.core (saveArea w) 192)
    log := [] }

/-- The waves of a group open an interval, and its checkpoint is taken. -/
def openInterval (gid : Nat) (f : Pairing → Pairing) (s : State) : State :=
  match s.group? gid with
  | none => s
  | some g =>
    let s := g.slots.foldl (fun s w => s.updWave g.core w openWave) s
    s.updGroup gid fun g => { g with pair := g.pair.map fun p => { f p with check := checkpointOf s g, held := [] } }

/-- A message passed on to a core through the pair link. -/
def linkTask (core : Nat) (t : Task) : Bool := match t.arg with
  | .msg m => overLink m && m.src.core == core
  | _ => false

/-- A wave holds a window pair at its checkpoint: it has a lease, or its request for one is still on its way (R105, R106). -/
def holdsPair (w : Wave) : Bool := !w.leases.isEmpty || match w.block with
  | none => false
  | some b => match (w.splits.getD b.split {}).await with
    | .sent _ => true
    | _ => false

/-- A group returns to its checkpoint (R356): the live leases of its waves abort (R113), and those begun since are gone, with their
windows free. -/
def rollBack (gid : Nat) (s : State) : State :=
  match s.group? gid with
  | none => s
  | some g => match g.pair with
    | none => s
    | some p =>
      let c := p.check
      let live (w : Nat) : List Lease := (s.wave g.core w).leases.filter (·.live)
      let ids (w : Nat) : List Nat := 0 :: (s.wave g.core w).leases.map (·.id)
      let again (w : Nat) (sp : Split) : Split := match sp.await with
        | .sent id => if (ids w).contains id then { sp with await := .none } else sp
        | _ => sp
      let back (w : Nat) (x : Wave) : Wave :=
        { x with splits := x.splits.map (again w), leases := x.leases.map fun l => { l with live := false } }
      let s := if p.low then g.slots.foldl (fun s w =>
          s.postAll ((live w).map fun l => ⟨.leaseAbort, .msg
            { src := { deviceAt g.core w with maj := 0x48 }, tgt := l.line * 128, id := l.id, ordered := true, point := l.point }⟩)) s
        else s
      let s := { s with agenda := s.agenda.filter fun t => !linkTask g.core t }
      let s := s.updCore g.core fun v => { v with
        pairs := v.pairs.map fun (o : Option Nat) => o.filter fun w => holdsPair (back w (Sparse.get ({} : Wave) c.waves w))
        pairWait := [] }
      let s := { s with mem := Memory.writeCells s.mem c.log }
      let s := c.waves.foldl (fun s (q : Nat × Wave) => s.setWave g.core q.1 (openWave (back q.1 q.2))) s
      let s := { s with regs := c.regs.foldl (fun m (q : Nat × List (Nat × Word)) => Sparse.set [] m (waveKey g.core q.1) q.2) s.regs }
      let s := c.stackBytes.foldl (fun s (q : Nat × Nat × Nat) =>
        (s.setLs g.core (stackAddr q.1 0 0) 256 q.2.1).setLs g.core (saveArea q.1) 192 q.2.2) s
      s.updGroup gid fun g => { withCsrs g c.csrs with
        bars := c.bars, binds := c.binds
        pair := g.pair.map fun p => { p with held := [], check := { p.check with log := [] }, leaving := false } }

/-! PAIRCTL (R353). -/

/-- PAIRCTL of a core from its group's pairing. -/
def pairctlOf (p : Pairing) : Word :=
  BitVec.ofNat 32 (1 + p.low.toNat * 16 + p.dir % 4 * 32 + p.roll.toNat * 128 + p.matched % 2 ^ 16 * 2 ^ 16)

def showPairing (gid : Nat) (s : State) : State :=
  match s.group? gid with
  | none => s
  | some g => match g.pair with
    | none => s.updCore g.core fun c => { c with pairctl := c.pairctl &&& ~~~1 }
    | some p => s.updCore g.core fun c => { c with pairctl := pairctlOf p }

/-- A split that waits in `fpck` or `unpair` keeps the fingerprint of the interval it closed, which has matched (R357). -/
def keepPrint (print : DWord) (sp : Split) : Split := match sp.await with
  | .answered _ _ 0x200 => { sp with await := .answered 0 print.toNat 0x201 }
  | _ => sp

/-- The pairing of a group is over: its waves go on alone. -/
def endPairing (gid : Nat) (s : State) : State :=
  match s.group? gid with
  | none => s
  | some g =>
    let print := match g.pair with
      | some p => p.last
      | none => 0
    let s := g.slots.foldl (fun s w => s.updWave g.core w fun w => { w with stopped := false, splits := w.splits.map (keepPrint print) }) s
    showPairing gid (s.updGroup gid fun g => { g with pair := none })

/-! `pair` (R353). -/

/-- The partner group in a direction, on the physical neighbour. -/
def partnerGroup (s : State) (g : Group) (d : Nat) : Option Group :=
  (neighbourOf g.lcore d).bind fun lc => s.groups.find? fun h => h.lid == g.lid && h.lcore == lc

/-- Every wave of a group that has not exited has issued `pair` in a direction. -/
def allAsk (s : State) (g : Group) (d : Nat) : Bool :=
  (liveWaves s g).all fun w => match (s.wave g.core w).pairing with
    | some (e, _, _) => e == d
    | none => false

/-- A pairing at its start. -/
def newPairing (partner d : Nat) (low : Bool) : Pairing :=
  { partner := partner, dir := d, low := low, matched := 0, roll := false, rerun := false
    check := { waves := [], regs := [], csrs := [], bars := [], binds := [], stackBytes := [], log := [] }, held := [], last := 0 }

/-- Two groups pair: both are checkpointed and interval 1 opens. -/
def joinPair (g h : Group) (d : Nat) (s : State) : State :=
  let s := s.updGroup g.gid fun v => { v with pair := some (newPairing h.core d (g.lcore < h.lcore)) }
  let s := s.updGroup h.gid fun v => { v with pair := some (newPairing g.core ((d + 2) % 4) (h.lcore < g.lcore)) }
  showPairing h.gid (showPairing g.gid (openInterval h.gid id (openInterval g.gid id s)))

/-- Another group is resident on the core. -/
def otherGroup (s : State) (core gid : Nat) : Bool := (residents s core).any fun g => g.gid != gid

/-- What `pair` refuses with at once. -/
def pairRefuses (s : State) (g : Group) (v : Word) : Option Nat :=
  let d := v.toNat % 4
  let clm := match s.launch? g.lid with
    | some l => recClm l.record
    | none => false
  match (neighbourOf g.lcore d).bind fun lc => s.frameOf g.lid lc with
  | none => if v.toNat / 4 ≠ 0 || g.pair.isSome then some 3 else if otherGroup s g.core g.gid || clm then some 2 else some 4
  | some c =>
    let mate := ((partnerGroup s g d).map (·.gid)).getD 0
    if v.toNat / 4 ≠ 0 || g.pair.isSome then some 3
    else if otherGroup s g.core g.gid || otherGroup s c mate || clm then some 2
    else none

/-- A split that waits in `pair` no longer does. -/
def unask (p : Nat) (w : Wave) : Wave :=
  { w with pairing := w.pairing.bind fun q => if q.2.2.all (· == p) then none else some (q.1, q.2.1, q.2.2.filter (· != p)) }

/-- `PAIR`. -/
def execPair (g : Guard) (d : RegNo) (a : RegNo) (s : State) : Host.Outcome State Fault Refusal :=
  issue (.pair g d a) (fun s =>
    let out (s : State) (v : Nat) : Exec :=
      .done ((putLanes s (active s g) d.toNat fun _ => BitVec.ofNat 32 v).updCurWave (unask s.cur.split))
    let v := src s a.toNat (firstLane s g)
    match s.curGroup with
    | none => .wait 16 s
    | some gr => match s.curAwait, s.curWave.pairing with
      | .answered _ r _, _ => out s r
      | _, some (dir, since, ps) =>
        if gr.pair.isSome then out s 0
        else
          let s := if ps.contains s.cur.split then s
            else s.updCurWave fun w => { w with pairing := some (dir, since, ps ++ [s.cur.split]) }
          match partnerGroup s gr dir with
          | none => .wait 16 s
          | some h => if allAsk s gr dir && allAsk s h ((dir + 2) % 4) then .wait 16 (joinPair gr h dir s) else .wait 16 s
      | _, none => match pairRefuses s gr v with
        | some r => out s r
        | none => .wait 16 (s.updCurWave fun w => { w with pairing := some (v.toNat % 4, s.clk, [s.cur.split]) })) s

/-- Waves of a group wait in `pair` and the oldest has waited 2^20 counts. -/
def pairLate (s : State) (g : Group) : Bool :=
  g.pair.isNone && g.slots.any fun w => match (s.wave g.core w).pairing with
    | some (_, since, _) => decide (2 ^ 20 ≤ s.clkSince since)
    | none => false

/-- `PAIR_TIMEOUT`: group. `pair` gives 1 in the splits of its waves that wait in it. -/
def execPairTimeout (s : State) : Host.Outcome State Fault Refusal :=
  event (fun s => match s.nums with
    | [gid] => match s.group? gid with
      | none => s
      | some g =>
        if pairLate s g then
          let late (w : Wave) (p : Nat) : Wave := w.updSplit p fun sp => { sp with await := .answered 0 1 0 }
          g.slots.foldl (fun s w => s.updWave g.core w fun w => match w.pairing with
            | some (_, _, ps) => { ps.foldl late w with pairing := none }
            | none => w) s
        else s
    | _ => s) s

/-! Intervals (R354-R356). -/

/-- A wave is done with the interval: exited, stopped, or with no split that runs. -/
def waveQuiet (w : Wave) : Bool :=
  waveOver w || w.stopped || w.splits.all fun p => !p.live || p.park != .running

/-- Every wave of a group is done with the interval. -/
def groupQuiet (s : State) (g : Group) : Bool := g.slots.all fun w => waveQuiet (s.wave g.core w)

/-- The fingerprint of a group. -/
def groupPrint (s : State) (g : Group) : DWord := g.slots.foldl (fun x w => x ^^^ (s.wave g.core w).fprint) 0

/-- The group a pair's group is paired with. -/
def mateOf (s : State) (g : Group) : Option Group :=
  g.pair.bind fun p => s.groups.find? fun h => h.core == p.partner && h.lid == g.lid && h.pair.isSome

/-- The wave slot of a held task's issuer. -/
def heldSlot (t : Task) : Nat := match t.arg with
  | .msg m => m.src.slot
  | .copy c => c.src.slot
  | .submit b => b.src.slot
  | _ => 0

/-- Numbers that a held task carries: its own and its instruction's. -/
def heldIds (t : Task) : List Nat := match t.arg with
  | .msg m => [m.id, m.group]
  | .copy c => [c.id]
  | .submit b => [b.id]
  | _ => []

/-- The high core's numbers with those of the low core for the same operations, wave by wave in their order. -/
def idPairs (low high : List Task) : List (Nat × Nat) :=
  (List.range 16).flatMap fun w =>
    let of (ts : List Task) : List Nat := ((ts.filter fun t => heldSlot t == w).map heldIds).flatten
    (of high).zip (of low)

def renamed (ps : List (Nat × Nat)) (id : Nat) : Nat := ((ps.find? fun p => p.1 == id).map (·.2)).getD id

/-- A wave of the high core knows its operations by the low core's numbers. -/
def renameWave (ps : List (Nat × Nat)) (w : Wave) : Wave :=
  { w with
    ops := w.ops.map fun (o : Op) => { o with id := renamed ps o.id }
    atms := w.atms.map fun (a : AtmEntry) => { a with id := renamed ps a.id }
    splits := w.splits.map fun (p : Split) => { p with await := match p.await with
      | .sent id => .sent (renamed ps id)
      | .settling ids => .settling (ids.map (renamed ps))
      | a => a } }

/-- A copy of the high core waits for operations by the low core's numbers. -/
def renameCopy (ps : List (Nat × Nat)) (t : Task) : Task := match t.arg with
  | .copy c => { t with arg := .copy { c with after := c.after.map (renamed ps), prior := c.prior.map (renamed ps) } }
  | _ => t

/-- A copy into the issuer's own local store, which each core issues. -/
def ownCopy (s : State) (g : Group) (t : Task) : Bool := match t.arg with
  | .copy c => match lsTarget s g.lid c.to_ with
    | some (k, _) => isLsKey k && keyCore k == g.core
    | none => false
  | _ => false

/-- A commit of a lease whose abort point has passed leaves only to be refused behind the deadline (R113). -/
def lateCommit (s : State) (core : Nat) (t : Task) : Task := match t.op, t.arg with
  | .leaseCommit, .msg m =>
    (match (s.wave core m.src.slot).leases.find? fun l => l.id == m.id with
     | some l => if s.reached l.abort then { t with arg := .msg { m with due := max 1 l.deadline } } else t
     | none => t)
  | _, _ => t

/-- An interval that matches: the low core's operations leave, each core's copies into itself, and the next one opens. -/
def matchInterval (lo hi : Group) (print : DWord) (s : State) : State :=
  match lo.pair, hi.pair with
  | some p, some q =>
    let own := q.held.filter (ownCopy s hi)
    let ps := idPairs (p.held.filter fun t => !ownCopy s lo t) (q.held.filter fun t => !ownCopy s hi t)
    let s := hi.slots.foldl (fun s w => s.updWave hi.core w (renameWave ps)) s
    let s := s.postAll (p.held.map (lateCommit s lo.core) ++ own.map (renameCopy ps))
    let told (g : Group) (s : State) : State :=
      g.slots.foldl (fun s w => s.updWave g.core w fun w => { w with splits := w.splits.map (keepPrint print) }) s
    let s := told hi (told lo s)
    let next (x : Pairing) : Pairing := { x with matched := x.matched + 1, roll := x.rerun, rerun := false, last := print }
    showPairing hi.gid (showPairing lo.gid (openInterval hi.gid next (openInterval lo.gid next s)))
  | _, _ => s

/-- A group whose waves have all exited ends with its pairing. -/
def endIfOver (gid : Nat) (s : State) : State :=
  match s.group? gid with
  | none => s
  | some g => if (liveWaves s g).isEmpty then endGroup g s else s

/-- After a match the pairing ends if a group leaves it. -/
def settlePair (lo hi : Group) (s : State) : State :=
  let leaves (gid : Nat) : Bool := match s.group? gid with
    | some g => (g.pair.any fun p => p.leaving) || (liveWaves s g).isEmpty
    | none => true
  if leaves lo.gid || leaves hi.gid then endIfOver hi.gid (endIfOver lo.gid (endPairing hi.gid (endPairing lo.gid s))) else s

/-- PAIR_MISMATCH in the lowest-numbered split of each wave of a group, which has returned to its checkpoint. -/
def raiseMismatch (gid : Nat) (faddr : DWord) (s : State) : State := match s.group? gid with
  | none => s
  | some g => g.slots.foldl (fun s w =>
    match (List.range 4).find? fun p => ((s.wave g.core w).splits.getD p {}).live with
    | none => s
    | some p => takeTrap g.core w p g.tvec 0x15 faddr ((s.wave g.core w).splits.getD p {}).pc s) s

/-- An interval that does not match: rolled back and run again, or, the second time, the end of the pairing (R356). -/
def failInterval (lo hi : Group) (a b : DWord) (s : State) : State :=
  let again := match lo.pair with
    | some p => p.rerun
    | none => false
  let s := rollBack hi.gid (rollBack lo.gid s)
  if again then
    let s := endPairing hi.gid (endPairing lo.gid s)
    raiseMismatch hi.gid (a ^^^ b) (raiseMismatch lo.gid (a ^^^ b) s)
  else
    let mark (s : State) (gid : Nat) : State :=
      showPairing gid (s.updGroup gid fun g => { g with pair := g.pair.map fun p => { p with roll := true, rerun := true } })
    mark (mark s lo.gid) hi.gid

/-- `PAIR_INTERVAL_CLOSE`: group. Both groups are done with the interval and their fingerprints are compared. -/
def execPairIntervalClose (s : State) : Host.Outcome State Fault Refusal :=
  event (fun s => match s.nums with
    | [gid] => match s.group? gid with
      | none => s
      | some g => match mateOf s g with
        | none => endIfOver gid (endPairing gid s)
        | some h =>
          if groupQuiet s g && groupQuiet s h then
            let (lo, hi) := if g.pair.any (·.low) then (g, h) else (h, g)
            let a := groupPrint s lo
            let b := groupPrint s hi
            if a = b then settlePair lo hi (matchInterval lo hi a s) else failInterval lo hi a b s
          else s
    | _ => s) s

/-! `unpair` and `fpck` (R357). -/

/-- The intervals matched so far of the issuing group, while it is paired. -/
def matchedHere (s : State) : Option Nat := (s.curGroup.bind (·.pair)).map (·.matched)

/-- The wave stops until the interval that is open has matched; `f` changes its pairing. -/
def stopHere (n : Nat) (f : Pairing → Pairing) (s : State) : State :=
  (setAwait (.answered 0 n 0x200) (s.updCurWave fun w => { w with stopped := true })).updGroup s.curWave.gid fun g =>
    { g with pair := g.pair.map f }

/-- `UNPAIR`. -/
def execUnpair (g : Guard) (d : RegNo) (s : State) : Host.Outcome State Fault Refusal :=
  issue (.unpair g d) (fun s =>
    let out (v : Nat) : Exec := .done (putLanes s (active s g) d.toNat fun _ => BitVec.ofNat 32 v)
    match s.curAwait, matchedHere s with
    | .answered _ _ _, none => out 0
    | .answered _ _ 0x201, some _ => out 0
    | .answered _ m _, some n => if m < n then out 0 else .wait 16 (stopHere m (fun p => { p with leaving := true }) s)
    | _, none => out 1
    | _, some n => .wait 16 (stopHere n (fun p => { p with leaving := true }) s)) s

/-- The fingerprint of the last interval that matched. -/
def lastPrint (s : State) : DWord := match s.curGroup.bind (·.pair) with
  | some p => p.last
  | none => 0

/-- `FPCK`. -/
def execFpck (g : Guard) (d : RegNo) (s : State) : Host.Outcome State Fault Refusal :=
  issue (.fpck g d) (fun s =>
    let out (v : DWord) : Exec := .done (putLanes64 s (active s g) d.toNat fun _ => v)
    match s.curAwait, matchedHere s with
    | .answered _ v 0x201, _ => out (BitVec.ofNat 64 v)
    | _, none => out 0
    | .answered _ m _, some n => if m < n then out (lastPrint s) else .wait 16 (stopHere m id s)
    | _, some n => .wait 16 (stopHere n id s)) s

end Sys2Proof.Machine
end

