-- ==== Sys2Proof/Machine/Channels.lean ====
section
/-! DEFINITION. Channel words and credits (R152-R154), and malformed messages (R143). -/

namespace Sys2Proof.Machine

/-- `CHANNEL_WORD` (KIND 0x25): into the neighbour's receive buffer; the channel in `kind`. A sealed core drops it, and so does one
that has trapped because the sender is sealed: its reads are of poison from then on (R154). -/
def execChannelWord (s : State) : Host.Outcome State Fault Refusal :=
  onMsg (fun m s =>
    if targetSealed s m then s
    else
      let c := s.chan (keyCore m.tgt) m.kind
      if c.readTrapped then s
      else s.setChan (keyCore m.tgt) m.kind { c with words := c.words ++ [BitVec.ofNat 1024 (bytesToNat (m.bytes.map (·.2)))] }) s

/-- `CHANNEL_CREDIT_RETURN`: core, channel. -/
def execChannelCreditReturn (s : State) : Host.Outcome State Fault Refusal :=
  event (fun s => match s.nums with
    | [core, ch] => s.setChan core ch { s.chan core ch with credits := min 2 ((s.chan core ch).credits + 1) }
    | _ => s) s

/-! Message kinds and headers (R142, R143). -/

/-- The virtual channel of a message kind, and the numbers of payload flits it may have; none for a number that is no kind. -/
def kindForm : Nat → Option (Nat × List Nat)
  | 0x01 => some (0, [0])
  | 0x02 => some (0, [4])
  | 0x03 => some (0, [4])
  | 0x04 => some (0, [0])
  | 0x05 => some (0, [1])
  | 0x06 => some (0, [0, 1])
  | 0x07 => some (0, [0])
  | 0x10 => some (1, [1, 2, 3, 4])
  | 0x11 => some (1, [1, 2, 3, 4])
  | 0x12 => some (1, [1])
  | 0x13 => some (1, [1])
  | 0x14 => some (1, [1, 2, 3, 4])
  | 0x15 => some (1, [0])
  | 0x16 => some (1, [4])
  | 0x17 => some (1, [1])
  | 0x18 => some (1, [0, 4])
  | 0x19 => some (1, [0, 1])
  | 0x20 => some (2, [0])
  | 0x21 => some (2, [4])
  | 0x22 => some (2, [1, 2, 3, 4])
  | 0x23 => some (2, [0])
  | 0x24 => some (2, [0])
  | 0x25 => some (2, [4])
  | 0x30 => some (3, [4])
  | 0x40 => some (4, [1])
  | 0x41 => some (4, [0])
  | 0x42 => some (4, [0])
  | 0x43 => some (4, [1])
  | 0x44 => some (4, [0])
  | 0x50 => some (5, [4])
  | 0x51 => some (5, [0, 4])
  | 0x52 => some (5, [4])
  | 0x53 => some (5, [4])
  | _ => none

/-- The header of a message (R142): DEST, TGT, SRC, KIND, VC, LEN, XY, ESC, DL, SSEQ, WAVE, TAG, ANCH, IMM. -/
structure Header where
  dest : Nat
  tgt : Nat
  src : Nat
  kind : Nat
  vc : Nat
  len : Nat
  xy : Bool
  esc : Bool
  dl : Bool
  sseq : Nat
  wave : Nat
  tag : Nat
  anch : Nat
  imm : Nat
  deriving DecidableEq, Repr

/-- The header flit. -/
def Header.bits (h : Header) : BitVec 256 :=
  BitVec.ofNat 256 (h.imm % 2 ^ 32 + h.anch % 2 ^ 64 * 2 ^ 32 + h.tag % 16 * 2 ^ 99 + h.wave % 16 * 2 ^ 103 + h.sseq % 2 ^ 16 * 2 ^ 107 +
    h.dl.toNat * 2 ^ 123 + h.esc.toNat * 2 ^ 124 + h.xy.toNat * 2 ^ 125 + h.len % 8 * 2 ^ 126 + h.vc % 8 * 2 ^ 129 +
    h.kind % 64 * 2 ^ 132 + h.src % 2 ^ 27 * 2 ^ 138 + h.tgt % 2 ^ 27 * 2 ^ 165 + h.dest % 2 ^ 64 * 2 ^ 192)

/-- The fields of a header flit. -/
def Header.ofBits (b : BitVec 256) : Header :=
  { dest := bitsAt b.toNat 192 64, tgt := bitsAt b.toNat 165 27, src := bitsAt b.toNat 138 27, kind := bitsAt b.toNat 132 6
    vc := bitsAt b.toNat 129 3, len := bitsAt b.toNat 126 3, xy := b.getLsbD 125, esc := b.getLsbD 124, dl := b.getLsbD 123
    sseq := bitsAt b.toNat 107 16, wave := bitsAt b.toNat 103 4, tag := bitsAt b.toNat 99 4, anch := bitsAt b.toNat 32 64
    imm := bitsAt b.toNat 0 32 }

/-- A header that may be produced: its KIND is one of the table, with its VC and a LEN of its range (R143). -/
def headerOk (h : Header) : Bool := match kindForm h.kind with
  | some (vc, lens) => h.vc == vc && lens.contains h.len
  | none => false

/-- `MALFORMED_MESSAGE`: core, header. A message whose header is never produced is discarded and counted (R143). -/
def execMalformedMessage (s : State) : Host.Outcome State Fault Refusal :=
  event (fun s => match s.nums with
    | [core, h] => if headerOk (Header.ofBits (BitVec.ofNat 256 h)) then s else countMalformed core s
    | _ => s) s

end Sys2Proof.Machine
end

