-- ==== Sys2Proof/Machine/Integer.lean ====
section
/-! DEFINITION. The meanings of the integer, bit, byte, move, immediate, pointer and pair instructions (R21-R24, R177-R197). -/

namespace Sys2Proof.Machine

/-- `ADD` (R179). -/
def execAdd (g : Guard) (d : RegNo) (a : RegNo) (b : RegNo) (s : State) : Host.Outcome State Fault Refusal :=
  lanewise (.add g d a b) g d (fun s l => src s a.toNat l + src s b.toNat l) s

/-- `SUB` (R179). -/
def execSub (g : Guard) (d : RegNo) (a : RegNo) (b : RegNo) (s : State) : Host.Outcome State Fault Refusal :=
  lanewise (.sub g d a b) g d (fun s l => src s a.toNat l - src s b.toNat l) s

/-- `ADD_SAT_I32` (R179). -/
def execAddSatI32 (g : Guard) (d : RegNo) (a : RegNo) (b : RegNo) (s : State) : Host.Outcome State Fault Refusal :=
  lanewise (.addSatI32 g d a b) g d (fun s l => satI32 ((src s a.toNat l).toInt + (src s b.toNat l).toInt)) s

/-- `SUB_SAT_I32` (R179). -/
def execSubSatI32 (g : Guard) (d : RegNo) (a : RegNo) (b : RegNo) (s : State) : Host.Outcome State Fault Refusal :=
  lanewise (.subSatI32 g d a b) g d (fun s l => satI32 ((src s a.toNat l).toInt - (src s b.toNat l).toInt)) s

/-- `ADD_SAT_N32` (R179). -/
def execAddSatN32 (g : Guard) (d : RegNo) (a : RegNo) (b : RegNo) (s : State) : Host.Outcome State Fault Refusal :=
  lanewise (.addSatN32 g d a b) g d (fun s l => satN32 ((src s a.toNat l).toNat + (src s b.toNat l).toNat)) s

/-- `SUB_SAT_N32` (R179). -/
def execSubSatN32 (g : Guard) (d : RegNo) (a : RegNo) (b : RegNo) (s : State) : Host.Outcome State Fault Refusal :=
  lanewise (.subSatN32 g d a b) g d (fun s l => satN32 (((src s a.toNat l).toNat : Int) - (src s b.toNat l).toNat)) s

/-- `ADD_CY` (R179). -/
def execAddCy (g : Guard) (d : RegNo) (a : RegNo) (b : RegNo) (c : RegNo) (s : State) : Host.Outcome State Fault Refusal :=
  lanewise (.addCy g d a b c) g d (fun s l => BitVec.ofNat 32 (sumCarry (src s a.toNat l) (src s b.toNat l) (src s c.toNat l))) s

/-- `CY` (R179). -/
def execCy (g : Guard) (d : RegNo) (a : RegNo) (b : RegNo) (c : RegNo) (s : State) : Host.Outcome State Fault Refusal :=
  lanewise (.cy g d a b c) g d (fun s l => BitVec.ofNat 32 (sumCarry (src s a.toNat l) (src s b.toNat l) (src s c.toNat l) / 2 ^ 32)) s

/-- `ADD64` (R179). -/
def execAdd64 (g : Guard) (d : RegNo) (a : RegNo) (b : RegNo) (s : State) : Host.Outcome State Fault Refusal :=
  lanewise64 (.add64 g d a b) g d (fun s l => src64 s a.toNat l + src64 s b.toNat l) s

/-- `SUB64` (R179). -/
def execSub64 (g : Guard) (d : RegNo) (a : RegNo) (b : RegNo) (s : State) : Host.Outcome State Fault Refusal :=
  lanewise64 (.sub64 g d a b) g d (fun s l => src64 s a.toNat l - src64 s b.toNat l) s

/-- `MUL` (R180). -/
def execMul (g : Guard) (d : RegNo) (a : RegNo) (b : RegNo) (s : State) : Host.Outcome State Fault Refusal :=
  lanewise (.mul g d a b) g d (fun s l => src s a.toNat l * src s b.toNat l) s

/-- `MULH_I32` (R180). -/
def execMulhI32 (g : Guard) (d : RegNo) (a : RegNo) (b : RegNo) (s : State) : Host.Outcome State Fault Refusal :=
  lanewise (.mulhI32 g d a b) g d (fun s l => (mulwI (src s a.toNat l) (src s b.toNat l) >>> 32).setWidth 32) s

/-- `MULH_N32` (R180). -/
def execMulhN32 (g : Guard) (d : RegNo) (a : RegNo) (b : RegNo) (s : State) : Host.Outcome State Fault Refusal :=
  lanewise (.mulhN32 g d a b) g d (fun s l => (mulwN (src s a.toNat l) (src s b.toNat l) >>> 32).setWidth 32) s

/-- `MAD` (R180). -/
def execMad (g : Guard) (d : RegNo) (a : RegNo) (b : RegNo) (c : RegNo) (s : State) : Host.Outcome State Fault Refusal :=
  lanewise (.mad g d a b c) g d (fun s l => src s a.toNat l * src s b.toNat l + src s c.toNat l) s

/-- `MULW_I32` (R180). -/
def execMulwI32 (g : Guard) (d : RegNo) (a : RegNo) (b : RegNo) (s : State) : Host.Outcome State Fault Refusal :=
  lanewise64 (.mulwI32 g d a b) g d (fun s l => mulwI (src s a.toNat l) (src s b.toNat l)) s

/-- `MULW_N32` (R180). -/
def execMulwN32 (g : Guard) (d : RegNo) (a : RegNo) (b : RegNo) (s : State) : Host.Outcome State Fault Refusal :=
  lanewise64 (.mulwN32 g d a b) g d (fun s l => mulwN (src s a.toNat l) (src s b.toNat l)) s

/-- `MADW_N32` (R180). -/
def execMadwN32 (g : Guard) (d : RegNo) (a : RegNo) (b : RegNo) (c : RegNo) (s : State) : Host.Outcome State Fault Refusal :=
  lanewise64 (.madwN32 g d a b c) g d (fun s l => mulwN (src s a.toNat l) (src s b.toNat l) + src64 s c.toNat l) s

/-- `MADW_I32` (R180). -/
def execMadwI32 (g : Guard) (d : RegNo) (a : RegNo) (b : RegNo) (c : RegNo) (s : State) : Host.Outcome State Fault Refusal :=
  lanewise64 (.madwI32 g d a b c) g d (fun s l => mulwI (src s a.toNat l) (src s b.toNat l) + src64 s c.toNat l) s

/-- `MIN_I32` (R181). -/
def execMinI32 (g : Guard) (d : RegNo) (a : RegNo) (b : RegNo) (s : State) : Host.Outcome State Fault Refusal :=
  lanewise (.minI32 g d a b) g d (fun s l => minI (src s a.toNat l) (src s b.toNat l)) s

/-- `MAX_I32` (R181). -/
def execMaxI32 (g : Guard) (d : RegNo) (a : RegNo) (b : RegNo) (s : State) : Host.Outcome State Fault Refusal :=
  lanewise (.maxI32 g d a b) g d (fun s l => maxI (src s a.toNat l) (src s b.toNat l)) s

/-- `MIN_N32` (R181). -/
def execMinN32 (g : Guard) (d : RegNo) (a : RegNo) (b : RegNo) (s : State) : Host.Outcome State Fault Refusal :=
  lanewise (.minN32 g d a b) g d (fun s l => minN (src s a.toNat l) (src s b.toNat l)) s

/-- `MAX_N32` (R181). -/
def execMaxN32 (g : Guard) (d : RegNo) (a : RegNo) (b : RegNo) (s : State) : Host.Outcome State Fault Refusal :=
  lanewise (.maxN32 g d a b) g d (fun s l => maxN (src s a.toNat l) (src s b.toNat l)) s

/-- `ABS` (R181). -/
def execAbs (g : Guard) (d : RegNo) (a : RegNo) (s : State) : Host.Outcome State Fault Refusal :=
  lanewise (.abs g d a) g d (fun s l => absW (src s a.toNat l)) s

/-- `NEG` (R181). -/
def execNeg (g : Guard) (d : RegNo) (a : RegNo) (s : State) : Host.Outcome State Fault Refusal :=
  lanewise (.neg g d a) g d (fun s l => -(src s a.toNat l)) s

/-- `SAD` (R181). -/
def execSad (g : Guard) (d : RegNo) (a : RegNo) (b : RegNo) (c : RegNo) (s : State) : Host.Outcome State Fault Refusal :=
  lanewise (.sad g d a b c) g d (fun s l => sadI (src s a.toNat l) (src s b.toNat l) (src s c.toNat l)) s

/-- `SAD_N32` (R181). -/
def execSadN32 (g : Guard) (d : RegNo) (a : RegNo) (b : RegNo) (c : RegNo) (s : State) : Host.Outcome State Fault Refusal :=
  lanewise (.sadN32 g d a b c) g d (fun s l => sadN (src s a.toNat l) (src s b.toNat l) (src s c.toNat l)) s

/-- `AND` (R182). -/
def execAnd (g : Guard) (d : RegNo) (a : RegNo) (b : RegNo) (s : State) : Host.Outcome State Fault Refusal :=
  lanewise (.and g d a b) g d (fun s l => src s a.toNat l &&& src s b.toNat l) s

/-- `OR` (R182). -/
def execOr (g : Guard) (d : RegNo) (a : RegNo) (b : RegNo) (s : State) : Host.Outcome State Fault Refusal :=
  lanewise (.or g d a b) g d (fun s l => src s a.toNat l ||| src s b.toNat l) s

/-- `XOR` (R182). -/
def execXor (g : Guard) (d : RegNo) (a : RegNo) (b : RegNo) (s : State) : Host.Outcome State Fault Refusal :=
  lanewise (.xor g d a b) g d (fun s l => src s a.toNat l ^^^ src s b.toNat l) s

/-- `ANDN` (R182). -/
def execAndn (g : Guard) (d : RegNo) (a : RegNo) (b : RegNo) (s : State) : Host.Outcome State Fault Refusal :=
  lanewise (.andn g d a b) g d (fun s l => src s a.toNat l &&& ~~~(src s b.toNat l)) s

/-- `ORN` (R182). -/
def execOrn (g : Guard) (d : RegNo) (a : RegNo) (b : RegNo) (s : State) : Host.Outcome State Fault Refusal :=
  lanewise (.orn g d a b) g d (fun s l => src s a.toNat l ||| ~~~(src s b.toNat l)) s

/-- `LOP3` (R182). -/
def execLop3 (g : Guard) (tt : BitVec 8) (d : RegNo) (a : RegNo) (b : RegNo) (c : RegNo) (s : State) : Host.Outcome State Fault Refusal :=
  lanewise (.lop3 g tt d a b c) g d (fun s l => lop3W tt (src s a.toNat l) (src s b.toNat l) (src s c.toNat l)) s

/-- `SHL` (R184). -/
def execShl (g : Guard) (d : RegNo) (a : RegNo) (b : RegNo) (s : State) : Host.Outcome State Fault Refusal :=
  lanewise (.shl g d a b) g d (fun s l => shlW (src s a.toNat l) (src s b.toNat l)) s

/-- `SHR` (R184). -/
def execShr (g : Guard) (d : RegNo) (a : RegNo) (b : RegNo) (s : State) : Host.Outcome State Fault Refusal :=
  lanewise (.shr g d a b) g d (fun s l => shrW (src s a.toNat l) (src s b.toNat l)) s

/-- `SRA` (R184). -/
def execSra (g : Guard) (d : RegNo) (a : RegNo) (b : RegNo) (s : State) : Host.Outcome State Fault Refusal :=
  lanewise (.sra g d a b) g d (fun s l => sraW (src s a.toNat l) (src s b.toNat l)) s

/-- `ROL` (R184). -/
def execRol (g : Guard) (d : RegNo) (a : RegNo) (b : RegNo) (s : State) : Host.Outcome State Fault Refusal :=
  lanewise (.rol g d a b) g d (fun s l => rolW (src s a.toNat l) (src s b.toNat l)) s

/-- `ROR` (R184). -/
def execRor (g : Guard) (d : RegNo) (a : RegNo) (b : RegNo) (s : State) : Host.Outcome State Fault Refusal :=
  lanewise (.ror g d a b) g d (fun s l => rorW (src s a.toNat l) (src s b.toNat l)) s

/-- `FSL` (R184). -/
def execFsl (g : Guard) (d : RegNo) (a : RegNo) (b : RegNo) (c : RegNo) (s : State) : Host.Outcome State Fault Refusal :=
  lanewise (.fsl g d a b c) g d (fun s l => fslW (src s a.toNat l) (src s b.toNat l) (src s c.toNat l)) s

/-- `FSR` (R184). -/
def execFsr (g : Guard) (d : RegNo) (a : RegNo) (b : RegNo) (c : RegNo) (s : State) : Host.Outcome State Fault Refusal :=
  lanewise (.fsr g d a b c) g d (fun s l => fsrW (src s a.toNat l) (src s b.toNat l) (src s c.toNat l)) s

/-- `POPC` (R185). -/
def execPopc (g : Guard) (d : RegNo) (a : RegNo) (s : State) : Host.Outcome State Fault Refusal :=
  lanewise (.popc g d a) g d (fun s l => BitVec.ofNat 32 (popcW (src s a.toNat l))) s

/-- `CLZ` (R185). -/
def execClz (g : Guard) (d : RegNo) (a : RegNo) (s : State) : Host.Outcome State Fault Refusal :=
  lanewise (.clz g d a) g d (fun s l => BitVec.ofNat 32 (clzW (src s a.toNat l))) s

/-- `CTZ` (R185). -/
def execCtz (g : Guard) (d : RegNo) (a : RegNo) (s : State) : Host.Outcome State Fault Refusal :=
  lanewise (.ctz g d a) g d (fun s l => BitVec.ofNat 32 (ctzW (src s a.toNat l))) s

/-- `BREV` (R185). -/
def execBrev (g : Guard) (d : RegNo) (a : RegNo) (s : State) : Host.Outcome State Fault Refusal :=
  lanewise (.brev g d a) g d (fun s l => brevW (src s a.toNat l)) s

/-- `BFX_I32` (R185). -/
def execBfxI32 (g : Guard) (d : RegNo) (a : RegNo) (c : RegNo) (s : State) : Host.Outcome State Fault Refusal :=
  lanewise (.bfxI32 g d a c) g d (fun s l => bfxI (src s a.toNat l) (src s c.toNat l)) s

/-- `BFX_N32` (R185). -/
def execBfxN32 (g : Guard) (d : RegNo) (a : RegNo) (c : RegNo) (s : State) : Host.Outcome State Fault Refusal :=
  lanewise (.bfxN32 g d a c) g d (fun s l => bfxN (src s a.toNat l) (src s c.toNat l)) s

/-- `BFI` (R185). -/
def execBfi (g : Guard) (d : RegNo) (a : RegNo) (b : RegNo) (c : RegNo) (s : State) : Host.Outcome State Fault Refusal :=
  lanewise (.bfi g d a b c) g d (fun s l => bfiW (src s a.toNat l) (src s b.toNat l) (src s c.toNat l)) s

/-- `BIL2` (R186). -/
def execBil2 (g : Guard) (d : RegNo) (a : RegNo) (b : RegNo) (s : State) : Host.Outcome State Fault Refusal :=
  lanewise (.bil2 g d a b) g d (fun s l => bil2W (src s a.toNat l) (src s b.toNat l)) s

/-- `BIL3` (R186). -/
def execBil3 (g : Guard) (d : RegNo) (a : RegNo) (b : RegNo) (c : RegNo) (s : State) : Host.Outcome State Fault Refusal :=
  lanewise (.bil3 g d a b c) g d (fun s l => bil3W (src s a.toNat l) (src s b.toNat l) (src s c.toNat l)) s

/-- `BDL3` (R186). -/
def execBdl3 (g : Guard) (d : RegNo) (a : RegNo) (b : RegNo) (s : State) : Host.Outcome State Fault Refusal :=
  lanewise (.bdl3 g d a b) g d (fun s l => bdl3W (src s a.toNat l) (src s b.toNat l)) s

/-- `BDL2` (R186). -/
def execBdl2 (g : Guard) (d : RegNo) (a : RegNo) (b : RegNo) (s : State) : Host.Outcome State Fault Refusal :=
  lanewise (.bdl2 g d a b) g d (fun s l => bdl2W (src s a.toNat l) (src s b.toNat l)) s

/-- `ICMP` (R187): into a register, or a predicate bit of the climber. -/
def execIcmp (g : Guard) (cond : Cond) (comb : Comb) (pred : Bool) (d : RegNo) (a : RegNo) (b : RegNo) (c : RegNo) (s : State) :
    Host.Outcome State Fault Refusal :=
  issue (.icmp g cond comb pred d a b c) (fun s =>
    let t (l : Nat) : Bool := condHolds cond (src s a.toNat l) (src s b.toNat l)
    if pred then .done (putPred s (d.toNat % 32) (combB comb (t 0) (predBit s (c.toNat % 32))))
    else .done (putLanes s (active s g) d.toNat fun l => combW comb (boolW (t l)) (src s c.toNat l))) s

/-- `SEL` (R188). -/
def execSel (g : Guard) (d : RegNo) (a : RegNo) (b : RegNo) (c : RegNo) (s : State) : Host.Outcome State Fault Refusal :=
  lanewise (.sel g d a b c) g d (fun s l => if src s c.toNat l ≠ 0 then src s a.toNat l else src s b.toNat l) s

/-- `SXT_8` (R189). -/
def execSxt8 (g : Guard) (d : RegNo) (a : RegNo) (s : State) : Host.Outcome State Fault Refusal :=
  lanewise (.sxt8 g d a) g d (fun s l => ((src s a.toNat l).setWidth 8).signExtend 32) s

/-- `SXT_16` (R189). -/
def execSxt16 (g : Guard) (d : RegNo) (a : RegNo) (s : State) : Host.Outcome State Fault Refusal :=
  lanewise (.sxt16 g d a) g d (fun s l => ((src s a.toNat l).setWidth 16).signExtend 32) s

/-- `ZXT_8` (R189). -/
def execZxt8 (g : Guard) (d : RegNo) (a : RegNo) (s : State) : Host.Outcome State Fault Refusal :=
  lanewise (.zxt8 g d a) g d (fun s l => ((src s a.toNat l).setWidth 8).setWidth 32) s

/-- `ZXT_16` (R189). -/
def execZxt16 (g : Guard) (d : RegNo) (a : RegNo) (s : State) : Host.Outcome State Fault Refusal :=
  lanewise (.zxt16 g d a) g d (fun s l => ((src s a.toNat l).setWidth 16).setWidth 32) s

/-- `PRM` (R189). -/
def execPrm (g : Guard) (d : RegNo) (a : RegNo) (b : RegNo) (c : RegNo) (s : State) : Host.Outcome State Fault Refusal :=
  lanewise (.prm g d a b c) g d (fun s l => prmW (src s a.toNat l) (src s b.toNat l) (src s c.toNat l)) s

/-- `BSWP` (R189). -/
def execBswp (g : Guard) (d : RegNo) (a : RegNo) (s : State) : Host.Outcome State Fault Refusal :=
  lanewise (.bswp g d a) g d (fun s l => bswpW (src s a.toNat l)) s

/-- `DIV_I32` (R190). -/
def execDivI32 (g : Guard) (d : RegNo) (a : RegNo) (b : RegNo) (s : State) : Host.Outcome State Fault Refusal :=
  lanewise (.divI32 g d a b) g d (fun s l => divI (src s a.toNat l) (src s b.toNat l)) s

/-- `DIV_N32` (R190). -/
def execDivN32 (g : Guard) (d : RegNo) (a : RegNo) (b : RegNo) (s : State) : Host.Outcome State Fault Refusal :=
  lanewise (.divN32 g d a b) g d (fun s l => divN (src s a.toNat l) (src s b.toNat l)) s

/-- `REM_I32` (R190). -/
def execRemI32 (g : Guard) (d : RegNo) (a : RegNo) (b : RegNo) (s : State) : Host.Outcome State Fault Refusal :=
  lanewise (.remI32 g d a b) g d (fun s l => remI (src s a.toNat l) (src s b.toNat l)) s

/-- `REM_N32` (R190). -/
def execRemN32 (g : Guard) (d : RegNo) (a : RegNo) (b : RegNo) (s : State) : Host.Outcome State Fault Refusal :=
  lanewise (.remN32 g d a b) g d (fun s l => remN (src s a.toNat l) (src s b.toNat l)) s

/-- `MOV` (R191). -/
def execMov (g : Guard) (d : RegNo) (a : RegNo) (s : State) : Host.Outcome State Fault Refusal :=
  lanewise (.mov g d a) g d (fun s l => src s a.toNat l) s

/-- `MOV64` (R191). -/
def execMov64 (g : Guard) (d : RegNo) (a : RegNo) (s : State) : Host.Outcome State Fault Refusal :=
  lanewise64 (.mov64 g d a) g d (fun s l => src64 s a.toNat l) s

/-- `MPADD` (R195, R196). -/
def execMpadd (g : Guard) (dig : BitVec 5) (d : RegNo) (a : RegNo) (b : RegNo) (s : State) : Host.Outcome State Fault Refusal :=
  issue (.mpadd g dig d a b) (fun s =>
    let ls := active s g
    let p (l : Nat) : DWord := src64 s a.toNat l
    let new (l : Nat) : Option DWord := mpaddLane s dig.toNat (p l) (src s b.toNat l).toInt
    trapLanes s ls (fun l => match mptrCause s false (p l) with
        | some c => some (c, p l)
        | none => if (new l).isNone then some (0x17, p l) else none)
      (.done (putLanes64 s ls d.toNat fun l => (new l).getD 0))) s

/-- `MPMK` (R197). -/
def execMpmk (g : Guard) (d : RegNo) (a : RegNo) (b : RegNo) (s : State) : Host.Outcome State Fault Refusal :=
  issue (.mpmk g d a b) (fun s =>
    let ls := active s g
    let p (l : Nat) : DWord := madePointer (src s a.toNat l) (src s b.toNat l)
    trapLanes s ls (fun l =>
        if 2 ^ 27 ≤ (src s a.toNat l).toNat || 2 ^ 22 ≤ (src s b.toNat l).toNat then some (0x17, p l) else none)
      (.done (putLanes64 s ls d.toNat p))) s

/-- `MPCORE` (R197). -/
def execMpcore (g : Guard) (d : RegNo) (a : RegNo) (s : State) : Host.Outcome State Fault Refusal :=
  pointerForm (.mpcore g d a) g a true
    (fun s ls => putLanes s ls d.toNat fun l => BitVec.ofNat 32 (ptrCore (src64 s a.toNat l))) s

/-- `MPOFF` (R197). -/
def execMpoff (g : Guard) (d : RegNo) (a : RegNo) (s : State) : Host.Outcome State Fault Refusal :=
  pointerForm (.mpoff g d a) g a true
    (fun s ls => putLanes s ls d.toNat fun l => BitVec.ofNat 32 (ptrOff (src64 s a.toNat l))) s

/-- `MPLOC` (R197). -/
def execMploc (g : Guard) (d : RegNo) (a : RegNo) (s : State) : Host.Outcome State Fault Refusal :=
  pointerForm (.mploc g d a) g a false
    (fun s ls => putLanes s ls d.toNat fun l =>
      if ptrCore (src64 s a.toNat l) = s.logicalCore then BitVec.ofNat 32 (ptrOff (src64 s a.toNat l)) else 0xFFFFFFFF) s

/-- `ADDI` (R192). -/
def execAddi (g : Guard) (imm : Word) (d : RegNo) (a : RegNo) (s : State) : Host.Outcome State Fault Refusal :=
  lanewise (.addi g imm d a) g d (fun s l => src s a.toNat l + imm) s

/-- `MULI` (R192). -/
def execMuli (g : Guard) (imm : Word) (d : RegNo) (a : RegNo) (s : State) : Host.Outcome State Fault Refusal :=
  lanewise (.muli g imm d a) g d (fun s l => src s a.toNat l * imm) s

/-- `ANDI` (R192). -/
def execAndi (g : Guard) (imm : Word) (d : RegNo) (a : RegNo) (s : State) : Host.Outcome State Fault Refusal :=
  lanewise (.andi g imm d a) g d (fun s l => src s a.toNat l &&& imm) s

/-- `ORI` (R192). -/
def execOri (g : Guard) (imm : Word) (d : RegNo) (a : RegNo) (s : State) : Host.Outcome State Fault Refusal :=
  lanewise (.ori g imm d a) g d (fun s l => src s a.toNat l ||| imm) s

/-- `XORI` (R192). -/
def execXori (g : Guard) (imm : Word) (d : RegNo) (a : RegNo) (s : State) : Host.Outcome State Fault Refusal :=
  lanewise (.xori g imm d a) g d (fun s l => src s a.toNat l ^^^ imm) s

/-- `MOVI` (R192). -/
def execMovi (g : Guard) (imm : Word) (d : RegNo) (s : State) : Host.Outcome State Fault Refusal :=
  lanewise (.movi g imm d) g d (fun _ _ => imm) s

/-- `ICMPI` (R193). -/
def execIcmpi (g : Guard) (cond : Cond) (imm : BitVec 28) (d : RegNo) (a : RegNo) (s : State) : Host.Outcome State Fault Refusal :=
  lanewise (.icmpi g cond imm d a) g d (fun s l => boolW (condHolds cond (src s a.toNat l) (imm.signExtend 32))) s

/-- `SHLI` (R192). -/
def execShli (g : Guard) (imm : Word) (d : RegNo) (a : RegNo) (s : State) : Host.Outcome State Fault Refusal :=
  lanewise (.shli g imm d a) g d (fun s l => shlW (src s a.toNat l) imm) s

/-- `SHRI` (R192). -/
def execShri (g : Guard) (imm : Word) (d : RegNo) (a : RegNo) (s : State) : Host.Outcome State Fault Refusal :=
  lanewise (.shri g imm d a) g d (fun s l => shrW (src s a.toNat l) imm) s

/-- `SRAI` (R192). -/
def execSrai (g : Guard) (imm : Word) (d : RegNo) (a : RegNo) (s : State) : Host.Outcome State Fault Refusal :=
  lanewise (.srai g imm d a) g d (fun s l => sraW (src s a.toNat l) imm) s

/-- `MINI_I32` (R192). -/
def execMiniI32 (g : Guard) (imm : Word) (d : RegNo) (a : RegNo) (s : State) : Host.Outcome State Fault Refusal :=
  lanewise (.miniI32 g imm d a) g d (fun s l => minI (src s a.toNat l) imm) s

/-- `MAXI_I32` (R192). -/
def execMaxiI32 (g : Guard) (imm : Word) (d : RegNo) (a : RegNo) (s : State) : Host.Outcome State Fault Refusal :=
  lanewise (.maxiI32 g imm d a) g d (fun s l => maxI (src s a.toNat l) imm) s

/-- `ADDI64` (R192). -/
def execAddi64 (g : Guard) (imm : Word) (d : RegNo) (a : RegNo) (s : State) : Host.Outcome State Fault Refusal :=
  lanewise64 (.addi64 g imm d a) g d (fun s l => src64 s a.toNat l + imm.signExtend 64) s

/-- `PAIR_WORD` (R21-R24): both slots read before either writes. -/
def execPairWord (x : PairSlot) (y : Option PairSlot) (s : State) : Host.Outcome State Fault Refusal :=
  issue (.pairWord x y) (fun s =>
    let ls := active s .none
    let out (t : State) (p : PairSlot) : State :=
      raise (putLanes t ls p.d.toNat fun l => (slotResult s p l).1) (Flags.all (ls.map fun l => (slotResult s p l).2))
    match y with
    | none => .done (out s x)
    | some y => .done (out (out s x) y)) s

end Sys2Proof.Machine
end

