-- ==== Sys2Proof/Machine/LaneOps.lean ====
section
/-! DEFINITION. The meanings of the lane instructions (R209-R213). -/

namespace Sys2Proof.Machine

/-! SHFL (R210). -/

/-- The index within its segment that a lane reads, if any. -/
def shflIndex (kind : ShflKind) (fate : ShflFate) (w i b : Nat) : Option Nat :=
  let j : Int := match kind with
    | .idx => b
    | .up => (i : Int) - b
    | .dn => (i : Int) + b
    | .xor => ((i ^^^ b : Nat) : Int)
  if 0 ≤ j && j < w then some j.toNat
  else match fate with
    | .wrap => some (j % (w : Int)).toNat
    | .clamp => some (max 0 (min j ((w : Int) - 1))).toNat
    | .own => none
    | .zero => none

/-- What lane `l` receives. -/
def shflLane (kind : ShflKind) (fate : ShflFate) (w : Nat) (m : Word) (a b : Nat → Word) (l : Nat) : Word :=
  let missing : Word := if fate = .own then a l else 0
  match shflIndex kind fate w (l % w) (b l).toNat with
  | none => missing
  | some j => if m.getLsbD (l / w * w + j) then a (l / w * w + j) else missing

/-- `SHFL` (R210). -/
def execShfl (g : Guard) (kind : ShflKind) (width : BitVec 3) (fate : ShflFate) (d : RegNo) (a : RegNo) (b : RegNo)
    (s : State) : Host.Outcome State Fault Refusal :=
  issue (.shfl g kind width fate d a b) (fun s =>
    let m := activeMask s g
    .done (putLanes s (lanesOf m) d.toNat fun l =>
      shflLane kind fate (2 ^ width.toNat) m (src s a.toNat) (src s b.toNat) l)) s

/-! VOTE (R211). -/

/-- The active lanes whose A is nonzero. -/
def nonzeroLanes (s : State) (g : Guard) (a : RegNo) : Word :=
  maskOf fun l => (activeMask s g).getLsbD l && src s a.toNat l != 0

/-- `VOTE_ANY` (R211). -/
def execVoteAny (g : Guard) (d : RegNo) (a : RegNo) (s : State) : Host.Outcome State Fault Refusal :=
  lanewise (.voteAny g d a) g d (fun s _ => boolW (nonzeroLanes s g a != 0)) s

/-- `VOTE_ALL` (R211). -/
def execVoteAll (g : Guard) (d : RegNo) (a : RegNo) (s : State) : Host.Outcome State Fault Refusal :=
  lanewise (.voteAll g d a) g d (fun s _ => boolW (nonzeroLanes s g a == activeMask s g)) s

/-- `VOTE_UNI` (R211). -/
def execVoteUni (g : Guard) (d : RegNo) (a : RegNo) (s : State) : Host.Outcome State Fault Refusal :=
  lanewise (.voteUni g d a) g d
    (fun s _ => boolW ((active s g).all fun l => src s a.toNat l == src s a.toNat (firstLane s g))) s

/-- `BALLOT` (R211). -/
def execBallot (g : Guard) (d : RegNo) (a : RegNo) (s : State) : Host.Outcome State Fault Refusal :=
  lanewise (.ballot g d a) g d (fun s _ => nonzeroLanes s g a) s

/-- `MATCH` (R211). -/
def execMatchLanes (g : Guard) (d : RegNo) (a : RegNo) (s : State) : Host.Outcome State Fault Refusal :=
  lanewise (.matchLanes g d a) g d
    (fun s l => maskOf fun j => (activeMask s g).getLsbD j && src s a.toNat j == src s a.toNat l) s

/-! LRED and LSCAN (R212, R59). -/

/-- The combination of two values that is not a float sum. -/
def laneCombine (op : LaneOp) (x y : Word) : Word :=
  match op with
  | .addI => x + y
  | .minI => minI x y
  | .maxI => maxI x y
  | .minN => minN x y
  | .maxN => maxN x y
  | .and => x &&& y
  | .or => x ||| y
  | .xor => x ^^^ y
  | .fadd => (f32Add x y).1
  | .fmax => fmaxW x y
  | .fmin => fminW x y

def laneIdentity (op : LaneOp) : Word :=
  match op with
  | .addI => 0
  | .minI => 0x7FFFFFFF
  | .maxI => 0x80000000
  | .minN => 0xFFFFFFFF
  | .maxN => 0
  | .and => 0xFFFFFFFF
  | .or => 0
  | .xor => 0
  | .fadd => 0x80000000
  | .fmax => 0xFF800000
  | .fmin => 0x7F800000

/-- A word whose NaN is canonical, whether or not arithmetic made it (R47). -/
def canonicalNan (x : Word) : Word := if (f32 x).isNan then 0x7FC00000 else x

/-- A combination of lanes' values: the identity of none, a single NaN made canonical (R47, R59). -/
def laneFold (op : LaneOp) (vs : List Word) : Word :=
  match vs with
  | [] => laneIdentity op
  | v :: vs =>
    let r := vs.foldl (laneCombine op) v
    match op with
    | .fmax => canonicalNan r
    | .fmin => canonicalNan r
    | _ => r

/-- One level of the tree of R59: neighbours added, with their flags. -/
def treeStep : List Word → List Word × Flags
  | x :: y :: rest =>
    let r := f32Add x y
    let t := treeStep rest
    (r.1 :: t.1, r.2 ||| t.2)
  | vs => (vs, 0)

/-- The tree, `n` levels deep. -/
def treeSum : Nat → List Word → Word × Flags
  | 0, vs => (vs.headD 0, 0)
  | n + 1, vs =>
    let t := treeStep vs
    let r := treeSum n t.1
    (r.1, t.2 ||| r.2)

/-- One step of the scan of R59 at width `w`, with the flags of the additions of the lanes of a mask (R64). -/
def scanStep (m : Word) (w : Nat) (vs : List Word) : List Word × Flags :=
  let out := (List.range vs.length).map fun l =>
    if w ≤ l then
      let r := f32Add (vs.getD (l - w) 0) (vs.getD l 0)
      (r.1, if m.getLsbD l then r.2 else 0)
    else (vs.getD l 0, 0)
  (out.map (·.1), Flags.all (out.map (·.2)))

/-- The scan of R59. Both forms raise the flags of the additions whose results are inclusive ones of active lanes, which is the
model's reading (log 75). -/
def scanSum (m : Word) (vs : List Word) : List Word × Flags :=
  let r := [1, 2, 4, 8, 16].foldl (fun r w => let t := scanStep m w r.1; (t.1, r.2 ||| t.2)) (vs, 0)
  (r.1.map canonicalNan, r.2)

/-- The 32 lane values with −0.0 in inactive lanes. -/
def paddedLanes (m : Word) (f : Nat → Word) : List Word :=
  (List.range 32).map fun l => if m.getLsbD l then f l else 0x80000000

/-- `LRED` (R212). -/
def execLred (g : Guard) (op : LaneOp) (d : RegNo) (a : RegNo) (s : State) : Host.Outcome State Fault Refusal :=
  issue (.lred g op d a) (fun s =>
    let m := activeMask s g
    let r : Word × Flags := if op = .fadd then treeSum 5 (paddedLanes m (src s a.toNat))
      else (laneFold op ((lanesOf m).map (src s a.toNat)), 0)
    .done (raise (putLanes s (lanesOf m) d.toNat fun _ => r.1) r.2)) s

/-- `LSCAN` (R212). -/
def execLscan (g : Guard) (op : LaneOp) (ex : Bool) (d : RegNo) (a : RegNo) (s : State) : Host.Outcome State Fault Refusal :=
  issue (.lscan g op ex d a) (fun s =>
    let m := activeMask s g
    if op = .fadd then
      let r := scanSum m (paddedLanes m (src s a.toNat))
      .done (raise (putLanes s (lanesOf m) d.toNat fun l =>
        if ex then (if l = 0 then 0x80000000 else r.1.getD (l - 1) 0) else r.1.getD l 0) r.2)
    else
      .done (putLanes s (lanesOf m) d.toNat fun l =>
        laneFold op (((lanesOf m).filter fun j => if ex then decide (j < l) else decide (j ≤ l)).map (src s a.toNat)))) s

/-! LANES (R213). -/

/-- `LMASK` (R213). -/
def execLmask (g : Guard) (d : RegNo) (s : State) : Host.Outcome State Fault Refusal :=
  lanewise (.lmask g d) g d (fun s _ => activeMask s g) s

/-- `LBELOW` (R213). -/
def execLbelow (g : Guard) (d : RegNo) (s : State) : Host.Outcome State Fault Refusal :=
  lanewise (.lbelow g d) g d (fun s l => activeMask s g &&& BitVec.ofNat 32 (2 ^ l - 1)) s

/-- `LCNT` (R213). -/
def execLcnt (g : Guard) (d : RegNo) (s : State) : Host.Outcome State Fault Refusal :=
  lanewise (.lcnt g d) g d (fun s _ => BitVec.ofNat 32 (active s g).length) s

/-- `LFIRST` (R213). -/
def execLfirst (g : Guard) (d : RegNo) (s : State) : Host.Outcome State Fault Refusal :=
  lanewise (.lfirst g d) g d (fun s _ => BitVec.ofNat 32 (firstLane s g)) s

/-- `ELECT` (R213). -/
def execElect (g : Guard) (d : RegNo) (s : State) : Host.Outcome State Fault Refusal :=
  lanewise (.elect g d) g d (fun s l => boolW (l == firstLane s g)) s

end Sys2Proof.Machine
end

