-- ==== Sys2Proof/Machine/Package.lean ====
section
/-! DEFINITION. The package around its cores: start-up and reset (R369, R370), power, clocks and temperature (R366, R373, R374),
flight links and membership (R364-R368), the mailbox (R362), readback (R372), SPDM (R371) and the IEEE 1149.1 port. -/

namespace Sys2Proof.Machine

/-! Start-up (R369, R370). -/

/-- The firmware a start verifies: the staged image, or the one that runs. -/
def startFirmware (s : State) : Firmware := s.staged.getD s.firmware

/-- WHY of a start that cannot pass the checks of its firmware, else what the outside gave. -/
def startWhy (s : State) (outside : Nat) : Nat :=
  let f := startFirmware s
  if !f.valid then 1 else if f.version < Config.fusedVersion then 2 else if 3 ≤ outside && outside ≤ 6 then outside else 0

/-- A start fails: counted, its WHY kept, the third in a row enters minimal mode. -/
def failStart (why : Nat) (s : State) : State :=
  let n := s.fails + 1
  let s := { s with fails := n, why := why, startedAt := s.clk }
  if 3 ≤ n then { s with min := true, msix := s.msix ++ [3] } else s

/-- The lowest healthy core of a die, where its supervisor stands. -/
def supervisorCore (s : State) (die : Nat) : Option Nat :=
  ((List.range 640).map fun k => coreWord s.pkg die (k / 20) (k % 20)).find? fun c => !s.outOfService c

/-- Cores that fail their self-test stay out of service and are reported (R4, R369). -/
def failCores (cores : List Nat) (s : State) : State :=
  (cores.filter fun c => coreExists c && corePkg c == s.pkg).foldl (fun s c =>
    report (s.updCore c fun v => { v with off := true }) (reportBits 3 c 0 0 0 0 0 0 s.clk 0)) s

/-- The measurement blocks of R371: ROM, the two firmwares, and the fuses with the security version. -/
def measure (f : Firmware) (s : State) : State :=
  { s with measured := [1, 2, 3, 4].map fun k => (k, Config.digest k f.version) }

/-- A start succeeds: key slot 0 is drawn, the supervisors stand, UP is set. A package that joins others takes the `clk` of the
reference, a free value (R366, log 5). -/
def finishStart (s : State) : State :=
  { s with
    keys := Sparse.set none s.keys 0 (some (Config.randomKey s.nonce))
    mismatched := Config.mismatched s.nonce
    clk := if s.pkg = 0 || s.torusX * s.torusY = 1 then s.clk else Config.freeNat s.nonce % 2 ^ 64
    supervisors := (List.range 8).map fun d => (d, supervisorCore s d)
    firmware := startFirmware s, staged := none, fails := 0, up := true }

/-- `STARTUP`: why, 0 for a start that nothing outside fails; then the cores that fail their self-test (R369). The measurements are
extended once the signature has verified; a start of more than 2^36 counts is the watchdog's. -/
def execStartup (s : State) : Host.Outcome State Fault Refusal :=
  event (fun s => match s.nums with
    | why :: failing =>
      if s.up || s.min then s
      else if 2 ^ 36 ≤ s.clkSince s.startedAt then failStart 6 s
      else
        let t := if startWhy s why = 1 then s else measure (startFirmware s) s
        if startWhy s why = 0 then finishStart (failCores failing t) else failStart (startWhy s why) t
    | [] => s) s

/-- `STARTUP_WATCHDOG`: the start has taken 2^36 counts. -/
def execStartupWatchdog (s : State) : Host.Outcome State Fault Refusal :=
  event (fun s => if !s.up && !s.min && decide (2 ^ 36 ≤ s.clkSince s.startedAt) then failStart 6 s else s) s

/-- What a core keeps over a warm reset: that it is out of service, and MCHK. -/
def keepCore (c : Core) : Core := { sealed := c.sealed, off := c.off, mchk := c.mchk }

/-- A key of memory outside the package: the host's or the pool's. -/
def outsideKey (k : Nat) : Bool := decide (2 ^ 65 ≤ k && k < 2 ^ 66) || (decide (k < 2 ^ 56) && (dpaSpace k == 1 || dpaSpace k == 2))

/-- The state a reset leaves (log 31): a cold one all but FAILS, WHY, the firmware, the cores out of service but for their seals (R4,
R349), and what stands outside; a warm one also
`clk`, memory, seals, keys and the settings that last until cold reset. -/
def resetState (cold : Bool) (s : State) : State :=
  let fresh := { State.reset with fails := s.fails, why := s.why, firmware := s.firmware, staged := s.staged, nonce := s.nonce, nextId := s.nextId }
  if cold then
    { fresh with mem := s.mem.filter fun c => outsideKey c.1
                 cores := (s.cores.filter fun c => c.2.off).map fun (c : Nat × Core) => (c.1, { off := true })
                 lines := (s.lines.filter fun l => outsideKey (l.1 * 128)).map fun (l : Nat × Line) => (l.1, { key := l.2.key }) }
  else
    { fresh with
      clk := s.clk, startedAt := s.clk, mem := s.mem
      lines := s.lines.map fun (l : Nat × Line) => (l.1, { key := l.2.key })
      cores := (s.cores.filter fun c => keepCore c.2 != {}).map fun (c : Nat × Core) => (c.1, keepCore c.2)
      badLs := s.badLs, badHbm := s.badHbm, badArray := s.badArray, corrected := s.corrected
      keys := s.keys, keyLock := s.keyLock, pkg := s.pkg, torusX := s.torusX, torusY := s.torusY
      jtag := { s.jtag with instr := 0 } }

/-- `RESET`: cold. -/
def execReset (s : State) : Host.Outcome State Fault Refusal :=
  command 0xC003 true (fun s => match s.nums with
    | [cold] => (resetState (cold == 1) s, 0, [])
    | _ => (s, 1, [])) s

/-- `STAGE_FIRMWARE`: signature valid, security version; with a third number, the end of the work in the background. -/
def execStageFirmware (s : State) : Host.Outcome State Fault Refusal :=
  event (fun s => match s.nums with
    | [valid, version] =>
      startBackground 0xC002 (fun s => (s.post .stageFirmware (.nums [valid, version, 1]), 0)) s
    | [valid, version, _] =>
      if s.background = some 0xC002 then endBackground 0 [] { s with staged := some ⟨valid == 1, version⟩ } else s
    | _ => reply 0xC002 (s, 1, [])) s

/-- `CLEAR_START_FAILURES`: once an image that verifies is staged. -/
def execClearStartFailures (s : State) : Host.Outcome State Fault Refusal :=
  command 0xC004 true (fun s => if s.staged.any (·.valid) then ({ s with fails := 0 }, 0, []) else (s, 2, [])) s

/-! Clocks, power and temperature (R366, R373, R374). -/

def islandAt (s : State) (i : Nat) : Island := Sparse.get {} s.islands i
def setIsland (i : Nat) (v : Island) (s : State) : State := { s with islands := Sparse.set {} s.islands i v }

/-- `CLOCK_ALIGNMENT_EXCHANGE`: counts ahead, counts behind the reference, every 2^20 counts of `clk`; package 0 is the reference
(R366). What is corrected, and when, is `passTime`'s. -/
def execClockAlignmentExchange (s : State) : Host.Outcome State Fault Refusal :=
  event (fun s => match s.nums with
    | [ahead, behind] =>
      if 2 ^ 20 ≤ s.clkSince s.exchanged then
        { s with exchanged := s.clk, lag := if s.pkg = 0 then 0 else (behind : Int) - (ahead : Int) }
      else s
    | _ => s) s

/-- `clk` advances by `n` counts; where it is due, one count advances by 2 for a package behind, or by 0 for one that is ahead: at
most once per 1,024 counts, and never backward (R366). -/
def passTime (n : Nat) (s : State) : State :=
  if s.lag = 0 || n = 0 || s.clkSince s.slewed < 1024 then { s with clk := s.clkAfter n }
  else if 0 < s.lag then { s with clk := s.clkAfter (n + 1), lag := s.lag - 1, slewed := s.clkAfter (n + 1) }
  else { s with clk := s.clkAfter (n - 1), lag := s.lag + 1, slewed := s.clkAfter (n - 1) }

/-- An island is lowered by 25 MHz, if it is above its floor; vector 2 when it reaches it. -/
def lowerIsland (i : Nat) (s : State) : State :=
  let v := islandAt s i
  if v.mhz ≤ v.floor then s
  else
    let m := max v.floor (v.mhz - 25)
    let s := setIsland i { v with mhz := m } s
    if m = v.floor then { s with msix := s.msix ++ [2] } else s

/-- The island of lowest clock below its ceiling, the lowest on a tie. -/
def slowestIsland (s : State) : Option Nat :=
  ((List.range 16).filter fun i => (islandAt s i).mhz < (islandAt s i).ceiling).foldl (fun b i => match b with
    | none => some i
    | some j => if (islandAt s i).mhz < (islandAt s j).mhz then some i else some j) none

/-- `POWER_CONTROL_TICK`: measured power, the island of highest power above its floor; every 2^16 counts of `clk` (R373). -/
def execPowerControlTick (s : State) : Host.Outcome State Fault Refusal :=
  event (fun s => match s.nums with
    | [power, hottest] =>
      if s.clkSince s.powerAt < 2 ^ 16 then s
      else
      let s := { s with powerAt := s.clk }
      if s.cap < power then lowerIsland (hottest % 16) s
      else if power * 100 < s.cap * 95 then
        match slowestIsland s with
        | none => s
        | some i => setIsland i { islandAt s i with mhz := min (islandAt s i).ceiling ((islandAt s i).mhz + 25) } s
      else s
    | _ => s) s

/-- `JUNCTION_THROTTLE`: island. -/
def execJunctionThrottle (s : State) : Host.Outcome State Fault Refusal :=
  event (fun s => match s.nums with
    | [i] => lowerIsland (i % 16) s
    | _ => s) s

/-- `THERMAL_HALT`: every core halts, KIND 8 is reported, and the cores are held. -/
def execThermalHalt (s : State) : Host.Outcome State Fault Refusal :=
  event (fun s =>
    if s.thermal then s
    else report { (allCores s).foldr setHalted s with thermal := true, msix := s.msix ++ [2] } (reportBits 8 0 0 0 0 0 0 0 s.clk 0)) s

/-- `SET_POWER_CAP`: cap, island, floor, ceiling. -/
def execSetPowerCap (s : State) : Host.Outcome State Fault Refusal :=
  command 0xC040 false (fun s => match s.nums with
    | [cap, i, lo, hi] =>
      if cap < 1000 || 5200 < cap || 16 ≤ i || lo < 1200 || hi < lo || 2400 < hi || lo % 25 ≠ 0 || hi % 25 ≠ 0 then (s, 1, [])
      else (setIsland i { islandAt s i with floor := lo, ceiling := hi } { s with cap := cap }, 0, [])
    | _ => (s, 1, [])) s

/-! The scale-up domain (R364, R365). -/

/-- `SET_DOMAIN_CONFIGURATION`: id, WX, WY; before the flight links train. -/
def execSetDomainConfiguration (s : State) : Host.Outcome State Fault Refusal :=
  command 0xC041 false (fun s => match s.nums with
    | [id, wx, wy] =>
      if s.up then (s, 2, [])
      else if wx < 1 || 128 < wx || wy < 1 || 128 < wy || wx ≤ id % 128 || wy ≤ id / 128 then (s, 1, [])
      else ({ s with pkg := id, torusX := wx, torusY := wy }, 0, [])
    | _ => (s, 1, [])) s

def linkOf (flight : Bool) (s : State) (l : Nat) : Link := Sparse.get {} (if flight then s.flights else s.ports) l

def setLink (flight : Bool) (l : Nat) (v : Link) (s : State) : State :=
  if flight then { s with flights := Sparse.set {} s.flights l v } else { s with ports := Sparse.set {} s.ports l v }

/-- The packages of the membership tables that lie outside the domain, each since when it left (R368). -/
def noteAway (s : State) : State :=
  let named := (s.tables.flatMap fun t => (t.2.ranks.filter (·.2)).map (·.1)).eraseDups
  let kept := s.away.filter fun a => !s.inDomain a.1
  { s with away := kept ++ (named.filter fun p => !s.inDomain p && !kept.any (·.1 == p)).map fun p => (p, s.clk) }

/-- `LINK_ACTIVE_STATE_CHANGE`: flight, link, active (R86, R365). A lost flight link stays replaced by its substitute. -/
def execLinkActiveStateChange (s : State) : Host.Outcome State Fault Refusal :=
  event (fun s => match s.nums with
    | [flight, l, active] =>
      let f := flight == 1
      let v := linkOf f s l
      if active = 1 then noteAway (setLink f l { v with active := true, downAt := 0, lost := v.lost && f } s)
      else if v.active then setLink f l { v with active := false, downAt := s.clk } s
      else s
    | _ => s) s

/-- A link has been down for 2,000,000 counts. -/
def linkOverdue (s : State) (v : Link) : Bool := !v.active && !v.lost && decide (2000000 ≤ s.clkSince v.downAt)

/-- `FLIGHT_LINK_LOSS`: link. KIND 6; its traffic takes the substitute, and none is lost (R365). -/
def execFlightLinkLoss (s : State) : Host.Outcome State Fault Refusal :=
  event (fun s => match s.nums with
    | [l] =>
      if linkOverdue s (linkOf true s l) then
        report (noteAway (setLink true l { linkOf true s l with lost := true } s)) (reportBits 6 0 0 0 0 0 0 l s.clk 0)
      else s
    | _ => s) s

/-- `FLIGHT_FLIT_REPLAY`: link. The flit is sent again and nothing is lost (R365); replays are counted
(log 95). -/
def execFlightFlitReplay (s : State) : Host.Outcome State Fault Refusal :=
  event (fun s => match s.nums with
    | [l] => setLink true l { linkOf true s l with count := (linkOf true s l).count + 1 } s
    | _ => s) s

/-! Membership (R367, R368). -/

def tableOf (s : State) (t : Nat) : Members := Sparse.get {} s.tables t

/-- A rank loses LIVE and the epoch advances; KIND 7. -/
def removeRank (t rank : Nat) (s : State) : State :=
  let v := tableOf s t
  let p := (v.ranks.getD rank (0, false)).1
  report { s with tables := Sparse.set {} s.tables t (Members.of (v.epoch + 1) (v.ranks.set rank (p, false))) }
    (reportBits 7 0 0 0 0 0 0 rank s.clk 0)

/-- The rank is a member. -/
def rankLive (s : State) (t rank : Nat) : Bool := ((tableOf s t).ranks.getD rank (0, false)).2

/-- `MEMBER_REMOVAL`: table, rank, whose package lies outside the domain: removed when it has for 2,000,000 counts, those of a package
whose loss no link of this one shows being counted from the first notice of it. -/
def execMemberRemoval (s : State) : Host.Outcome State Fault Refusal :=
  event (fun s => match s.nums with
    | [t, rank] =>
      let p := ((tableOf s t).ranks.getD rank (0, false)).1
      if !rankLive s t rank then s
      else match s.away.find? (·.1 == p) with
        | none => { s with away := s.away ++ [(p, s.clk)] }
        | some a => if 2000000 ≤ s.clkSince a.2 then removeRank t rank s else s
    | _ => s) s

/-- `WRITE_MEMBERSHIP_TABLE`: table, then the package of each rank. -/
def execWriteMembershipTable (s : State) : Host.Outcome State Fault Refusal :=
  command 0xC019 false (fun s => match s.nums with
    | t :: pkgs =>
      if 256 ≤ t || pkgs.isEmpty || 16384 < pkgs.length || 1 < (pkgs.filter (· == s.pkg)).length || pkgs.any (fun p => !s.inDomain p) then
        (s, 1, [])
      else ({ s with tables := Sparse.set {} s.tables t (Members.of 0 (pkgs.map fun p => (p, true))) }, 0, [])
    | [] => (s, 1, [])) s

/-- `REMOVE_MEMBER`: table, rank; with a third number, the end of the work in the background. -/
def execRemoveMember (s : State) : Host.Outcome State Fault Refusal :=
  event (fun s => match s.nums with
    | [t, rank, _] =>
      if s.background = some 0xC01A then endBackground 0 [] (if rankLive s t rank then removeRank t rank s else s) else s
    | [t, rank] =>
      if s.min then reply 0xC01A (s, 5, [])
      else startBackground 0xC01A (fun s =>
        if rankLive s t rank then (s.post .removeMember (.nums [t, rank, 1]), 0) else (s, 1)) s
    | _ => reply 0xC01A (s, if s.min then 5 else 1, [])) s

/-! Other commands of the mailbox (R362). -/

/-- `IDENTIFY`: part, firmware version, package id, torus size. -/
def execIdentify (s : State) : Host.Outcome State Fault Refusal :=
  command 0xC000 true (fun s => (s, 0, [Config.partNumber, s.firmware.version, s.pkg, s.torusX, s.torusY])) s

/-- `GET_STATUS`: measured power and temperature come from outside; BOOTSTAT and the island clocks from the state. -/
def execGetStatus (s : State) : Host.Outcome State Fault Refusal :=
  command 0xC001 true (fun s => match s.nums with
    | [power, temp] => (s, 0, (bootWord s).toNat :: ((List.range 16).map fun i => s.mhz i) ++ [power, temp])
    | _ => (s, 1, [])) s

/-- `CONFIGURE_HOST_LAUNCH_RING`: ring, LOG2N, priority, privileged. The ring is empty, the arbiter at cursor 0 (R306, R360). -/
def execConfigureHostLaunchRing (s : State) : Host.Outcome State Fault Refusal :=
  command 0xC016 false (fun s => match s.nums with
    | [i, log2n, prio, priv] =>
      if 64 ≤ i || 8 < log2n || 15 < prio then (s, 1, [])
      else
        let mem := Memory.store s.mem (ringKey i 0) (64 + 4 * 2 ^ log2n) (log2n + 3 * 2 ^ 4 + 2 ^ 8 + 0x2000 * 2 ^ 32)
        ({ s with mem := mem, rings := Sparse.set {} s.rings i { log2n := log2n, prio := prio, priv := priv == 1 } }, 0, [])
    | _ => (s, 1, [])) s

/-- `WRITE_GRAPH_TABLE_SLOT`: slot, VA, context, count, fault node (R316). -/
def execWriteGraphTableSlot (s : State) : Host.Outcome State Fault Refusal :=
  command 0xC017 false (fun s => match s.nums with
    | [slot, va, ctx, count, fault] =>
      if 256 ≤ slot || 2 ^ 57 ≤ va || 256 ≤ ctx || count < 1 || 4096 < count || 4096 ≤ fault then (s, 1, [])
      else ({ s with graphs := Sparse.upd {} s.graphs slot fun g => { g with va := va, ctx := ctx, count := count, faultNode := fault } }, 0, [])
    | _ => (s, 1, [])) s

/-- `SET_SPILL_AREAS`: core, base, bytes of its spill area; the image range (R149, R344). An area that holds rays stays. -/
def execSetSpillAreas (s : State) : Host.Outcome State Fault Refusal :=
  command 0xC018 false (fun s => match s.nums with
    | [core, base, bytes, image, len] =>
      if !coreExists core || base % 128 ≠ 0 || dpaSpace base ≠ 0 then (s, 1, [])
      else if !(s.core core).hbmSpill.isEmpty then (s, 2, [])
      else ({ s.updCore core (fun c => { c with spillBase := base, spillBytes := bytes, hbmHead := 0 }) with
              imageBase := image, imageBytes := len }, 0, [])
    | _ => (s, 1, [])) s

/-- `READ_COUNTERS`: corrected errors by stack, losses by pool port, malformed messages, lost fault records, MCHK's two counts. -/
def execReadCounters (s : State) : Host.Outcome State Fault Refusal :=
  command 0xC020 false (fun s =>
    let cores (f : Core → Nat) : Nat := (s.cores.map fun c => f c.2).sum
    (s, 0, ((List.range 16).map fun k => Sparse.get 0 s.corrected k) ++ ((List.range 4).map fun p => (linkOf false s p).count) ++
      [cores (·.malformed), (s.graphs.map fun g => g.2.lost).sum, cores fun c => c.mchk.toNat / 2 ^ 16, cores fun c => c.mchk.toNat % 2 ^ 16])) s

/-- `READ_FAULT_REPORTS`: count. The entries read leave the queue; the count of lost ones comes with every read (R363). -/
def execReadFaultReports (s : State) : Host.Outcome State Fault Refusal :=
  command 0xC021 true (fun s => match s.nums with
    | [n] => ({ s with reports := s.reports.drop n }, 0, s.reportsLost :: (s.reports.take n).map (·.toNat))
    | _ => (s, 1, [])) s

/-- `HALT_OR_RESUME`: core, resume, temperature (R347, R374). -/
def execHaltOrResume (s : State) : Host.Outcome State Fault Refusal :=
  command 0xC030 false (fun s => match s.nums with
    | [core, resume, temp] =>
      if !coreExists core then (s, 1, [])
      else if resume = 1 then (match resumeCore core temp s with
        | some t => (t, 0, [])
        | none => (s, 2, []))
      else (setHalted core s, 0, [])
    | _ => (s, 1, [])) s

/-- `UNSUPPORTED_OPCODE`: opcode, of none of the commands of R362. It returns the CXL return code Unsupported and no payload. -/
def execUnsupportedOpcode (s : State) : Host.Outcome State Fault Refusal :=
  event (fun s => match s.nums with
    | [op] => { s with reply := some ⟨op, 0, [], .unsupported⟩ }
    | _ => s) s

/-! Readback (R372). -/

/-- The unit a class and its field name is halted: a core, or every core of a hall. -/
def unitHalted (s : State) (cls unit : Nat) : Bool :=
  if cls = 10 then true
  else if 5 ≤ cls && cls ≤ 7 then (hallCores s.pkg unit).all s.stopped
  else s.stopped unit

/-- The lines that a hall store caches in a set, by rising address: the model keeps no number of a line's way (log 33). -/
def setLines (s : State) (hall set : Nat) : List (Nat × Line) :=
  s.lines.filter fun l => l.2.state != .invalid && l.2.state != .filling && l.2.home == hall && hallSetOf l.1 == set

/-- 32 bits of the readback space. A Poisoned line of a hall store reads zero data. Classes 6-9 are numbered by structures the spec
does not lay out: a free value, as is a way that holds no line (log 5). -/
def readbackWord (s : State) (cls unit off : Nat) : Nat :=
  let c := s.core unit
  match cls with
  | 0 => s.ls unit off 4
  | 1 => (s.vreg unit (off / 2 ^ 16) (off / 2 ^ 7 % 2 ^ 9) (off / 4 % 32)).toNat
  | 2 => Memory.load c.acc off 4
  | 3 => (csrRead { s with cur := .wave unit (off / 2 ^ 12) 0 } (off % 2 ^ 12)).toNat
  | 4 => Memory.load c.latches off 4
  | 5 => match (setLines s unit (off / 2 ^ 11 % 3072))[off / 2 ^ 7 % 16]? with
    | some (l, x) => if x.state = .poisoned then 0 else s.devRead (l * 128 + off % 128) 4 x.tag
    | none => Config.freeNat s.nonce % 2 ^ 32
  | 10 => 0
  | _ => Config.freeNat s.nonce % 2 ^ 32

/-- A read of the readback space: its status and value. -/
def readbackAt (s : State) (addr : Nat) : Nat × Nat :=
  let cls := addr / 2 ^ 59 % 32
  let unit := addr / 2 ^ 32 % 2 ^ 27
  if 11 ≤ cls then (1, 0) else if !unitHalted s cls unit then (2, 0) else (0, readbackWord s cls unit (addr % 2 ^ 32))

/-- `READBACK`: address. -/
def execReadback (s : State) : Host.Outcome State Fault Refusal :=
  command 0xC031 false (fun s => match s.nums with
    | [addr] =>
      let r := readbackAt s addr
      (s, r.1, if r.1 = 0 then [r.2] else [])
    | _ => (s, 1, [])) s

/-! The IEEE 1149.1 port (R372). -/

/-- An instruction of the port and what its data register shifts out. -/
def jtagShift (instr : Nat) (out : Nat) (s : State) : State :=
  { s with jtag := { s.jtag with instr := instr, out := BitVec.ofNat 64 out } }

/-- `JTAG_IDCODE`. -/
def execJtagIdcode (s : State) : Host.Outcome State Fault Refusal := event (jtagShift 0 0x0F852A4B) s

/-- `JTAG_BYPASS`: the one-bit bypass register captures 0. -/
def execJtagBypass (s : State) : Host.Outcome State Fault Refusal := event (jtagShift 1 0) s

/-- `JTAG_SAMPLE_PRELOAD`: the pins, a free value (log 5). -/
def execJtagSamplePreload (s : State) : Host.Outcome State Fault Refusal := event (fun s => jtagShift 2 (Config.freeNat s.nonce) s) s

/-- `JTAG_EXTEST`: the pins, a free value (log 5). -/
def execJtagExtest (s : State) : Host.Outcome State Fault Refusal := event (fun s => jtagShift 3 (Config.freeNat s.nonce) s) s

/-- `JTAG_RBADDR_RBDATA`: address. RBADDR and RBDATA read zero until a debug unlock. -/
def execJtagRbaddrRbdata (s : State) : Host.Outcome State Fault Refusal :=
  event (fun s => match s.nums with
    | [addr] =>
      if s.jtag.unlocked then
        jtagShift 4 (readbackAt s addr).2 { s with jtag := { s.jtag with rbaddr := BitVec.ofNat 64 addr } }
      else jtagShift 4 0 s
    | _ => s) s

/-- `SIGNED_DEBUG_UNLOCK`: valid signature. -/
def execSignedDebugUnlock (s : State) : Host.Outcome State Fault Refusal :=
  event (fun s => match s.nums with
    | [valid] => if valid = 1 then { s with jtag := { s.jtag with unlocked := true } } else s
    | _ => s) s

/-! The SPDM responder (R371): its dialogue, and what the rule fixes of its responses; their other bytes are free (log 9). -/

/-- A request answered: the dialogue goes on. -/
def answerSpdm (a : SpdmAnswer) (f : Spdm → Spdm) (s : State) : State := { s with spdm := { f s.spdm with response := some a } }

/-- A request whose response is free. -/
def respond (f : Spdm → Spdm) (s : State) : State := answerSpdm (.bytes (Config.spdmResponse s.nonce)) f s

/-- `GET_VERSION`: SPDM 1.3, a new dialogue. -/
def execGetVersion (s : State) : Host.Outcome State Fault Refusal :=
  event (answerSpdm (.version 1 3) fun d => { d with version := true, capable := false, negotiated := false, exchanging := false, session := false }) s

/-- `GET_CAPABILITIES`: no pre-shared keys, no mutual authentication, no provisioning. -/
def execGetCapabilities (s : State) : Host.Outcome State Fault Refusal :=
  event (answerSpdm (.capabilities false false false) fun d => { d with capable := d.version }) s

/-- `NEGOTIATE_ALGORITHMS`: the one set. -/
def execNegotiateAlgorithms (s : State) : Host.Outcome State Fault Refusal :=
  event (answerSpdm (.algorithms [.ecdsaP521, .sha512, .ecdheSecp521r1, .aes256Gcm]) fun d => { d with negotiated := d.capable }) s

/-- `GET_DIGESTS`. -/
def execGetDigests (s : State) : Host.Outcome State Fault Refusal := event (respond fun d => d) s

/-- `GET_CERTIFICATE`. -/
def execGetCertificate (s : State) : Host.Outcome State Fault Refusal := event (fun s => respond id s) s

/-- `CHALLENGE`. -/
def execChallenge (s : State) : Host.Outcome State Fault Refusal := event (fun s => respond (fun d => d) s) s

/-- `GET_MEASUREMENTS`: blocks 1-4. -/
def execGetMeasurements (s : State) : Host.Outcome State Fault Refusal :=
  event (fun s => answerSpdm (.measurements s.measured) id s) s

/-- `KEY_EXCHANGE`. -/
def execKeyExchange (s : State) : Host.Outcome State Fault Refusal :=
  event (respond fun d => { d with exchanging := d.negotiated }) s

/-- `FINISH`: the session opens. -/
def execFinish (s : State) : Host.Outcome State Fault Refusal :=
  event (respond fun d => { d with exchanging := false, session := d.session || d.exchanging }) s

/-- `END_SESSION`. -/
def execEndSession (s : State) : Host.Outcome State Fault Refusal :=
  event (respond fun d => { d with exchanging := false, session := false }) s

/-- `HEARTBEAT`. -/
def execHeartbeat (s : State) : Host.Outcome State Fault Refusal := event (fun s => respond (fun d => d) s) s

end Sys2Proof.Machine
end

