-- ==== Sys2Proof/Machine/Dispatch.lean ====
section
/-! DEFINITION. Dispatch: one arm per constructor of `Instr`, each a call of its meaning. -/

namespace Sys2Proof.Machine

def exec (i : Instr) (s : State) : Host.Outcome State Fault Refusal :=
  match i with
  | .add g d a b => Sys2Proof.Machine.execAdd g d a b s
  | .sub g d a b => Sys2Proof.Machine.execSub g d a b s
  | .addSatI32 g d a b => Sys2Proof.Machine.execAddSatI32 g d a b s
  | .subSatI32 g d a b => Sys2Proof.Machine.execSubSatI32 g d a b s
  | .addSatN32 g d a b => Sys2Proof.Machine.execAddSatN32 g d a b s
  | .subSatN32 g d a b => Sys2Proof.Machine.execSubSatN32 g d a b s
  | .addCy g d a b c => Sys2Proof.Machine.execAddCy g d a b c s
  | .cy g d a b c => Sys2Proof.Machine.execCy g d a b c s
  | .add64 g d a b => Sys2Proof.Machine.execAdd64 g d a b s
  | .sub64 g d a b => Sys2Proof.Machine.execSub64 g d a b s
  | .mul g d a b => Sys2Proof.Machine.execMul g d a b s
  | .mulhI32 g d a b => Sys2Proof.Machine.execMulhI32 g d a b s
  | .mulhN32 g d a b => Sys2Proof.Machine.execMulhN32 g d a b s
  | .mad g d a b c => Sys2Proof.Machine.execMad g d a b c s
  | .mulwI32 g d a b => Sys2Proof.Machine.execMulwI32 g d a b s
  | .mulwN32 g d a b => Sys2Proof.Machine.execMulwN32 g d a b s
  | .madwN32 g d a b c => Sys2Proof.Machine.execMadwN32 g d a b c s
  | .madwI32 g d a b c => Sys2Proof.Machine.execMadwI32 g d a b c s
  | .minI32 g d a b => Sys2Proof.Machine.execMinI32 g d a b s
  | .maxI32 g d a b => Sys2Proof.Machine.execMaxI32 g d a b s
  | .minN32 g d a b => Sys2Proof.Machine.execMinN32 g d a b s
  | .maxN32 g d a b => Sys2Proof.Machine.execMaxN32 g d a b s
  | .abs g d a => Sys2Proof.Machine.execAbs g d a s
  | .neg g d a => Sys2Proof.Machine.execNeg g d a s
  | .sad g d a b c => Sys2Proof.Machine.execSad g d a b c s
  | .sadN32 g d a b c => Sys2Proof.Machine.execSadN32 g d a b c s
  | .and g d a b => Sys2Proof.Machine.execAnd g d a b s
  | .or g d a b => Sys2Proof.Machine.execOr g d a b s
  | .xor g d a b => Sys2Proof.Machine.execXor g d a b s
  | .andn g d a b => Sys2Proof.Machine.execAndn g d a b s
  | .orn g d a b => Sys2Proof.Machine.execOrn g d a b s
  | .lop3 g tt d a b c => Sys2Proof.Machine.execLop3 g tt d a b c s
  | .shl g d a b => Sys2Proof.Machine.execShl g d a b s
  | .shr g d a b => Sys2Proof.Machine.execShr g d a b s
  | .sra g d a b => Sys2Proof.Machine.execSra g d a b s
  | .rol g d a b => Sys2Proof.Machine.execRol g d a b s
  | .ror g d a b => Sys2Proof.Machine.execRor g d a b s
  | .fsl g d a b c => Sys2Proof.Machine.execFsl g d a b c s
  | .fsr g d a b c => Sys2Proof.Machine.execFsr g d a b c s
  | .popc g d a => Sys2Proof.Machine.execPopc g d a s
  | .clz g d a => Sys2Proof.Machine.execClz g d a s
  | .ctz g d a => Sys2Proof.Machine.execCtz g d a s
  | .brev g d a => Sys2Proof.Machine.execBrev g d a s
  | .bfxI32 g d a c => Sys2Proof.Machine.execBfxI32 g d a c s
  | .bfxN32 g d a c => Sys2Proof.Machine.execBfxN32 g d a c s
  | .bfi g d a b c => Sys2Proof.Machine.execBfi g d a b c s
  | .bil2 g d a b => Sys2Proof.Machine.execBil2 g d a b s
  | .bil3 g d a b c => Sys2Proof.Machine.execBil3 g d a b c s
  | .bdl3 g d a b => Sys2Proof.Machine.execBdl3 g d a b s
  | .bdl2 g d a b => Sys2Proof.Machine.execBdl2 g d a b s
  | .icmp g cond comb pred d a b c => Sys2Proof.Machine.execIcmp g cond comb pred d a b c s
  | .sel g d a b c => Sys2Proof.Machine.execSel g d a b c s
  | .sxt8 g d a => Sys2Proof.Machine.execSxt8 g d a s
  | .sxt16 g d a => Sys2Proof.Machine.execSxt16 g d a s
  | .zxt8 g d a => Sys2Proof.Machine.execZxt8 g d a s
  | .zxt16 g d a => Sys2Proof.Machine.execZxt16 g d a s
  | .prm g d a b c => Sys2Proof.Machine.execPrm g d a b c s
  | .bswp g d a => Sys2Proof.Machine.execBswp g d a s
  | .divI32 g d a b => Sys2Proof.Machine.execDivI32 g d a b s
  | .divN32 g d a b => Sys2Proof.Machine.execDivN32 g d a b s
  | .remI32 g d a b => Sys2Proof.Machine.execRemI32 g d a b s
  | .remN32 g d a b => Sys2Proof.Machine.execRemN32 g d a b s
  | .mov g d a => Sys2Proof.Machine.execMov g d a s
  | .mov64 g d a => Sys2Proof.Machine.execMov64 g d a s
  | .mpadd g dig d a b => Sys2Proof.Machine.execMpadd g dig d a b s
  | .mpmk g d a b => Sys2Proof.Machine.execMpmk g d a b s
  | .mpcore g d a => Sys2Proof.Machine.execMpcore g d a s
  | .mpoff g d a => Sys2Proof.Machine.execMpoff g d a s
  | .mploc g d a => Sys2Proof.Machine.execMploc g d a s
  | .addi g imm d a => Sys2Proof.Machine.execAddi g imm d a s
  | .muli g imm d a => Sys2Proof.Machine.execMuli g imm d a s
  | .andi g imm d a => Sys2Proof.Machine.execAndi g imm d a s
  | .ori g imm d a => Sys2Proof.Machine.execOri g imm d a s
  | .xori g imm d a => Sys2Proof.Machine.execXori g imm d a s
  | .movi g imm d => Sys2Proof.Machine.execMovi g imm d s
  | .icmpi g cond imm d a => Sys2Proof.Machine.execIcmpi g cond imm d a s
  | .shli g imm d a => Sys2Proof.Machine.execShli g imm d a s
  | .shri g imm d a => Sys2Proof.Machine.execShri g imm d a s
  | .srai g imm d a => Sys2Proof.Machine.execSrai g imm d a s
  | .miniI32 g imm d a => Sys2Proof.Machine.execMiniI32 g imm d a s
  | .maxiI32 g imm d a => Sys2Proof.Machine.execMaxiI32 g imm d a s
  | .addi64 g imm d a => Sys2Proof.Machine.execAddi64 g imm d a s
  | .pairWord x y => Sys2Proof.Machine.execPairWord x y s
  | .fadd g md d a b => Sys2Proof.Machine.execFadd g md d a b s
  | .fsub g md d a b => Sys2Proof.Machine.execFsub g md d a b s
  | .fmul g md d a b => Sys2Proof.Machine.execFmul g md d a b s
  | .ffma g md d a b c => Sys2Proof.Machine.execFfma g md d a b c s
  | .ffms g md d a b c => Sys2Proof.Machine.execFfms g md d a b c s
  | .fnma g md d a b c => Sys2Proof.Machine.execFnma g md d a b c s
  | .fnms g md d a b c => Sys2Proof.Machine.execFnms g md d a b c s
  | .fmin g d a b => Sys2Proof.Machine.execFmin g d a b s
  | .fmax g d a b => Sys2Proof.Machine.execFmax g d a b s
  | .fminp g d a b => Sys2Proof.Machine.execFminp g d a b s
  | .fmaxp g d a b => Sys2Proof.Machine.execFmaxp g d a b s
  | .fcmp g cond comb pred d a b c => Sys2Proof.Machine.execFcmp g cond comb pred d a b c s
  | .frcp g d a => Sys2Proof.Machine.execFrcp g d a s
  | .frsq g d a => Sys2Proof.Machine.execFrsq g d a s
  | .fsqrt g d a => Sys2Proof.Machine.execFsqrt g d a s
  | .fex2 g d a => Sys2Proof.Machine.execFex2 g d a s
  | .flg2 g d a => Sys2Proof.Machine.execFlg2 g d a s
  | .fsinp g d a => Sys2Proof.Machine.execFsinp g d a s
  | .fcosp g d a => Sys2Proof.Machine.execFcosp g d a s
  | .ftanh g d a => Sys2Proof.Machine.execFtanh g d a s
  | .fdiv g d a b => Sys2Proof.Machine.execFdiv g d a b s
  | .fcls g d a => Sys2Proof.Machine.execFcls g d a s
  | .fscl g d a b => Sys2Proof.Machine.execFscl g d a b s
  | .frint g rm d a => Sys2Proof.Machine.execFrint g rm d a s
  | .ffrac g d a => Sys2Proof.Machine.execFfrac g d a s
  | .fcpsgn g d a b => Sys2Proof.Machine.execFcpsgn g d a b s
  | .hadd g bf d a b => Sys2Proof.Machine.execHadd g bf d a b s
  | .hsub g bf d a b => Sys2Proof.Machine.execHsub g bf d a b s
  | .hmul g bf d a b => Sys2Proof.Machine.execHmul g bf d a b s
  | .hfma g bf d a b c => Sys2Proof.Machine.execHfma g bf d a b c s
  | .hmin g bf d a b => Sys2Proof.Machine.execHmin g bf d a b s
  | .hmax g bf d a b => Sys2Proof.Machine.execHmax g bf d a b s
  | .dot g fmt d a b c => Sys2Proof.Machine.execDot g fmt d a b c s
  | .cvt g code idx d a b => Sys2Proof.Machine.execCvt g code idx d a b s
  | .qpk g fmt d a b => Sys2Proof.Machine.execQpk g fmt d a b s
  | .qupk g fmt d a b => Sys2Proof.Machine.execQupk g fmt d a b s
  | .mxsc g fmt d a => Sys2Proof.Machine.execMxsc g fmt d a s
  | .shfl g kind width fate d a b => Sys2Proof.Machine.execShfl g kind width fate d a b s
  | .voteAny g d a => Sys2Proof.Machine.execVoteAny g d a s
  | .voteAll g d a => Sys2Proof.Machine.execVoteAll g d a s
  | .voteUni g d a => Sys2Proof.Machine.execVoteUni g d a s
  | .ballot g d a => Sys2Proof.Machine.execBallot g d a s
  | .matchLanes g d a => Sys2Proof.Machine.execMatchLanes g d a s
  | .lred g op d a => Sys2Proof.Machine.execLred g op d a s
  | .lscan g op ex d a => Sys2Proof.Machine.execLscan g op ex d a s
  | .lmask g d => Sys2Proof.Machine.execLmask g d s
  | .lbelow g d => Sys2Proof.Machine.execLbelow g d s
  | .lcnt g d => Sys2Proof.Machine.execLcnt g d s
  | .lfirst g d => Sys2Proof.Machine.execLfirst g d s
  | .elect g d => Sys2Proof.Machine.execElect g d s
  | .ld g sz off d a => Sys2Proof.Machine.execLd g sz off d a s
  | .st g sz off a b => Sys2Proof.Machine.execSt g sz off a b s
  | .ldk g sz off d a => Sys2Proof.Machine.execLdk g sz off d a s
  | .ldix g sz sh d a b => Sys2Proof.Machine.execLdix g sz sh d a b s
  | .atl g aop scope off d a b => Sys2Proof.Machine.execAtl g aop scope off d a b s
  | .atm g sz aop scope off d a b => Sys2Proof.Machine.execAtm g sz aop scope off d a b s
  | .red g sz aop scope off ord a b => Sys2Proof.Machine.execRed g sz aop scope off ord a b s
  | .pst g sz off a b => Sys2Proof.Machine.execPst g sz off a b s
  | .lease g off d a => Sys2Proof.Machine.execLease g off d a s
  | .lrel g d => Sys2Proof.Machine.execLrel g d s
  | .pub g sz off a b => Sys2Proof.Machine.execPub g sz off a b s
  | .subs g d a => Sys2Proof.Machine.execSubs g d a s
  | .unsub g d a => Sys2Proof.Machine.execUnsub g d a s
  | .lndInit g scope a b c => Sys2Proof.Machine.execLndInit g scope a b c s
  | .lndArr g d a b => Sys2Proof.Machine.execLndArr g d a b s
  | .lndExp g d a b => Sys2Proof.Machine.execLndExp g d a b s
  | .lndWait g d a b => Sys2Proof.Machine.execLndWait g d a b s
  | .lndTest g d a b => Sys2Proof.Machine.execLndTest g d a b s
  | .lndInv g d a => Sys2Proof.Machine.execLndInv g d a s
  | .ringInit g scope a b c => Sys2Proof.Machine.execRingInit g scope a b c s
  | .ringRsv g d a => Sys2Proof.Machine.execRingRsv g d a s
  | .ringCmt g d a b => Sys2Proof.Machine.execRingCmt g d a b s
  | .ringAtt g d a => Sys2Proof.Machine.execRingAtt g d a s
  | .ringWait g d a b => Sys2Proof.Machine.execRingWait g d a b s
  | .ringRel g d a b => Sys2Proof.Machine.execRingRel g d a b s
  | .ringDet g d a b => Sys2Proof.Machine.execRingDet g d a b s
  | .cntInit g d a b => Sys2Proof.Machine.execCntInit g d a b s
  | .cntDec g a b => Sys2Proof.Machine.execCntDec g a b s
  | .cntRdec g a b => Sys2Proof.Machine.execCntRdec g a b s
  | .cntRd g d a => Sys2Proof.Machine.execCntRd g d a s
  | .cp g ordered ring d a b c => Sys2Proof.Machine.execCp g ordered ring d a b c s
  | .cpt g op d a b c => Sys2Proof.Machine.execCpt g op d a b c s
  | .cpg g sz d a b c => Sys2Proof.Machine.execCpg g sz d a b c s
  | .collAllred g d a => Sys2Proof.Machine.execCollAllred g d a s
  | .collRedsct g d a => Sys2Proof.Machine.execCollRedsct g d a s
  | .collAllgat g d a => Sys2Proof.Machine.execCollAllgat g d a s
  | .collBcast g d a => Sys2Proof.Machine.execCollBcast g d a s
  | .cpqSt g d => Sys2Proof.Machine.execCpqSt g d s
  | .cpqCnl g d a => Sys2Proof.Machine.execCpqCnl g d a s
  | .cpqFr g free d a => Sys2Proof.Machine.execCpqFr g free d a s
  | .twait g d a b c => Sys2Proof.Machine.execTwait g d a b c s
  | .barSync a b => Sys2Proof.Machine.execBarSync a b s
  | .barArr d a b => Sys2Proof.Machine.execBarArr d a b s
  | .barWait a b => Sys2Proof.Machine.execBarWait a b s
  | .cbarSync g scope d => Sys2Proof.Machine.execCbarSync g scope d s
  | .cbarMax g scope d a => Sys2Proof.Machine.execCbarMax g scope d a s
  | .cbarMaxn g scope d a => Sys2Proof.Machine.execCbarMaxn g scope d a s
  | .cbarAdd g scope d a => Sys2Proof.Machine.execCbarAdd g scope d a s
  | .cbarMin g scope d a => Sys2Proof.Machine.execCbarMin g scope d a s
  | .acq g scope d a b => Sys2Proof.Machine.execAcq g scope d a b s
  | .rel g scope d a => Sys2Proof.Machine.execRel g scope d a s
  | .bind g d a b c => Sys2Proof.Machine.execBind g d a b c s
  | .fence g mask scope => Sys2Proof.Machine.execFence g mask scope s
  | .slpUntil g a => Sys2Proof.Machine.execSlpUntil g a s
  | .slpFor g a => Sys2Proof.Machine.execSlpFor g a s
  | .yield g => Sys2Proof.Machine.execYield g s
  | .mxal g a => Sys2Proof.Machine.execMxal g a s
  | .mxfr g => Sys2Proof.Machine.execMxfr g s
  | .mxl g latch transp esz a b => Sys2Proof.Machine.execMxl g latch transp esz a b s
  | .mxg g latch a b => Sys2Proof.Machine.execMxg g latch a b s
  | .mma g x y z zi half nc a b => Sys2Proof.Machine.execMma g x y z zi half nc a b s
  | .mxs g ty a b c => Sys2Proof.Machine.execMxs g ty a b c s
  | .mxr g d b c => Sys2Proof.Machine.execMxr g d b c s
  | .mxw g a b c => Sys2Proof.Machine.execMxw g a b c s
  | .mxz g b => Sys2Proof.Machine.execMxz g b s
  | .turnTake g => Sys2Proof.Machine.execTurnTake g s
  | .turnGive g => Sys2Proof.Machine.execTurnGive g s
  | .turnWho g d => Sys2Proof.Machine.execTurnWho g d s
  | .climb g d a b c => Sys2Proof.Machine.execClimb g d a b c s
  | .nbox g tries => Sys2Proof.Machine.execNbox g tries s
  | .ntri g tries => Sys2Proof.Machine.execNtri g tries s
  | .nlink g => Sys2Proof.Machine.execNlink g s
  | .hop g a => Sys2Proof.Machine.execHop g a s
  | .cand g => Sys2Proof.Machine.execCand g s
  | .rsync g => Sys2Proof.Machine.execRsync g s
  | .fin g => Sys2Proof.Machine.execFin g s
  | .emit g d a b => Sys2Proof.Machine.execEmit g d a b s
  | .emith g d a b c => Sys2Proof.Machine.execEmith g d a b c s
  | .graphRsv g here d a b c => Sys2Proof.Machine.execGraphRsv g here d a b c s
  | .gdone g a => Sys2Proof.Machine.execGdone g a s
  | .take g d => Sys2Proof.Machine.execTake g d s
  | .lnch g d a => Sys2Proof.Machine.execLnch g d a s
  | .lnchw g d a => Sys2Proof.Machine.execLnchw g d a s
  | .pair g d a => Sys2Proof.Machine.execPair g d a s
  | .unpair g d => Sys2Proof.Machine.execUnpair g d s
  | .fpck g d => Sys2Proof.Machine.execFpck g d s
  | .br g disp tag uni => Sys2Proof.Machine.execBr g disp tag uni s
  | .call g disp tag uni d => Sys2Proof.Machine.execCall g disp tag uni d s
  | .jmpi g tag a => Sys2Proof.Machine.execJmpi g tag a s
  | .ret g tag a => Sys2Proof.Machine.execRet g tag a s
  | .join tag => Sys2Proof.Machine.execJoin tag s
  | .exit g => Sys2Proof.Machine.execExit g s
  | .trap g code => Sys2Proof.Machine.execTrap g code s
  | .brk g code => Sys2Proof.Machine.execBrk g code s
  | .eret => Sys2Proof.Machine.execEret s
  | .nop g => Sys2Proof.Machine.execNop g s
  | .csrRd g csr d => Sys2Proof.Machine.execCsrRd g csr d s
  | .csrWr g csr d a => Sys2Proof.Machine.execCsrWr g csr d a s
  | .csrSet g csr d a => Sys2Proof.Machine.execCsrSet g csr d a s
  | .csrClr g csr d a => Sys2Proof.Machine.execCsrClr g csr d a s
  | .mark g code => Sys2Proof.Machine.execMark g code s
  | .tlbi g dom d a => Sys2Proof.Machine.execTlbi g dom d a s
  | .ctxsv g d a => Sys2Proof.Machine.execCtxsv g d a s
  | .ctxld g d a => Sys2Proof.Machine.execCtxld g d a s
  | .halt g => Sys2Proof.Machine.execHalt g s
  | .haltAll g => Sys2Proof.Machine.execHaltAll g s
  | .dfr0Clear => Sys2Proof.Machine.execDfr0Clear s
  | .sampctlWrite => Sys2Proof.Machine.execSampctlWrite s
  | .cregWrite => Sys2Proof.Machine.execCregWrite s
  | .ifwIfhWrite => Sys2Proof.Machine.execIfwIfhWrite s
  | .tvecWrite => Sys2Proof.Machine.execTvecWrite s
  | .xbndWrite => Sys2Proof.Machine.execXbndWrite s
  | .leasemaxWrite => Sys2Proof.Machine.execLeasemaxWrite s
  | .fpintWrite => Sys2Proof.Machine.execFpintWrite s
  | .csrPlainWrite => Sys2Proof.Machine.execCsrPlainWrite s
  | .splitMerge => Sys2Proof.Machine.execSplitMerge s
  | .joinTimeout => Sys2Proof.Machine.execJoinTimeout s
  | .sleepExpiry => Sys2Proof.Machine.execSleepExpiry s
  | .promiseExpiry => Sys2Proof.Machine.execPromiseExpiry s
  | .issueSelect => Sys2Proof.Machine.execIssueSelect s
  | .fetchBlock => Sys2Proof.Machine.execFetchBlock s
  | .lsPoisonSeal => Sys2Proof.Machine.execLsPoisonSeal s
  | .supervisorPlace => Sys2Proof.Machine.execSupervisorPlace s
  | .launchEndOnFault => Sys2Proof.Machine.execLaunchEndOnFault s
  | .accGrant => Sys2Proof.Machine.execAccGrant s
  | .turnGrant => Sys2Proof.Machine.execTurnGrant s
  | .mmaExecution => Sys2Proof.Machine.execMmaExecution s
  | .leaseAbortPoint => Sys2Proof.Machine.execLeaseAbortPoint s
  | .leaseDeadline => Sys2Proof.Machine.execLeaseDeadline s
  | .leaseRequest => Sys2Proof.Machine.execLeaseRequest s
  | .leaseGrant => Sys2Proof.Machine.execLeaseGrant s
  | .leaseCommit => Sys2Proof.Machine.execLeaseCommit s
  | .leaseAnswer => Sys2Proof.Machine.execLeaseAnswer s
  | .leaseAbort => Sys2Proof.Machine.execLeaseAbort s
  | .undeliverableNotice => Sys2Proof.Machine.execUndeliverableNotice s
  | .preemptionSealFrameCommand => Sys2Proof.Machine.execPreemptionSealFrameCommand s
  | .postedStore => Sys2Proof.Machine.execPostedStore s
  | .atomicRequest => Sys2Proof.Machine.execAtomicRequest s
  | .canopyUpdate => Sys2Proof.Machine.execCanopyUpdate s
  | .reductionDevice => Sys2Proof.Machine.execReductionDevice s
  | .publishWrite => Sys2Proof.Machine.execPublishWrite s
  | .copyReadRequest => Sys2Proof.Machine.execCopyReadRequest s
  | .copyLineWrite => Sys2Proof.Machine.execCopyLineWrite s
  | .subscriptionControl => Sys2Proof.Machine.execSubscriptionControl s
  | .homeFillWriteback => Sys2Proof.Machine.execHomeFillWriteback s
  | .graphMessage => Sys2Proof.Machine.execGraphMessage s
  | .atomicResult => Sys2Proof.Machine.execAtomicResult s
  | .lineData => Sys2Proof.Machine.execLineData s
  | .subscriptionUpdate => Sys2Proof.Machine.execSubscriptionUpdate s
  | .writeAcknowledgement => Sys2Proof.Machine.execWriteAcknowledgement s
  | .faultReply => Sys2Proof.Machine.execFaultReply s
  | .channelWord => Sys2Proof.Machine.execChannelWord s
  | .channelCreditReturn => Sys2Proof.Machine.execChannelCreditReturn s
  | .ray => Sys2Proof.Machine.execRay s
  | .anyHitCandidate => Sys2Proof.Machine.execAnyHitCandidate s
  | .hitMinimum => Sys2Proof.Machine.execHitMinimum s
  | .counterDecrement => Sys2Proof.Machine.execCounterDecrement s
  | .lsReductionAtomic => Sys2Proof.Machine.execLsReductionAtomic s
  | .pendingCountEnd => Sys2Proof.Machine.execPendingCountEnd s
  | .raySpillWrite => Sys2Proof.Machine.execRaySpillWrite s
  | .raySpillReload => Sys2Proof.Machine.execRaySpillReload s
  | .treeletPageInFill => Sys2Proof.Machine.execTreeletPageInFill s
  | .preemptionSaveRestoreLine => Sys2Proof.Machine.execPreemptionSaveRestoreLine s
  | .malformedMessage => Sys2Proof.Machine.execMalformedMessage s
  | .watch => Sys2Proof.Machine.execWatch s
  | .watchRetry => Sys2Proof.Machine.execWatchRetry s
  | .creditRetry => Sys2Proof.Machine.execCreditRetry s
  | .cbarArrival => Sys2Proof.Machine.execCbarArrival s
  | .copyAccept => Sys2Proof.Machine.execCopyAccept s
  | .copyLineTransfer => Sys2Proof.Machine.execCopyLineTransfer s
  | .pageWalk => Sys2Proof.Machine.execPageWalk s
  | .shootdownComplete => Sys2Proof.Machine.execShootdownComplete s
  | .patrolScrub => Sys2Proof.Machine.execPatrolScrub s
  | .poolLinkLoss => Sys2Proof.Machine.execPoolLinkLoss s
  | .backInvalidationSnoop => Sys2Proof.Machine.execBackInvalidationSnoop s
  | .hostCxlMemWrite => Sys2Proof.Machine.execHostCxlMemWrite s
  | .hostCxlMemRead => Sys2Proof.Machine.execHostCxlMemRead s
  | .hostCxlCacheSnoop => Sys2Proof.Machine.execHostCxlCacheSnoop s
  | .hostRingCommit => Sys2Proof.Machine.execHostRingCommit s
  | .launchSubmit => Sys2Proof.Machine.execLaunchSubmit s
  | .gangPlace => Sys2Proof.Machine.execGangPlace s
  | .gangPreempt => Sys2Proof.Machine.execGangPreempt s
  | .groupResume => Sys2Proof.Machine.execGroupResume s
  | .launchCompletion => Sys2Proof.Machine.execLaunchCompletion s
  | .pageMoveCopyDone => Sys2Proof.Machine.execPageMoveCopyDone s
  | .climberContextEntry => Sys2Proof.Machine.execClimberContextEntry s
  | .climberIssue => Sys2Proof.Machine.execClimberIssue s
  | .climberSlotFree => Sys2Proof.Machine.execClimberSlotFree s
  | .canopyLookup => Sys2Proof.Machine.execCanopyLookup s
  | .pageInComplete => Sys2Proof.Machine.execPageInComplete s
  | .pagingReread => Sys2Proof.Machine.execPagingReread s
  | .pagingWaiterTimeout => Sys2Proof.Machine.execPagingWaiterTimeout s
  | .replicationThreshold => Sys2Proof.Machine.execReplicationThreshold s
  | .visitCountClear => Sys2Proof.Machine.execVisitCountClear s
  | .takeCoaltExpiry => Sys2Proof.Machine.execTakeCoaltExpiry s
  | .pairIntervalClose => Sys2Proof.Machine.execPairIntervalClose s
  | .pairTimeout => Sys2Proof.Machine.execPairTimeout s
  | .sampleInstant => Sys2Proof.Machine.execSampleInstant s
  | .clockAlignmentExchange => Sys2Proof.Machine.execClockAlignmentExchange s
  | .flightLinkLoss => Sys2Proof.Machine.execFlightLinkLoss s
  | .flightFlitReplay => Sys2Proof.Machine.execFlightFlitReplay s
  | .memberRemoval => Sys2Proof.Machine.execMemberRemoval s
  | .collCommit => Sys2Proof.Machine.execCollCommit s
  | .powerControlTick => Sys2Proof.Machine.execPowerControlTick s
  | .junctionThrottle => Sys2Proof.Machine.execJunctionThrottle s
  | .thermalHalt => Sys2Proof.Machine.execThermalHalt s
  | .startup => Sys2Proof.Machine.execStartup s
  | .startupWatchdog => Sys2Proof.Machine.execStartupWatchdog s
  | .identify => Sys2Proof.Machine.execIdentify s
  | .getStatus => Sys2Proof.Machine.execGetStatus s
  | .stageFirmware => Sys2Proof.Machine.execStageFirmware s
  | .reset => Sys2Proof.Machine.execReset s
  | .clearStartFailures => Sys2Proof.Machine.execClearStartFailures s
  | .setContextRoot => Sys2Proof.Machine.execSetContextRoot s
  | .loadKeySlot => Sys2Proof.Machine.execLoadKeySlot s
  | .writePoolRegionEntry => Sys2Proof.Machine.execWritePoolRegionEntry s
  | .biasFlip => Sys2Proof.Machine.execBiasFlip s
  | .movePage => Sys2Proof.Machine.execMovePage s
  | .hostShootdown => Sys2Proof.Machine.execHostShootdown s
  | .configureHostLaunchRing => Sys2Proof.Machine.execConfigureHostLaunchRing s
  | .writeGraphTableSlot => Sys2Proof.Machine.execWriteGraphTableSlot s
  | .setSpillAreas => Sys2Proof.Machine.execSetSpillAreas s
  | .writeMembershipTable => Sys2Proof.Machine.execWriteMembershipTable s
  | .removeMember => Sys2Proof.Machine.execRemoveMember s
  | .readCounters => Sys2Proof.Machine.execReadCounters s
  | .readFaultReports => Sys2Proof.Machine.execReadFaultReports s
  | .haltOrResume => Sys2Proof.Machine.execHaltOrResume s
  | .readback => Sys2Proof.Machine.execReadback s
  | .setPowerCap => Sys2Proof.Machine.execSetPowerCap s
  | .setDomainConfiguration => Sys2Proof.Machine.execSetDomainConfiguration s
  | .unsupportedOpcode => Sys2Proof.Machine.execUnsupportedOpcode s
  | .getVersion => Sys2Proof.Machine.execGetVersion s
  | .getCapabilities => Sys2Proof.Machine.execGetCapabilities s
  | .negotiateAlgorithms => Sys2Proof.Machine.execNegotiateAlgorithms s
  | .getDigests => Sys2Proof.Machine.execGetDigests s
  | .getCertificate => Sys2Proof.Machine.execGetCertificate s
  | .challenge => Sys2Proof.Machine.execChallenge s
  | .getMeasurements => Sys2Proof.Machine.execGetMeasurements s
  | .keyExchange => Sys2Proof.Machine.execKeyExchange s
  | .finish => Sys2Proof.Machine.execFinish s
  | .endSession => Sys2Proof.Machine.execEndSession s
  | .heartbeat => Sys2Proof.Machine.execHeartbeat s
  | .jtagIdcode => Sys2Proof.Machine.execJtagIdcode s
  | .jtagBypass => Sys2Proof.Machine.execJtagBypass s
  | .jtagSamplePreload => Sys2Proof.Machine.execJtagSamplePreload s
  | .jtagExtest => Sys2Proof.Machine.execJtagExtest s
  | .jtagRbaddrRbdata => Sys2Proof.Machine.execJtagRbaddrRbdata s
  | .linkActiveStateChange => Sys2Proof.Machine.execLinkActiveStateChange s
  | .ieee11491Resume => Sys2Proof.Machine.execIeee11491Resume s
  | .signedDebugUnlock => Sys2Proof.Machine.execSignedDebugUnlock s
  | .softError => Sys2Proof.Machine.execSoftError s

end Sys2Proof.Machine
end

