-- ==== Sys2Proof/Machine/Program.lean ====
section
/-! DEFINITION. A program placed from outside: one resident group of one wave with all lanes and registers on core 0, its
code at local address 0, as a launch leaves it (R198, R302, R311). -/

namespace Sys2Proof.Machine

/-- A word that decodes to nothing raises ILLEGAL_INSTR, or ILLEGAL_PAIR for a pair word (R15, R18, R23, R34). -/
def illegalWord (s : State) : State := raiseCause (if s.ir.msb then 0x02 else 0x01) s.ir s

/-- The launch of a placed program: one group of one wave, with privilege (log 12). -/
def placedLaunch : Launch :=
  { lid := 1, record := BitVec.ofNat 1024 (1 + 2 * 2 ^ 8 + 15 * 2 ^ 16 + 2 ^ 25 + 8 * 2 ^ 128 + 0x40 * 2 ^ 160 + 40 * 2 ^ 176 + 1 * 2 ^ 184 +
      0x2B0000 * 2 ^ 224 + 0x40000 * 2 ^ 416 + 32 * 2 ^ 512 + (1 + 2 ^ 24) * 2 ^ 576)
    va := 0, prio := 15, sys := true, ctx := 0, order := 0, phase := .running, next := 1, total := 1 }

/-- Its group. -/
def placedGroup : Group :=
  { gid := 1, lid := 1, num := 0, core := 0, lcore := 0, slots := [0], waves := 1, regs := 320, pb := 0x40000, pl := 0x2B0000 }

/-- Its wave, with its first code block fetched. -/
def placedWave (w : DWord) : Wave :=
  { live := true, gid := 1, launchMask := 0xFFFFFFFF
    splits := [{ live := true, mask := 0xFFFFFFFF, buf := [(0, w.setWidth 256), (32, 0)] }, {}, {}, {}] }

/-- The state with the program placed and about to issue its first word. -/
def placeWord (s : State) (w : DWord) : State :=
  { (({ s with agenda := [], up := true, launches := [placedLaunch], groups := [placedGroup], waves := [], regs := []
               frames := [⟨1, 0, 0, none⟩], accepted := 1, placements := 1 } : State).setWave 0 0 (placedWave w)) with
    mem := Memory.store s.mem (lsKey 0 0) 8 w.toNat }

end Sys2Proof.Machine
end

