-- ==== Sys2Proof/Machine/Sched.lean ====
section
/-! DEFINITION. What may happen next: the tasks enabled in a state. Which of them does, and when, is timing, and so free
(log 4); what the spec orders is ordered here. -/

namespace Sys2Proof.Machine

/-! Messages in flight and outside inputs. -/

/-- The virtual channel of the message kinds that have an ordered class, and of what they are ordered against (R143, R145). -/
def vcOf : Instr → Nat
  | .ray => 3
  | .postedStore => 1
  | .reductionDevice => 1
  | .atomicRequest => 1
  | .publishWrite => 1
  | .lsReductionAtomic => 4
  | .subscriptionUpdate => 2
  | .writeAcknowledgement => 2
  | .atomicResult => 2
  | .channelWord => 2
  | _ => 0

/-- Lease messages (R145). -/
def isLeaseMsg : Instr → Bool
  | .leaseRequest => true
  | .leaseGrant => true
  | .leaseCommit => true
  | .leaseAnswer => true
  | .leaseAbort => true
  | _ => false

/-- A message of the ordered class (R145). A publish is a `pst.o` where its page is not die-homed HBM with device bias (R104); the
pair link carries no message of the mesh (R113). -/
def isOrdered (op : Instr) (m : Msg) : Bool := match op with
  | .ray => true
  | .channelWord => true
  | .subscriptionUpdate => true
  | .postedStore => m.ordered
  | .publishWrite => m.ordered
  | .reductionDevice => m.ordered
  | .lsReductionAtomic => m.ordered
  | op => isLeaseMsg op && !overLink m

/-- A message that its home sends to a core. -/
def fromHome (op : Instr) : Bool := match op with
  | .leaseGrant => true
  | .leaseAnswer => true
  | .subscriptionUpdate => true
  | _ => false

/-- Where a message goes: its memory key and execution point; one that its hall unit has not translated yet, where that would
send it now (R77, R156). -/
def destOf (s : State) (m : Msg) : Nat × Nat :=
  if m.tgt < farKey then (m.tgt, m.point)
  else match (translate s (hallOf m.src.core) m.ctx m.va.toNat 0).2 with
    | .ok t => (t.dpa, pointOf s t.dpa t.pte)
    | .error _ => (m.tgt, m.point)

/-- A reply of the home, or of the NI, that a request came to. -/
def isReply (op : Instr) : Bool := match op with
  | .atomicResult => true
  | .writeAcknowledgement => true
  | .faultReply => true
  | .lineData => true
  | .undeliverableNotice => true
  | _ => false

/-- The router of the unit that asked: the core's, or that of the copy engine (R142). -/
def askingRouter (s : State) (m : Msg) : Nat :=
  if 0x53 ≤ m.src.maj && m.src.maj ≤ 0x56 then unitCore s (hallOf m.src.core) else m.src.core

/-- The router a message is sent from (R147). -/
def sourceRouter (s : State) (op : Instr) (m : Msg) : Nat :=
  if isReply op then (if isLsKey m.tgt then keyCore m.tgt else pointCore s m.point)
  else if fromHome op then pointCore s m.point
  else askingRouter s m

/-- The router it is sent to. -/
def targetRouter (s : State) (op : Instr) (m : Msg) : Nat :=
  if isReply op then askingRouter s m
  else if op matches .leaseGrant || op matches .leaseAnswer then m.src.core
  else if isLsKey m.tgt then keyCore m.tgt
  else pointCore s (destOf s m).2

/-- Two messages of one wave or climber. -/
def sameAgent (m n : Msg) : Bool := m.src.core == n.src.core && m.src.slot == n.src.slot && m.src.climber == n.src.climber

/-- The KIND of a message (R143); lookups, watches and the engines' own tasks go under the kind of what they do at their target. -/
def kindOf (op : Instr) (m : Msg) : Option Nat := match op with
  | .leaseRequest => some 0x01
  | .leaseGrant => some 0x02
  | .leaseCommit => some 0x03
  | .leaseAnswer => some 0x04
  | .undeliverableNotice => some 0x05
  | .preemptionSealFrameCommand => some 0x06
  | .leaseAbort => some 0x07
  | .postedStore => some (if m.ordered then 0x11 else 0x10)
  | .atomicRequest => some 0x12
  | .canopyUpdate => some 0x12
  | .watch => some 0x12
  | .reductionDevice => some 0x13
  | .publishWrite => some 0x14
  | .copyReadRequest => some 0x15
  | .copyLineWrite => some 0x16
  | .subscriptionControl => some 0x17
  | .homeFillWriteback => some 0x18
  | .graphMessage => some 0x19
  | .atomicResult => some 0x20
  | .lineData => some 0x21
  | .subscriptionUpdate => some 0x22
  | .writeAcknowledgement => some 0x23
  | .faultReply => some 0x24
  | .channelWord => some 0x25
  | .ray => some 0x30
  | .anyHitCandidate => some 0x40
  | .hitMinimum => some 0x41
  | .counterDecrement => some 0x42
  | .lsReductionAtomic => some 0x43
  | .pendingCountEnd => some 0x44
  | .raySpillWrite => some 0x50
  | .raySpillReload => some 0x51
  | .treeletPageInFill => some 0x52
  | .preemptionSaveRestoreLine => some 0x53
  | _ => none

/-- The dirty mask of a commit. -/
def commitMask (m : Msg) : Nat := ((m.bytes.map fun (c : Host.Cell) => 2 ^ (c.1 % 128)).eraseDups).sum

/-- IMM of a message (R142, R143, R156): the mask of a store's bytes, of its words where it has more than one flit of payload (log 84);
the outcome of a lease; else the word the message carries. -/
def immOf (op : Instr) (m : Msg) : Nat :=
  let offs := m.bytes.map fun (c : Host.Cell) => c.1 % 128
  match op with
  | .postedStore => if m.bytes.length ≤ 32 then (offs.map fun o => 2 ^ (o % 32)).eraseDups.sum else (offs.map fun o => 2 ^ (o / 4)).eraseDups.sum
  | .leaseAnswer => m.kind % 2 + m.reason / 256 % 16 * 16
  | _ => m.imm.toNat

/-- The header with which a message leaves its source (R142): payload flits as its bytes fill, within its kind's range; the low bits of
the model's number of the operation stand for TAG (log 84). -/
def headerOf (s : State) (op : Instr) (m : Msg) : Option Header :=
  (kindOf op m).bind fun k => (kindForm k).map fun f =>
    let need := (m.bytes.length + 31) / 32
    { dest := match op with
        | .leaseCommit => commitMask m / 2 ^ 64
        | .hitMinimum => m.arg.toNat
        | _ => if isReply op then lsKey (askingRouter s m) 0 else m.tgt
      tgt := targetRouter s op m, src := sourceRouter s op m, kind := k, vc := f.1
      len := (f.2.find? fun n => decide (need ≤ n)).getD (maxOf f.2)
      xy := isOrdered op m, esc := false, dl := false, sseq := m.sseq.getD 0, wave := m.src.slot, tag := m.id
      anch := if op matches .leaseCommit then commitMask m % 2 ^ 64 else m.anch.toNat, imm := immOf op m }

/-- The counter that numbers a message at its source: of the ordered class per target router and VC, of the others per source (R147). -/
def sseqKey (s : State) (op : Instr) (m : Msg) : Nat :=
  if isOrdered op m then 1 + 2 * ((sourceRouter s op m * 2 ^ 27 + targetRouter s op m) * 8 + vcOf op) else 2 * sourceRouter s op m

/-- Messages that have left their source since the last step receive SSEQ (R147); those that their hall unit has not translated have not
left. -/
def numberSent (s : State) : State :=
  let number (r : List Task × List (Nat × Nat)) (t : Task) : List Task × List (Nat × Nat) := match t.arg with
    | .msg m =>
      if m.sseq.isSome || (kindOf t.op m).isNone || m.tgt = farKey then (r.1 ++ [t], r.2)
      else
        let k := sseqKey s t.op m
        let n := Sparse.get 0 r.2 k
        (r.1 ++ [⟨t.op, .msg { m with sseq := some n }⟩], Sparse.set 0 r.2 k ((n + 1) % 2 ^ 16))
    | _ => (r.1 ++ [t], r.2)
  let out := s.agenda.foldl number ([], s.sseqs)
  { s with agenda := out.1, sseqs := out.2 }

/-- A message in flight that must arrive before another behind it: both are of the ordered class with one source router, target
router and channel (R147); or publishes of one wave to one home (R104); or lanes of one `atm` or `red` on one word (R263); or
of one core, forwarded from a page's old home (R90); or it is an update of the write that the other completes (R100, R262). -/
def goesBefore (s : State) (a : Instr) (m : Msg) (b : Instr) (n : Msg) : Bool :=
  (isOrdered a m && isOrdered b n && vcOf a == vcOf b && m.moved == n.moved && sourceRouter s a m == sourceRouter s b n &&
    targetRouter s a m == targetRouter s b n) ||
  (a == .publishWrite && b == .publishWrite && sameAgent m n && m.point == n.point) ||
  (a == b && m.group != 0 && m.group == n.group && sameAgent m n && m.src.pc == n.src.pc && destOf s m == destOf s n) ||
  (m.moved != 0 && m.moved == n.moved && m.src.core == n.src.core && vcOf a == 1 && vcOf b == 1) ||
  (a == .subscriptionUpdate && (b == .writeAcknowledgement || b == .atomicResult) && m.id == n.id && m.src == n.src)

/-- A task of the agenda that must happen before another behind it. Commands of one wave reach its engine in order
(R118), and the records of a host ring the arbiter (R306). -/
def comesFirst (s : State) (t u : Task) : Bool := match t.arg, u.arg with
  | .msg m, .msg n => goesBefore s t.op m u.op n
  | .copy c, .copy d => c.src.core == d.src.core && c.src.slot == d.src.slot
  | .submit a, .submit b => a.ring.isSome && a.ring == b.ring
  | _, _ => false

/-- Of two requests, the first of which a home holds, the second must not be applied before it (R104, R157, R263). -/
def appliesFirst (a : Instr) (m : Msg) (b : Instr) (n : Msg) : Bool :=
  (a == .publishWrite && b == .publishWrite && sameAgent m n && m.point == n.point) ||
  (vcOf a == 1 && vcOf b == 1 && isOrdered a m && isOrdered b n && m.src.core == n.src.core && m.point == n.point &&
    (a == .reductionDevice) == (b == .reductionDevice))

/-- A home holds a request that a message must follow: at another line, or for a page that the message is not for. -/
def followsHeld (s : State) (t : Task) : Bool := match t.arg with
  | .msg n =>
    let first (u : Task) : Bool := match u.arg with
      | .msg m => appliesFirst u.op m t.op n
      | _ => false
    decide (n.tgt < farKey) && ((s.lines.any fun l => l.2.queue.any first) || s.pageOps.any fun p =>
      !(decide (p.old ≤ n.tgt) && decide (n.tgt < p.old + p.bytes)) && p.queue.any first)
  | _ => false

/-- Another ring of the same priority has its turn before that of a submission (R307). -/
def ringOutOfTurn (s : State) (a : Submission) : Bool := match a.ring with
  | none => false
  | some i =>
    let after (k : Nat) : Nat := (k + 63 - Sparse.get 0 s.ringTurn a.prio) % 64
    s.agenda.any fun t => match t.arg with
      | .submit b => (match b.ring with
        | some j => b.prio == a.prio && decide (after j < after i)
        | none => false)
      | _ => false

/-- The move queue of 512 entries is full, and a message for the page waits in the network (R90). -/
def queueFull (s : State) (op : Instr) (m : Msg) : Bool := match pageOpOn s (lineOf m.tgt) with
  | none => false
  | some p => decide (512 ≤ p.queue.length) && !(p.move && (isCopyRead op || decide (3 ≤ p.step)))

/-- A submission that the arbiter cannot take yet. -/
def submitWaits (s : State) (a : Submission) : Bool := ringOutOfTurn s a || !submitFree s a.record

/-- A message that its target cannot take yet: the VA it names is not translated while what its walk reads is held at a home (R78),
nor is memory that a unit reads or writes (R95, R109); a collective waits for its source (R268), a core for its partner (R113), a
retry or a late commit for its time (R113, R273, R319), a ray for room in an image (R345), a line of a copy for those
before it (R126). -/
def msgWaits (s : State) (op : Instr) (m : Msg) : Bool := match op with
  | .watchRetry => !s.reached m.due
  | .creditRetry => !s.reached m.due
  | .collCommit => (match findCopy s m.reason m.id with
    | some c => !collReady s c && c.stop.isNone
    | none => false)
  | .leaseGrant => linkEarly s m
  | .leaseAnswer => linkEarly s m
  | .subscriptionControl => m.sz != .d && (pageOpOn s (lineOf m.tgt)).isNone && !rangeFree s m
  | .canopyUpdate => !canopyFree s m.point m.key m.id
  | .canopyLookup =>
    let hall := hallOf m.src.core
    !(s.hall hall).canopy.any (fun c => c.lid == m.key && c.id == m.arg.toNat) && !canopyFree s hall m.key m.arg.toNat
  | .treeletPageInFill => (match (s.hall m.point).pageIns.find? fun p => p.lid == m.key && p.id == m.id with
    | some p => (match CanopyEntry.ofBits p.entry.toNat with
      | some e => !readable s m.point (launchCtx s p.lid) (e.img + p.done) 128
      | none => false)
    | none => false)
  | .preemptionSaveRestoreLine => !isLsKey m.tgt && !unitFree s (lineOf m.tgt) m.key m.point
  | .raySpillWrite => !unitFree s (lineOf m.tgt) 0 m.point
  | .ray => rayWaits s m
  | .leaseCommit => m.due != 0 && !s.reached m.due
  | .lineData => lineHeld s m
  | op =>
    if farKey ≤ m.tgt then !walkFree s (hallOf m.src.core) m.ctx m.va.toNat
    else translates op && !isLsKey m.tgt && queueFull s op m

/-- A gang that can be pre-empted now, or whose pairings are to close (R343, R355). -/
def gangMoves (s : State) (gs : List Group) : Bool :=
  gs.any (fun g => g.pair.any fun p => !p.leaving) ||
    (!gs.isEmpty && gs.all (fun g => g.pair.isNone && mayLeave s g) && (imagePlaces s gs []).isSome)

/-- An event that waits for its place: a page move for its PTE, a replica for its image, an end for the restart record, a supervisor
for the canopy entries it writes and a core with room. -/
def eventWaits (s : State) (t : Task) : Bool := match t.op, t.arg with
  | .movePage, .nums (ctx :: va :: _) => (match pageFor s ctx va with
    | some f => !pteFree s f.at_
    | none => false)
  | .pageInComplete, .nums [hall, id, lid] => (match (s.hall hall).pageIns.find? fun p => p.lid == lid && p.id == id with
    | some p => p.replica && (match CanopyEntry.ofBits p.entry.toNat with
      | some e => !vaFree s (launchCtx s lid) e.img ((e.size + 1) * 4096)
      | none => false)
    | none => false)
  | .supervisorPlace, .nums [die, core] =>
    !ownersFree s core || !((supervisorAt s die).isSome || (healthyCores s die).isEmpty || (healthyCores s die).any (supervisorFits s) ||
      gangMoves s (supervisorVictims s die))
  | _, _ => false

/-- A task that waits for its time or its state: also a command of a halted core or without an entry (R347, R323), or whose pages
cannot be translated yet. -/
def notYet (s : State) (t : Task) : Bool := match t.arg with
  | .msg m => msgWaits s t.op m || (vcOf t.op == 1 && followsHeld s t)
  | .copy c => s.stopped c.src.core || (c.tuple.isSome && decide (256 ≤ sharedHeld s c.hall)) || !acceptFree s c
  | .submit a => submitWaits s a
  | _ => eventWaits s t

/-- The tasks of the agenda that may happen: none before one of these that it must follow. -/
def arrivals (s : State) (before : List Task) : List Task → List Task
  | [] => []
  | t :: ts =>
    let rest := arrivals s (before ++ [t]) ts
    if notYet s t || before.any (fun u => comesFirst s u t) then rest else t :: rest

/-! Cores: issue, fetch, timers. -/

/-- Cores with a resident wave. -/
def busyCores (s : State) : List Nat := (s.waves.map fun p => p.1 / 16).eraseDups

/-- Cores with a climber. -/
def climbCores (s : State) : List Nat := (s.cores.filter fun p => !p.2.active.isEmpty || !p.2.placedQ.isEmpty).map (·.1)

/-- Issue cycles that would pick a split or release a join (R313, R206). -/
def issueTasks (s : State) : List Task :=
  ((busyCores s).filter fun c => s.issuing c && (!(readySplits s c).isEmpty || !(waitingSplits s c).isEmpty || !(heldSplits s c).isEmpty ||
    (liveSlots s c).any fun w => joinsDue s c w)).map fun c => ⟨.issueSelect, .nums [c]⟩

/-- Code blocks that splits and climbers want: of each bank's requests, the oldest queued (R165). -/
def fetchTasks (s : State) : List Task :=
  (((busyCores s ++ climbCores s).eraseDups).filter fun c => !(s.core c).sealed).flatMap fun c =>
    (fetchNext s c).map fun r => ⟨.fetchBlock, .nums [c, r.1, r.2.1]⟩

/-- The fetch requests made so far join their cores' queues (R165). -/
def queueFetches (s : State) : State :=
  ((busyCores s ++ climbCores s).eraseDups).foldl (fun s c =>
    if (s.core c).fetchQ = fetchQueue s c then s else s.updCore c fun v => { v with fetchQ := fetchQueue s c }) s

/-- Timers of a split (R206, R328, R135, R108). -/
def splitTasks (s : State) (c w p : Nat) : List Task :=
  let v := s.wave c w
  let sp := v.splits.getD p {}
  if !sp.live then []
  else
    (match sp.park with
      | .join since => if cyclesPassed s c since 256 then [⟨.joinTimeout, .nums [c, w, p]⟩] else []
      | .sleep target => if target ≤ s.clk then [⟨.sleepExpiry, .nums [c, w, p]⟩] else []
      | .waiting 8 => [⟨.promiseExpiry, .nums [c, w, p]⟩]
      | _ => []) ++
    (if v.block.any (fun b => b.split == p) && inBlock v && v.leases.any (fun l => l.live && s.reached l.abort)
      then [⟨.leaseAbortPoint, .nums [c, w]⟩] else [])

/-- Timers of the waves of a core (R321 with them). -/
def waveTasks (s : State) (c : Nat) : List Task :=
  allSplits.flatMap (fun q => if (s.wave c q.1).live then splitTasks s c q.1 q.2 else []) ++
  ((residents s c).filterMap fun g => g.inst.bind fun n =>
    if n.takers.isEmpty then none else some ⟨.takeCoaltExpiry, .nums [c, n.node]⟩)

/-- The matrix unit of a core (R241, R245, R253). -/
def unitTasks (s : State) (c : Nat) : List Task :=
  let v := s.core c
  (match v.accWait with
    | [] => []
    | q :: _ => if (freeRun s c q.2).isSome then [⟨.accGrant, .nums [c]⟩] else []) ++
  (if v.turn.isNone && (nextTurn s c).isSome && !turnReserved s c then [⟨.turnGrant, .nums [c]⟩] else []) ++
  (if v.mma.isEmpty then [] else [⟨.mmaExecution, .nums [c]⟩])

/-- The samples that are due (R333, R385). -/
def sampleTasks (s : State) : List Task :=
  ((s.cores.map (·.1)).filter (sampleDue s)).map fun c => ⟨.sampleInstant, .nums [c]⟩

/-- The climber pipe and the spilled rays of a core (R275, R150). -/
def pipeTasks (s : State) (c : Nat) : List Task :=
  let v := s.core c
  (if s.issuing c && !v.placedQ.isEmpty && decide (v.active.length < 16) then [⟨.climberContextEntry, .nums [c]⟩] else []) ++
  (if s.issuing c && v.active.any (climberReady s c) then [⟨.climberIssue, .nums [c]⟩] else []) ++
  (if v.spill.any fun lid => (raySlot s c lid).isSome then [⟨.climberSlotFree, .nums [c]⟩] else []) ++
  (if mayReload s c && unitFree s (lineOf (hbmAddr v 0)) 0 (pointOf s (hbmAddr v 0) 0) then [⟨.raySpillReload, .nums [c]⟩] else [])

/-- Everything that cores do of themselves. -/
def coreTasks (s : State) : List Task :=
  issueTasks s ++ fetchTasks s ++ (busyCores s).flatMap (waveTasks s) ++
    (s.cores.map (·.1)).flatMap (fun c => unitTasks s c ++ pipeTasks s c)

/-! Homes, halls and pages. -/

/-- A line being filled or about to be, a dirty line whose link is up, a lease past its deadline (R94, R86, R111). -/
def lineTasks (s : State) (p : Nat × Line) : List Task :=
  (match p.2.state with
    | .filling => [⟨.homeFillWriteback, .nums [p.1, 0]⟩]
    | .dirty => if linkUp s p.1 then [⟨.homeFillWriteback, .nums [p.1, 1]⟩] else []
    | _ => []) ++
  (if fillReady s p.1 then [⟨.homeFillWriteback, .nums [p.1, 0]⟩] else []) ++
  (match p.2.lease with
    | some l => if s.reached l.deadline && !commitComing s l then [⟨.leaseDeadline, .nums [p.1]⟩] else []
    | none => [])

/-- Watches whose word has reached the target (R273). -/
def watchTasks (s : State) : List Task :=
  (s.watches.filter fun w => watchMet (watchWord s w.key w.slot) w.target).map fun w => ⟨.watch, .nums [w.id]⟩

/-- A hall: its engine, and its unit's timers for treelets (R116, R291). -/
def hallTasks (s : State) (h : Nat) : List Task :=
  let v := s.hall h
  (if (overCopy s h).isSome || (nextCopy s h).isSome then [⟨.copyLineTransfer, .nums [h]⟩] else []) ++
  ((v.rereads.filter fun r => decide (1024 ≤ s.clkSince r.2.2) && canopyFree s h r.1 r.2.1).map fun r => ⟨.pagingReread, .nums [h, r.2.1]⟩) ++
  ((v.parked.filter fun p => decide (2 ^ 20 ≤ s.clkSince p.since) && canopyFree s h p.lid p.id).map fun p =>
    ⟨.pagingWaiterTimeout, .nums [h, p.id]⟩) ++
  ((v.canopy.filter fun c => decide (4096 ≤ c.visits)).map fun c => ⟨.replicationThreshold, .nums [h, c.id]⟩) ++
  (if !v.canopy.isEmpty && decide (2 ^ 20 ≤ s.clkSince v.visitsAt) then [⟨.visitCountClear, .nums [h]⟩] else [])

/-- Shootdowns and page operations that can go on (R82, R88, R90). -/
def pageTasks (s : State) : List Task :=
  ((s.shoots.filter (shootDone s)).map fun h => ⟨.shootdownComplete, .nums [h.id]⟩) ++
  ((s.pageOps.filter fun p => !p.move && p.step == 1 && pageQuiet s p).map fun p => ⟨.biasFlip, .nums [p.ctx, p.va, p.id]⟩) ++
  ((s.pageOps.filter fun p => p.move && p.step == 2 && pageQuiet s p).map fun p => ⟨.pageMoveCopyDone, .nums [p.id]⟩)

/-- Links away too long, and ranks whose package has been outside the domain too long (R86, R365, R368). -/
def linkTasks (s : State) : List Task :=
  ((s.ports.filter fun p => linkOverdue s p.2).map fun p => ⟨.poolLinkLoss, .nums [p.1]⟩) ++
  ((s.flights.filter fun p => linkOverdue s p.2).map fun p => ⟨.flightLinkLoss, .nums [p.1]⟩) ++
  (s.tables.flatMap fun t => ((List.range t.2.ranks.length).filter fun k =>
    rankLive s t.1 k && s.away.any fun a => a.1 == (t.2.ranks.getD k (0, false)).1 && decide (2000000 ≤ s.clkSince a.2)).map
      fun k => ⟨.memberRemoval, .nums [t.1, k]⟩)

/-- A sector that the scrubber repairs, or whose line it finds lost (R67). -/
def scrubFinds (s : State) (p : Nat × Nat) : Bool :=
  p.2 == 1 || (s.line (p.1 / 2)).state == .clean

/-- The scrubber at its next sector with an error, while some are left for it: what it does elsewhere changes nothing (R67). -/
def scrubTasks (s : State) : List Task :=
  if s.badHbm.any (scrubFinds s) then ((nextScrub s).map fun k => (⟨.patrolScrub, .nums [k]⟩ : Task)).toList else []

/-! Launches and pairs. -/

/-- Pre-emptions that make room for the head launch (R307). -/
def preemptTasks (s : State) : List Task :=
  ((victims s).filter fun v => (s.launch? v.1).any fun l => gangMoves s (gangGroups s l v.2)).map fun v => ⟨.gangPreempt, .nums [v.1, v.2]⟩

/-- The arbiter: a gang placed, resumed or made room for (R307, R343, R345). -/
def arbiterTasks (s : State) : List Task :=
  match headLaunch s with
  | none => []
  | some l =>
    if (savedGang s l).isEmpty then match headPlan s l with
      | some p => if p.cores.all fun q => placeFree s l q.2 then [⟨.gangPlace, .nums [l.lid]⟩] else []
      | none => preemptTasks s
    else match resumePlan s with
      | some (_, q :: _) => [⟨.groupResume, .nums [q.1.gid]⟩]
      | _ => preemptTasks s

/-- The arbiter can send a launch's increment of CMPL: what its translation reads is held by nothing (R78). -/
def cmplFree (s : State) (l : Launch) : Bool :=
  ptrKind (recCmpl l.record) != 0 || walkFree s arbiterHall l.ctx (recCmpl l.record).toNat

/-- Launches that complete, or end (R308, R352). -/
def endTasks (s : State) : List Task :=
  ((s.launches.filter fun l => mayComplete s l && cmplFree s l).map fun l => ⟨.launchCompletion, .nums [l.lid]⟩) ++
  (s.launches.filterMap fun l => match l.phase, l.fault with
    | .ending, some r => if launchQuiet l && endFree s l && cmplFree s l then some ⟨.launchEndOnFault, .ending r⟩ else none
    | _, _ => none)

/-- Pairs whose interval closes, and `pair` that waited too long (R353, R354). -/
def pairTasks (s : State) : List Task :=
  s.groups.flatMap fun g =>
    (if pairLate s g then [⟨.pairTimeout, .nums [g.gid]⟩] else []) ++
    (if g.pair.isSome && (match mateOf s g with
        | none => true
        | some h => groupQuiet s g && groupQuiet s h)
      then [⟨.pairIntervalClose, .nums [g.gid]⟩] else [])

/-! Starting. -/

/-- A start, whose end and whose failing cores are free (log 8), or its watchdog (R369). -/
def startTasks (s : State) : List Task :=
  if s.up || s.min then []
  else if 2 ^ 36 ≤ s.clkSince s.startedAt then [⟨.startupWatchdog, .none⟩]
  else [⟨.startup, .nums (Config.startOutcome s.nonce :: Config.selfTest s.nonce)⟩]

/-- What minimal mode does not serve: messages, the engines, and the host's and the pool's memory requests (R370). -/
def offInMinimal (t : Task) : Bool := match t.op, t.arg with
  | _, .msg _ => true
  | _, .copy _ => true
  | _, .submit _ => true
  | .hostCxlMemRead, _ => true
  | .hostCxlCacheSnoop, _ => true
  | .backInvalidationSnoop, _ => true
  | .hostRingCommit, _ => true
  | _, _ => false

/-- The tasks that may happen in this step: a sample that is due alone. In minimal mode only CXL.io, the mailbox and the links are
served, and no core runs. -/
def enabled (s : State) : List Task :=
  if !(sampleTasks s).isEmpty then sampleTasks s
  else if s.min then arrivals s [] (s.agenda.filter fun t => !offInMinimal t) ++ linkTasks s
  else arrivals s [] s.agenda ++ coreTasks s ++ s.lines.flatMap (lineTasks s) ++ watchTasks s ++
    (s.halls.map (·.1)).flatMap (hallTasks s) ++ pageTasks s ++ linkTasks s ++ scrubTasks s ++ arbiterTasks s ++ endTasks s ++
    pairTasks s ++ startTasks s

/-- The task of this step: the only one enabled, or the one the free choice picks (log 4). -/
def pick (s : State) : Option Task :=
  match enabled s with
  | [] => none
  | [t] => some t
  | ts => ts[Config.choose s.nonce % ts.length]?

/-- A task that has been picked leaves the agenda; fetch requests join their queues. -/
def takeTask (t : Task) (s : State) : State := { queueFetches s with agenda := s.agenda.erase t, arg := t.arg, cur := .none }

end Sys2Proof.Machine
end

