-- ==== Sys2Proof/Machine/Step.lean ====
section
/-! DEFINITION. One step of the package: the task picked is done, and where it fetched a word, the word is executed. -/

namespace Sys2Proof.Machine

/-- After a step: messages sent in it are numbered (R147), nobody executes, the step number and `clk` have advanced (R366, log 1,
log 2). All cores read one `clk`: that none of the skew that R2 allows lies between them is the model's choice (log 2). -/
def settle (s : State) : State :=
  { passTime (Config.clkAdvance s.nonce) (numberSent s) with cur := .none, ir := 0, arg := .none, nonce := s.nonce + 1 }

/-- The outcome with its state settled. -/
def settled : Host.Outcome State Fault Refusal → Host.Outcome State Fault Refusal
  | .next s => .next (settle s)
  | .fault f => .fault f
  | .refused r => .refused r

/-- The fetched word executes; a word that decodes to nothing raises ILLEGAL_INSTR or ILLEGAL_PAIR. -/
def runWord (s : State) : Host.Outcome State Fault Refusal :=
  match (decode s.ir).toOption with
  | some i => exec i s
  | none => .next (illegalWord s)

/-- A task done, and the word it fetched, if any. -/
def runTask (t : Task) (s : State) : Host.Outcome State Fault Refusal :=
  match exec t.op (takeTask t s) with
  | .next s => match s.cur with
    | .none => .next s
    | _ => runWord s
  | o => o

/-- One step. -/
def step (s : State) : Host.Outcome State Fault Refusal :=
  match pick s with
  | none => .next (settle s)
  | some t => settled (runTask t s)

/-- The state with the instruction `w` of a program just placed on core 0, about to issue in its only wave (log 12). -/
def State.withFetchWord (s : State) (_nbits w : Nat) : State := placeWord s (BitVec.ofNat 64 w)

end Sys2Proof.Machine
end

