-- ==== Sys2Proof/Safety.lean ====
section
/-! DEFINITION. The terms that statements are made in: when an instruction issues, what it is for it to complete, what a frame is,
and the invariant that steps keep. -/

namespace Sys2Proof.Machine

/-- Memory is in its canonical form. -/
def State.memWf (s : State) : Prop := Memory.wf s.mem = true

/-- The keys of a table rise strictly. -/
def rises {α : Type} : List (Nat × α) → Bool
  | [] => true
  | [_] => true
  | (a, _) :: (b, v) :: m => decide (a < b) && rises ((b, v) :: m)

/-- What every step keeps: memory, accumulators and latches are in their canonical form, and tables, those of the checkpoints of
paired groups among them, have keys that rise. -/
def State.Inv (s : State) : Prop :=
  s.memWf ∧ rises s.waves = true ∧ rises s.climbers = true ∧ rises s.cores = true ∧ rises s.halls = true ∧
    rises s.lines = true ∧ rises s.regs = true ∧ s.regs.all (fun r => rises r.2) = true ∧
    s.cores.all (fun c => Memory.wf c.2.acc && Memory.wf c.2.latches) = true ∧
    (s.groups ++ s.saved.map (·.group)).all (fun g => g.pair.all fun p => p.check.regs.all fun r => rises r.2) = true

/-- Somebody issues `i` in `s`, and none of the checks that come before its own effect holds it (R34, R81, R107, R152, R254,
R269, R20). -/
def Issues (i : Instr) (s : State) : Prop := s.cur ≠ .none ∧ hold i s = none

/-- `i` completes in `s`: its own effect is `t`, and it retires there, going on at the next word. -/
def Completes (i : Instr) (s t : State) : Prop := exec i s = .next (finish i s (.done t))

/-- `i` completes in `s` with `t`, where it has itself set the place its split goes on at. -/
def Transfers (i : Instr) (s t : State) : Prop := exec i s = .next (finish i s (.jump t))

/-- `i` waits in `s` for reason `why` of R334, having done what `t` holds. -/
def Waits (i : Instr) (s : State) (why : Nat) (t : State) : Prop := exec i s = .next (finish i s (.wait why t))

/-- `i` raises a precise cause in `s` with this FADDR. -/
def Traps (i : Instr) (s : State) (cause : Nat) (faddr : DWord) : Prop := exec i s = .next (raiseCause cause faddr s)

/-- Each active lane of D receives `f` of the lane, and nothing else is its effect. -/
def Lanes (i : Instr) (s : State) (g : Guard) (d : RegNo) (f : Nat → Word) : Prop :=
  Issues i s → Completes i s (putLanes s (active s g) d.toNat f)

/-- The same for a register pair. -/
def Lanes64 (i : Instr) (s : State) (g : Guard) (d : RegNo) (f : Nat → DWord) : Prop :=
  Issues i s → Completes i s (putLanes64 s (active s g) d.toNat f)

/-- The same with the flags that all active lanes raise entering FSTAT (R64). -/
def LanesF (i : Instr) (s : State) (g : Guard) (d : RegNo) (f : Nat → Word × Flags) : Prop :=
  Issues i s → Completes i s (raise (putLanes s (active s g) d.toNat fun l => (f l).1) (Flags.all ((active s g).map fun l => (f l).2)))

/-- An event happens: it takes `s` to `t`. -/
def Happens (i : Instr) (s t : State) : Prop := exec i s = .next t

/-- Every byte of memory reads in `t` as in `s`. -/
def SameMemory (s t : State) : Prop := ∀ a, Memory.byte t.mem a = Memory.byte s.mem a

/-- Every byte of memory outside [a, a + n) reads in `t` as in `s`. -/
def SameMemoryBut (a n : Nat) (s t : State) : Prop := ∀ k, k < a ∨ a + n ≤ k → Memory.byte t.mem k = Memory.byte s.mem k

end Sys2Proof.Machine
end

