-- ==== Sys2Proof/Certificates/Slice0/Obligations.lean ====
section
/-! DEFINITION. The statements for the provers. -/

open Sys2Proof Sys2Proof.Machine

/-- R179-R182: IADD, IMUL, IMINMAX and LOGIC. What each form does in every active lane, exact before the stated width is taken, and the
word it is: MAJ, SUB and its register fields, every unused field zero. -/
def Obligations.IntegerArithmetic : Prop :=
  ∀ (g : Guard) (d a b c : RegNo) (tt : BitVec 8) (s : State),
    let A : Nat → Word := src s a.toNat
    let B : Nat → Word := src s b.toNat
    let C : Nat → Word := src s c.toNat
    let AA : Nat → DWord := src64 s a.toNat
    let BB : Nat → DWord := src64 s b.toNat
    let CC : Nat → DWord := src64 s c.toNat
    let is (i : Instr) (maj sub b c mod : Nat) : Prop := i.encodeNat = some (rrrWord maj g d.toNat a.toNat b c sub mod)
    let one (maj sub : Nat) (i : Instr) (f : Nat → Word) : Prop := Lanes i s g d f ∧ is i maj sub 0 0 0
    let two (maj sub : Nat) (i : Instr) (f : Nat → Word) : Prop := Lanes i s g d f ∧ is i maj sub b.toNat 0 0
    let three (maj sub : Nat) (i : Instr) (f : Nat → Word) : Prop := Lanes i s g d f ∧ is i maj sub b.toNat c.toNat 0
    let pair (maj sub : Nat) (i : Instr) (f : Nat → DWord) : Prop := Lanes64 i s g d f ∧ is i maj sub b.toNat 0 0
    let pair3 (maj sub : Nat) (i : Instr) (f : Nat → DWord) : Prop := Lanes64 i s g d f ∧ is i maj sub b.toNat c.toNat 0
    let bits (i : Instr) (p : Nat → Nat → Bool) : Prop :=
      ∃ f : Nat → Word, Lanes i s g d f ∧ ∀ l j, j < 32 → (f l).getLsbD j = p l j
    two 0x01 0 (.add g d a b) (fun l => A l + B l) ∧
    two 0x01 1 (.sub g d a b) (fun l => A l - B l) ∧
    two 0x01 2 (.addSatI32 g d a b) (fun l =>
      BitVec.ofInt 32 (max (-2147483648) (min ((A l).toInt + (B l).toInt) 2147483647))) ∧
    two 0x01 3 (.subSatI32 g d a b) (fun l =>
      BitVec.ofInt 32 (max (-2147483648) (min ((A l).toInt - (B l).toInt) 2147483647))) ∧
    two 0x01 4 (.addSatN32 g d a b) (fun l => BitVec.ofNat 32 (min ((A l).toNat + (B l).toNat) 4294967295)) ∧
    two 0x01 5 (.subSatN32 g d a b) (fun l => BitVec.ofNat 32 ((A l).toNat - (B l).toNat)) ∧
    three 0x01 6 (.addCy g d a b c) (fun l => BitVec.ofNat 32 ((A l).toNat + (B l).toNat + (C l).toNat % 2)) ∧
    three 0x01 7 (.cy g d a b c) (fun l => BitVec.ofNat 32 (((A l).toNat + (B l).toNat + (C l).toNat % 2) / 2 ^ 32)) ∧
    pair 0x01 8 (.add64 g d a b) (fun l => AA l + BB l) ∧
    pair 0x01 9 (.sub64 g d a b) (fun l => AA l - BB l) ∧
    two 0x02 0 (.mul g d a b) (fun l => A l * B l) ∧
    two 0x02 1 (.mulhI32 g d a b) (fun l => ((BitVec.ofInt 64 ((A l).toInt * (B l).toInt)) >>> 32).setWidth 32) ∧
    two 0x02 2 (.mulhN32 g d a b) (fun l => BitVec.ofNat 32 ((A l).toNat * (B l).toNat / 2 ^ 32)) ∧
    three 0x02 3 (.mad g d a b c) (fun l => A l * B l + C l) ∧
    pair 0x02 4 (.mulwI32 g d a b) (fun l => BitVec.ofInt 64 ((A l).toInt * (B l).toInt)) ∧
    pair 0x02 5 (.mulwN32 g d a b) (fun l => BitVec.ofNat 64 ((A l).toNat * (B l).toNat)) ∧
    pair3 0x02 6 (.madwN32 g d a b c) (fun l => BitVec.ofNat 64 ((A l).toNat * (B l).toNat) + CC l) ∧
    pair3 0x02 7 (.madwI32 g d a b c) (fun l => BitVec.ofInt 64 ((A l).toInt * (B l).toInt) + CC l) ∧
    two 0x03 0 (.minI32 g d a b) (fun l => BitVec.ofInt 32 (min (A l).toInt (B l).toInt)) ∧
    two 0x03 1 (.maxI32 g d a b) (fun l => BitVec.ofInt 32 (max (A l).toInt (B l).toInt)) ∧
    two 0x03 2 (.minN32 g d a b) (fun l => BitVec.ofNat 32 (min (A l).toNat (B l).toNat)) ∧
    two 0x03 3 (.maxN32 g d a b) (fun l => BitVec.ofNat 32 (max (A l).toNat (B l).toNat)) ∧
    one 0x03 4 (.abs g d a) (fun l => if (A l).toInt < 0 then 0 - A l else A l) ∧
    one 0x03 5 (.neg g d a) (fun l => 0 - A l) ∧
    three 0x03 6 (.sad g d a b c) (fun l => BitVec.ofNat 32 (((A l).toInt - (B l).toInt).natAbs + (C l).toNat)) ∧
    three 0x03 7 (.sadN32 g d a b c) (fun l =>
      BitVec.ofNat 32 ((((A l).toNat : Int) - ((B l).toNat : Int)).natAbs + (C l).toNat)) ∧
    (bits (.and g d a b) (fun l j => (A l).getLsbD j && (B l).getLsbD j) ∧ is (.and g d a b) 0x04 0 b.toNat 0 0) ∧
    (bits (.or g d a b) (fun l j => (A l).getLsbD j || (B l).getLsbD j) ∧ is (.or g d a b) 0x04 1 b.toNat 0 0) ∧
    (bits (.xor g d a b) (fun l j => (A l).getLsbD j != (B l).getLsbD j) ∧ is (.xor g d a b) 0x04 2 b.toNat 0 0) ∧
    (bits (.andn g d a b) (fun l j => (A l).getLsbD j && !(B l).getLsbD j) ∧ is (.andn g d a b) 0x04 3 b.toNat 0 0) ∧
    (bits (.orn g d a b) (fun l j => (A l).getLsbD j || !(B l).getLsbD j) ∧ is (.orn g d a b) 0x04 4 b.toNat 0 0) ∧
    (bits (.lop3 g tt d a b c) (fun l j =>
      tt.getLsbD (4 * ((A l).getLsbD j).toNat + 2 * ((B l).getLsbD j).toNat + ((C l).getLsbD j).toNat)) ∧
      is (.lop3 g tt d a b c) 0x04 5 b.toNat c.toNat tt.toNat)

/-- R185, R186: the forms whose result is said bit by bit; each bit of D is the stated bit of the operands. R184, R185: shifts by a full
n32 amount, rotations, funnel shifts, and the counting forms. -/
def Obligations.BitForms : Prop :=
  (∀ (g : Guard) (d a b c : RegNo) (s : State),
    let A : Nat → Word := src s a.toNat
    let B : Nat → Word := src s b.toNat
    let C : Nat → Word := src s c.toNat
    let pos (l : Nat) : Nat := (C l).toNat % 32
    let len (l : Nat) : Nat := min ((C l).toNat / 256 % 64) 32
    let bits (i : Instr) (p : Nat → Nat → Bool) : Prop :=
      ∃ f : Nat → Word, Lanes i s g d f ∧ ∀ l j, j < 32 → (f l).getLsbD j = p l j
    bits (.brev g d a) (fun l j => (A l).getLsbD (31 - j)) ∧
    bits (.bfxN32 g d a c) (fun l j => decide (j < len l) && decide (pos l + j ≤ 31) && (A l).getLsbD (pos l + j)) ∧
    bits (.bfxI32 g d a c) (fun l j => decide (len l ≠ 0) &&
      (A l).getLsbD (min 31 (pos l + min j (len l - 1)))) ∧
    bits (.bfi g d a b c) (fun l j =>
      if pos l ≤ j ∧ j - pos l < len l then (B l).getLsbD (j - pos l) else (A l).getLsbD j) ∧
    bits (.bil2 g d a b) (fun l j => if j % 2 = 1 then (A l).getLsbD (j / 2) else (B l).getLsbD (j / 2)) ∧
    bits (.bil3 g d a b c) (fun l j => decide (j < 30) &&
      (if j % 3 = 2 then (A l).getLsbD (j / 3) else if j % 3 = 1 then (B l).getLsbD (j / 3) else (C l).getLsbD (j / 3))) ∧
    bits (.bdl3 g d a b) (fun l j => decide (j < 10) && decide ((B l).toNat % 4 ≠ 3) &&
      (A l).getLsbD (3 * j + 2 - (B l).toNat % 4)) ∧
    bits (.bdl2 g d a b) (fun l j => decide (j < 16) && (A l).getLsbD (2 * j + 1 - (B l).toNat % 2))) ∧
  (∀ (g : Guard) (d a b c : RegNo) (s : State),
    let A : Nat → Word := src s a.toNat
    let B : Nat → Word := src s b.toNat
    let C : Nat → Word := src s c.toNat
    Lanes (.shl g d a b) s g d (fun l => BitVec.ofNat 32 ((A l).toNat * 2 ^ (B l).toNat)) ∧
    Lanes (.shr g d a b) s g d (fun l => BitVec.ofNat 32 ((A l).toNat / 2 ^ (B l).toNat)) ∧
    Lanes (.sra g d a b) s g d (fun l => BitVec.ofInt 32 ((A l).toInt / 2 ^ (B l).toNat)) ∧
    Lanes (.rol g d a b) s g d (fun l => (A l).rotateLeft ((B l).toNat % 32)) ∧
    Lanes (.ror g d a b) s g d (fun l => (A l).rotateRight ((B l).toNat % 32)) ∧
    Lanes (.fsl g d a b c) s g d (fun l => BitVec.ofNat 32
      (((A l).toNat * 2 ^ 32 + (B l).toNat) * 2 ^ ((C l).toNat % 32) / 2 ^ 32)) ∧
    Lanes (.fsr g d a b c) s g d (fun l => BitVec.ofNat 32 (((A l).toNat * 2 ^ 32 + (B l).toNat) / 2 ^ ((C l).toNat % 32))) ∧
    Lanes (.popc g d a) s g d (fun l => BitVec.ofNat 32 ((List.range 32).countP fun j => (A l).getLsbD j)) ∧
    (∃ f : Nat → Word, Lanes (.clz g d a) s g d f ∧ ∀ l, (A l = 0 → f l = 32) ∧
      (A l ≠ 0 → (A l).getLsbD (31 - (f l).toNat) = true ∧ ∀ j, 31 - (f l).toNat < j → (A l).getLsbD j = false)) ∧
    (∃ f : Nat → Word, Lanes (.ctz g d a) s g d f ∧ ∀ l, (A l = 0 → f l = 32) ∧
      (A l ≠ 0 → (A l).getLsbD (f l).toNat = true ∧ ∀ j, j < (f l).toNat → (A l).getLsbD j = false)))

/-- R187: compares, their combination with C, and the predicate destination of a climber. R189, R190: byte forms, and division with the
cases that have no mathematical quotient. -/
def Obligations.Compares : Prop :=
  (∀ (g : Guard) (cond : Cond) (comb : Comb) (d a b c : RegNo) (s : State),
    let A : Nat → Word := src s a.toNat
    let B : Nat → Word := src s b.toNat
    let C : Nat → Word := src s c.toNat
    let holds (x y : Word) : Bool := match cond with
      | .eq => decide (x = y)
      | .ne => decide (x ≠ y)
      | .ltI => decide (x.toInt < y.toInt)
      | .leI => decide (x.toInt ≤ y.toInt)
      | .gtI => decide (y.toInt < x.toInt)
      | .geI => decide (y.toInt ≤ x.toInt)
      | .ltN => decide (x.toNat < y.toNat)
      | .leN => decide (x.toNat ≤ y.toNat)
      | .gtN => decide (y.toNat < x.toNat)
      | .geN => decide (y.toNat ≤ x.toNat)
    let ones (t : Bool) : Word := if t then 0xFFFFFFFF else 0
    let with_ (v w : Word) : Word := match comb with
      | .none => v
      | .and => v &&& w
      | .or => v ||| w
      | .xor => v ^^^ w
    let withB (t q : Bool) : Bool := match comb with
      | .none => t
      | .and => t && q
      | .or => t || q
      | .xor => t != q
    Lanes (.icmp g cond comb false d a b c) s g d (fun l => with_ (ones (holds (A l) (B l))) (C l)) ∧
    (Issues (.icmp g cond comb true d a b c) s → Completes (.icmp g cond comb true d a b c) s
      (putPred s (d.toNat % 32) (withB (holds (A 0) (B 0)) (predBit s (c.toNat % 32)))))) ∧
  (∀ (g : Guard) (d a b c : RegNo) (s : State),
    let A : Nat → Word := src s a.toNat
    let B : Nat → Word := src s b.toNat
    let C : Nat → Word := src s c.toNat
    let byte (x : Word) (k : Nat) : Nat := x.toNat / 256 ^ k % 256
    let source (l n : Nat) : Nat := if n < 4 then byte (A l) n else byte (B l) (n - 4)
    let pick (l k : Nat) : Nat :=
      let n := (C l).toNat / 16 ^ k % 16
      if n < 8 then source l n else if source l (n - 8) < 128 then 0 else 255
    Lanes (.sxt8 g d a) s g d (fun l => ((A l).setWidth 8).signExtend 32) ∧
    Lanes (.sxt16 g d a) s g d (fun l => ((A l).setWidth 16).signExtend 32) ∧
    Lanes (.zxt8 g d a) s g d (fun l => BitVec.ofNat 32 ((A l).toNat % 256)) ∧
    Lanes (.zxt16 g d a) s g d (fun l => BitVec.ofNat 32 ((A l).toNat % 65536)) ∧
    Lanes (.prm g d a b c) s g d (fun l =>
      BitVec.ofNat 32 (pick l 0 + 256 * pick l 1 + 65536 * pick l 2 + 16777216 * pick l 3)) ∧
    Lanes (.bswp g d a) s g d (fun l =>
      BitVec.ofNat 32 (byte (A l) 3 + 256 * byte (A l) 2 + 65536 * byte (A l) 1 + 16777216 * byte (A l) 0)) ∧
    Lanes (.divI32 g d a b) s g d (fun l =>
      if B l = 0 then (if (A l).toInt < 0 then 0x80000000 else 0x7FFFFFFF)
      else BitVec.ofInt 32 ((A l).toInt.tdiv (B l).toInt)) ∧
    Lanes (.divN32 g d a b) s g d (fun l =>
      if B l = 0 then 0xFFFFFFFF else BitVec.ofNat 32 ((A l).toNat / (B l).toNat)) ∧
    Lanes (.remI32 g d a b) s g d (fun l => if B l = 0 then A l else BitVec.ofInt 32 ((A l).toInt.tmod (B l).toInt)) ∧
    Lanes (.remN32 g d a b) s g d (fun l => if B l = 0 then A l else BitVec.ofNat 32 ((A l).toNat % (B l).toNat)))

/-- R188, R193: `sel` and `icmpi`, their words, and the codes of a condition that are no instruction. -/
def Obligations.SelectionAndImmediateCompares : Prop :=
  ∀ (g : Guard) (cond : Cond) (imm : BitVec 28) (d a b c : RegNo) (s : State),
    let A : Nat → Word := src s a.toNat
    let B : Nat → Word := src s b.toNat
    let C : Nat → Word := src s c.toNat
    let I : Word := imm.signExtend 32
    let holds (x : Word) : Bool := match cond with
      | .eq => decide (x = I)
      | .ne => decide (x ≠ I)
      | .ltI => decide (x.toInt < I.toInt)
      | .leI => decide (x.toInt ≤ I.toInt)
      | .gtI => decide (I.toInt < x.toInt)
      | .geI => decide (I.toInt ≤ x.toInt)
      | .ltN => decide (x.toNat < I.toNat)
      | .leN => decide (x.toNat ≤ I.toNat)
      | .gtN => decide (I.toNat < x.toNat)
      | .geN => decide (I.toNat ≤ x.toNat)
    let code : Nat := match cond with
      | .eq => 0
      | .ne => 1
      | .ltI => 2
      | .leI => 3
      | .gtI => 4
      | .geI => 5
      | .ltN => 6
      | .leN => 7
      | .gtN => 8
      | .geN => 9
    let word (k : Nat) : Nat := single 0x16 g d.toNat a.toNat (k * 2 ^ 28 + imm.toNat)
    Lanes (.sel g d a b c) s g d (fun l => if C l ≠ 0 then A l else B l) ∧
    (Instr.sel g d a b c).encodeNat = some (rrrWord 0x08 g d.toNat a.toNat b.toNat c.toNat 0 0) ∧
    Lanes (.icmpi g cond imm d a) s g d (fun l => if holds (A l) then 0xFFFFFFFF else 0) ∧
    (Instr.icmpi g cond imm d a).encodeNat = some (word code) ∧
    ∀ k, 10 ≤ k → k < 16 → decode (BitVec.ofNat 64 (word k)) = .error .illegalInstr

/-- R191, R192: moves, and the immediate forms, each as its register form with the immediate for B. R21-R24: a pair word. Both slots
read before either writes; the first writes first. -/
def Obligations.MovesAndImmediates : Prop :=
  (∀ (g : Guard) (imm : Word) (d a : RegNo) (s : State),
    let A : Nat → Word := src s a.toNat
    let AA : Nat → DWord := src64 s a.toNat
    Lanes (.mov g d a) s g d A ∧
    Lanes64 (.mov64 g d a) s g d AA ∧
    Lanes (.addi g imm d a) s g d (fun l => A l + imm) ∧
    Lanes (.muli g imm d a) s g d (fun l => A l * imm) ∧
    Lanes (.andi g imm d a) s g d (fun l => A l &&& imm) ∧
    Lanes (.ori g imm d a) s g d (fun l => A l ||| imm) ∧
    Lanes (.xori g imm d a) s g d (fun l => A l ^^^ imm) ∧
    Lanes (.movi g imm d) s g d (fun _ => imm) ∧
    Lanes (.shli g imm d a) s g d (fun l => BitVec.ofNat 32 ((A l).toNat * 2 ^ imm.toNat)) ∧
    Lanes (.shri g imm d a) s g d (fun l => BitVec.ofNat 32 ((A l).toNat / 2 ^ imm.toNat)) ∧
    Lanes (.srai g imm d a) s g d (fun l => BitVec.ofInt 32 ((A l).toInt / 2 ^ imm.toNat)) ∧
    Lanes (.miniI32 g imm d a) s g d (fun l => BitVec.ofInt 32 (min (A l).toInt imm.toInt)) ∧
    Lanes (.maxiI32 g imm d a) s g d (fun l => BitVec.ofInt 32 (max (A l).toInt imm.toInt)) ∧
    Lanes64 (.addi64 g imm d a) s g d (fun l => AA l + imm.signExtend 64)) ∧
  (∀ (x y : PairSlot) (s : State),
    let lanes := active s .none
    let out (t : State) (p : PairSlot) : State := raise (putLanes t lanes p.d.toNat fun l => (slotResult s p l).1)
      (Flags.all (lanes.map fun l => (slotResult s p l).2))
    let X (p : PairSlot) (l : Nat) : Word := src s p.d.toNat l
    let Y (p : PairSlot) (l : Nat) : Word := if p.imm then p.b.signExtend 32 else src s p.b.toNat l
    (Issues (.pairWord x none) s → Completes (.pairWord x none) s (out s x)) ∧
    (Issues (.pairWord x (some y)) s → Completes (.pairWord x (some y)) s (out (out s x) y)) ∧
    ∀ l, (x.op = .add → slotResult s x l = (X x l + Y x l, 0)) ∧ (x.op = .sub → slotResult s x l = (X x l - Y x l, 0)) ∧
      (x.op = .and → slotResult s x l = (X x l &&& Y x l, 0)) ∧ (x.op = .or → slotResult s x l = (X x l ||| Y x l, 0)) ∧
      (x.op = .xor → slotResult s x l = (X x l ^^^ Y x l, 0)) ∧ (x.op = .mov → slotResult s x l = (Y x l, 0)) ∧
      (x.op = .shl → slotResult s x l = (BitVec.ofNat 32 ((X x l).toNat * 2 ^ (Y x l).toNat), 0)) ∧
      (x.op = .shr → slotResult s x l = (BitVec.ofNat 32 ((X x l).toNat / 2 ^ (Y x l).toNat), 0)) ∧
      (x.op = .sra → slotResult s x l = (BitVec.ofInt 32 ((X x l).toInt / 2 ^ (Y x l).toNat), 0)) ∧
      (x.op = .minI → slotResult s x l = (BitVec.ofInt 32 (min (X x l).toInt (Y x l).toInt), 0)) ∧
      (x.op = .maxI → slotResult s x l = (BitVec.ofInt 32 (max (X x l).toInt (Y x l).toInt), 0)) ∧
      (x.op = .minN → slotResult s x l = (BitVec.ofNat 32 (min (X x l).toNat (Y x l).toNat), 0)) ∧
      (x.op = .maxN → slotResult s x l = (BitVec.ofNat 32 (max (X x l).toNat (Y x l).toNat), 0)) ∧
      (x.op = .fadd → slotResult s x l = f32Add (X x l) (slotF s x l)) ∧
      (x.op = .fmul → slotResult s x l = f32Mul (X x l) (slotF s x l)) ∧
      (x.op = .fmin → slotResult s x l = (fminW (X x l) (slotF s x l), 0)) ∧
      (x.op = .fmax → slotResult s x l = (fmaxW (X x l) (slotF s x l), 0)))

/-- R195-R197: the pointer forms. Each lane's pointer is checked in R195's order; where every active lane's passes, the form completes
with the stated value; otherwise the lowest lane that fails raises its cause with its pointer as FADDR, and no lane's D changes. -/
def Obligations.Pointers : Prop :=
  ∀ (g : Guard) (dig : BitVec 5) (d a b : RegNo) (grp : Group) (s : State),
    let A : Nat → Word := src s a.toNat
    let B : Nat → Word := src s b.toNat
    let P : Nat → DWord := src64 s a.toNat
    let lanes : List Nat := active s g
    let field (l lo n : Nat) : Nat := (P l).toNat / 2 ^ lo % 2 ^ n
    let kind (l : Nat) : Nat := field l 62 2
    let cause (physical : Bool) (l : Nat) : Option Nat :=
      if kind l = 3 ∨ kind l = 0 then some 0x17
      else if kind l = 2 ∧ s.privileged = false then some 0x18
      else if kind l = 2 ∧ physical = false then some 0x17
      else if field l 22 13 ≠ 0 then some 0x17
      else if kind l = 2 ∧ 20 ≤ field l 35 5 then some 0x17
      else none
    let reads (i : Instr) (physical : Bool) (f : Nat → Word) : Prop :=
      (Issues i s → (∀ l ∈ lanes, cause physical l = none) → Completes i s (putLanes s lanes d.toNat f)) ∧
      ∀ l c, Issues i s → l ∈ lanes → cause physical l = some c → (∀ k ∈ lanes, k < l → cause physical k = none) → Traps i s c (P l)
    let built (l : Nat) : DWord := (1 <<< 62 : DWord) ||| ((A l).setWidth 64 <<< 35) ||| (B l).setWidth 64
    let fits (l : Nat) : Prop := (A l).toNat < 2 ^ 27 ∧ (B l).toNat < 2 ^ 22
    let x0 : Nat := grp.ifw.toNat % 32
    let w : Nat := grp.ifw.toNat / 256 % 64
    let y0 : Nat := grp.ifh.toNat % 32
    let h : Nat := grp.ifh.toNat / 256 % 32
    let inside (l : Nat) : Prop := x0 ≤ field l 40 5 ∧ field l 40 5 < x0 + w ∧ y0 ≤ field l 35 5 ∧ field l 35 5 < y0 + h
    let G : Nat := 2 ^ dig.toNat
    let moved (l : Nat) : DWord :=
      let n : Nat := (field l 0 22 / G * h * w + (field l 35 5 - y0) * w + (field l 40 5 - x0)) * G + field l 0 22 % G
      let m : Nat := (((n : Int) + (B l).toInt) % (2 ^ 22 * w * h : Nat)).toNat
      let q : Nat := m / G
      BitVec.ofNat 64 (field l 45 19 * 2 ^ 45 + (x0 + q % w) * 2 ^ 40 + (y0 + q / w % h) * 2 ^ 35 + (q / (w * h) * G + m % G))
    let within (l : Nat) : DWord :=
      BitVec.ofNat 64 (field l 22 42 * 2 ^ 22 + (((field l 0 22 : Int) + (B l).toInt) % (2 ^ 22 : Nat)).toNat)
    let M : Instr := .mpadd g dig d a b
    (Issues (.mpmk g d a b) s → (∀ l ∈ lanes, fits l) → Completes (.mpmk g d a b) s (putLanes64 s lanes d.toNat built)) ∧
    (∀ l, Issues (.mpmk g d a b) s → l ∈ lanes → ¬fits l → (∀ k ∈ lanes, k < l → fits k) → Traps (.mpmk g d a b) s 0x17 (built l)) ∧
    reads (.mpcore g d a) true (fun l => BitVec.ofNat 32 (field l 35 27)) ∧
    reads (.mpoff g d a) true (fun l => BitVec.ofNat 32 (field l 0 22)) ∧
    reads (.mploc g d a) false (fun l => if field l 35 27 = s.logicalCore then BitVec.ofNat 32 (field l 0 22) else 0xFFFFFFFF) ∧
    (s.cur.isClimber = false → s.curGroup = some grp →
      (Issues M s → (∀ l ∈ lanes, cause false l = none ∧ inside l) → Completes M s (putLanes64 s lanes d.toNat moved)) ∧
      (∀ l, Issues M s → l ∈ lanes → cause false l = none → ¬inside l → (∀ k ∈ lanes, k < l → cause false k = none ∧ inside k) →
        Traps M s 0x17 (P l))) ∧
    (s.cur.isClimber = true → Issues M s → (∀ l ∈ lanes, cause false l = none) →
      Completes M s (putLanes64 s lanes d.toNat within))

/-- R222, R223, R225-R227: the scalar float forms. Each lane's result and flags are those of the exact value rounded as the form says;
FSTAT takes the flags of all active lanes (R64). R224, R228-R233: float compares, packed halves, dot products, conversions and
quantisation. R47, R48, R223: what a NaN operand does: an arithmetic result is the canonical NaN, a minimum or maximum is the other
operand, and a compare with one is unordered. That infinity times zero raises NV beside a NaN in hfma and dot is the model's choice
(log 85). -/
def Obligations.FloatForms : Prop :=
  (∀ (g : Guard) (md : BitVec 8) (rm : BitVec 2) (d a b c : RegNo) (s : State),
    let A : Nat → Word := src s a.toNat
    let B : Nat → Word := src s b.toNat
    let C : Nat → Word := src s c.toNat
    let bits (r : Nat × Flags) : Word × Flags := (BitVec.ofNat 32 r.1, r.2)
    let mode : RMode := RMode.ofCode (md.toNat % 4)
    let x (l : Nat) : FVal := readA md (A l)
    let y (l : Nat) : FVal := readB md (B l)
    let fused (negP negC : Bool) (l : Nat) : Word × Flags :=
      let p := (x l).mul (y l)
      let z := readC md (C l)
      resultMod md (if p.nv then p else FVal.sum mode [if negP then p.val.negate else p.val, if negC then z.negate else z])
    LanesF (.fadd g md d a b) s g d (fun l => resultMod md (FVal.sum mode [x l, y l])) ∧
    LanesF (.fsub g md d a b) s g d (fun l => resultMod md (FVal.sum mode [x l, (y l).negate])) ∧
    LanesF (.fmul g md d a b) s g d (fun l => resultMod md ((x l).mul (y l))) ∧
    LanesF (.ffma g md d a b c) s g d (fused false false) ∧
    LanesF (.ffms g md d a b c) s g d (fused false true) ∧
    LanesF (.fnma g md d a b c) s g d (fused true false) ∧
    LanesF (.fnms g md d a b c) s g d (fused true true) ∧
    LanesF (.fdiv g d a b) s g d (fun l => bits (FFmt.f32.div (A l).toNat (B l).toNat)) ∧
    LanesF (.frcp g d a) s g d (fun l => bits (specRcp (A l).toNat)) ∧
    LanesF (.frsq g d a) s g d (fun l => bits (specRsq (A l).toNat)) ∧
    LanesF (.fsqrt g d a) s g d (fun l => bits (specSqrt (A l).toNat)) ∧
    LanesF (.fex2 g d a) s g d (fun l => bits (specEx2 (A l).toNat)) ∧
    LanesF (.flg2 g d a) s g d (fun l => bits (specLg2 (A l).toNat)) ∧
    LanesF (.fsinp g d a) s g d (fun l => bits (specSinp (A l).toNat)) ∧
    LanesF (.fcosp g d a) s g d (fun l => bits (specCosp (A l).toNat)) ∧
    LanesF (.ftanh g d a) s g d (fun l => bits (specTanh (A l).toNat)) ∧
    LanesF (.fscl g d a b) s g d (fun l => bits (FFmt.f32.finish .rn ⟨(f32 (A l)).scale (B l).toInt, false⟩)) ∧
    LanesF (.ffrac g d a) s g d (fun l => ffracW (A l)) ∧
    Lanes (.frint g rm d a) s g d (fun l => frintW (RMode.ofCode rm.toNat) (A l)) ∧
    Lanes (.fcls g d a) s g d (fun l => fclsW (A l)) ∧
    Lanes (.fcpsgn g d a b) s g d (fun l => (A l &&& 0x7FFFFFFF) ||| (B l &&& 0x80000000)) ∧
    Lanes (.fmin g d a b) s g d (fun l => fminW (A l) (B l)) ∧
    Lanes (.fmax g d a b) s g d (fun l => fmaxW (A l) (B l)) ∧
    Lanes (.fminp g d a b) s g d (fun l =>
      if (f32 (A l)).isNan || (f32 (B l)).isNan then 0x7FC00000 else fminW (A l) (B l)) ∧
    Lanes (.fmaxp g d a b) s g d (fun l =>
      if (f32 (A l)).isNan || (f32 (B l)).isNan then 0x7FC00000 else fmaxW (A l) (B l))) ∧
  (∀ (g : Guard) (cond : FCond) (comb : Comb) (bf : Bool) (df : DotFmt) (q : QFmt) (code : BitVec 6) (idx : BitVec 2)
    (d a b c : RegNo) (s : State),
    let A : Nat → Word := src s a.toNat
    let B : Nat → Word := src s b.toNat
    let C : Nat → Word := src s c.toNat
    let ones (t : Bool) : Word := if t then 0xFFFFFFFF else 0
    let un (l : Nat) : Bool := (f32 (A l)).isNan || (f32 (B l)).isNan
    let holds (l : Nat) : Bool := match cond with
      | .eq => (f32 (A l)).eq (f32 (B l))
      | .ne => !(f32 (A l)).eq (f32 (B l))
      | .lt => (f32 (A l)).lt (f32 (B l))
      | .le => (f32 (A l)).lt (f32 (B l)) || (f32 (A l)).eq (f32 (B l))
      | .gt => (f32 (B l)).lt (f32 (A l))
      | .ge => (f32 (B l)).lt (f32 (A l)) || (f32 (A l)).eq (f32 (B l))
      | .un => un l
      | .ord => !un l
    let f : FFmt := if bf then .bf16 else .f16
    let h (x : Word) (k : Nat) : FVal := f.val (x.toNat / 2 ^ (16 * k) % 2 ^ 16)
    let two (r : Nat → Nat × Flags) : Word × Flags := (BitVec.ofNat 32 ((r 0).1 + (r 1).1 * 2 ^ 16), (r 0).2 ||| (r 1).2)
    let bits (r : Nat × Flags) : Word × Flags := (BitVec.ofNat 32 r.1, r.2)
    let ints (r : Int × Flags) : Word × Flags := (BitVec.ofInt 32 r.1, r.2)
    let part (x : Word) (n k : Nat) : Nat := x.toNat / 2 ^ (n * k) % 2 ^ n
    let signed (n v : Nat) : Int := if 2 ^ (n - 1) ≤ v then (v : Int) - (2 ^ n : Nat) else v
    let dotted (t : FFmt) (n k l : Nat) : Word × Flags :=
      let ps := (List.range k).map fun i => (t.val (part (A l) n i)).mul (t.val (part (B l) n i))
      bits (FFmt.f32.finish .rn (if ps.any (·.nv) then ⟨.nan, true⟩ else FVal.sum .rn (ps.map (·.val) ++ [f32 (C l)])))
    let summed (n k : Nat) (v : Nat → Int) (l : Nat) : Word × Flags := (BitVec.ofInt 32
      (((List.range k).map fun i => v (part (A l) n i) * v (part (B l) n i)).foldl (· + ·) (C l).toInt), 0)
    let cvt (k : Nat) (r : Nat → Word × Flags) : Prop := code.toNat = k → LanesF (.cvt g code idx d a b) s g d r
    let wide (t : FFmt) (n k l : Nat) : Word × Flags := ((bits (FFmt.f32.finish .rn ⟨t.val (part (A l) n k), false⟩)).1, 0)
    let scaled (x : Nat) (v : Word) : FVal := (f32 v).scale (127 - (x : Int))
    let elem (x : Nat) (v : Word) : Nat × Flags := match q with
      | .e4m3 => if x = 255 then (0x7F, 0) else FFmt.e4m3.convert (scaled x v)
      | .e5m2 => if x = 255 then (0x7E, 0) else FFmt.e5m2.convert (scaled x v)
      | .e2m1 => if x = 255 then (0, Flags.nanz ||| Flags.nv) else FFmt.e2m1.convert (scaled x v)
      | .i8 => if x = 255 then (0, Flags.nanz ||| Flags.nv)
        else ((BitVec.ofInt 8 (FVal.clampInt .rn (-128) 127 (scaled x v)).1).toNat, (FVal.clampInt .rn (-128) 127 (scaled x v)).2)
    let width : Nat := if q = .e2m1 then 4 else 8
    let packed (l : Nat) : List (Nat × Flags) := (List.range q.count).map fun k => elem ((B l).toNat % 256) (src s (a.toNat + k) l)
    let emax : Int := match q with
      | .e4m3 => 8
      | .e5m2 => 15
      | _ => 2
    let scale (l : Nat) : Word × Flags := match f32 (A l) with
      | .nan => (0xFF, 0)
      | .inf _ => (0xFF, .nv)
      | .fin _ m e => if m = 0 then (0, 0) else (BitVec.ofInt 32 (max 0 (min (e + (Nat.log2 m : Int) - emax + 127) 254)), 0)
    let element (l k : Nat) : Word × Flags := unquantise q ((B l).toNat % 256) (A l) k
    Lanes (.fcmp g cond comb false d a b c) s g d (fun l => combW comb (ones (holds l)) (C l)) ∧
    (Issues (.fcmp g cond comb true d a b c) s → Completes (.fcmp g cond comb true d a b c) s
      (putPred s (d.toNat % 32) (combB comb (holds 0) (predBit s (c.toNat % 32))))) ∧
    LanesF (.hadd g bf d a b) s g d (fun l => two fun k => f.finish .rn (FVal.sum .rn [h (A l) k, h (B l) k])) ∧
    LanesF (.hsub g bf d a b) s g d (fun l => two fun k => f.finish .rn (FVal.sum .rn [h (A l) k, (h (B l) k).negate])) ∧
    LanesF (.hmul g bf d a b) s g d (fun l => two fun k => f.finish .rn ((h (A l) k).mul (h (B l) k))) ∧
    LanesF (.hfma g bf d a b c) s g d (fun l => two fun k => f.finish .rn
      (let p := (h (A l) k).mul (h (B l) k)
       if p.nv then p else FVal.sum .rn [p.val, h (C l) k])) ∧
    Lanes (.hmin g bf d a b) s g d (fun l => hminW bf (A l) (B l)) ∧
    Lanes (.hmax g bf d a b) s g d (fun l => hmaxW bf (A l) (B l)) ∧
    LanesF (.dot g df d a b c) s g d (match df with
      | .bf16 => dotted .bf16 16 2
      | .f16 => dotted .f16 16 2
      | .e4m3 => dotted .e4m3 8 4
      | .e5m2 => dotted .e5m2 8 4
      | .e2m1 => dotted .e2m1 4 8
      | .i8 => summed 8 4 (signed 8)
      | .n8 => summed 8 4 (fun v => v)
      | .i4 => summed 4 8 (signed 4)
      | .n4 => summed 4 8 (fun v => v)) ∧
    cvt 0 (fun l => bits (FFmt.f32.finish .rn ⟨.ofInt (A l).toInt, false⟩)) ∧
    cvt 1 (fun l => bits (FFmt.f32.finish .rn ⟨.ofInt (A l).toNat, false⟩)) ∧
    cvt 2 (fun l => ints (FVal.clampInt .rz (-(2 ^ 31)) (2 ^ 31 - 1) (f32 (A l)))) ∧
    cvt 3 (fun l => ints (FVal.clampInt .rz 0 (2 ^ 32 - 1) (f32 (A l)))) ∧
    cvt 4 (fun l => bits (FFmt.f16.convert (f32 (A l)))) ∧ cvt 5 (wide .f16 16 0) ∧
    cvt 6 (fun l => bits (FFmt.bf16.convert (f32 (A l)))) ∧ cvt 7 (wide .bf16 16 0) ∧
    cvt 8 (fun l => two fun k => FFmt.f16.convert (f32 (if k = 0 then A l else B l))) ∧
    cvt 9 (fun l => two fun k => FFmt.bf16.convert (f32 (if k = 0 then A l else B l))) ∧
    (∀ k, k < 4 → cvt (10 + k) (wide .e4m3 8 k) ∧ cvt (14 + k) (wide .e5m2 8 k)) ∧
    (∀ k, k < 8 → cvt (18 + k) (wide .e2m1 4 k)) ∧
    cvt 26 (fun l => bits (FFmt.f32.finish .rn ⟨.ofInt (signed 8 (part (A l) 8 idx.toNat)), false⟩)) ∧
    LanesF (.qpk g q d a b) s g d (fun l => (BitVec.ofNat 32
      (((packed l).zip (List.range q.count)).foldl (fun acc p => acc + p.1.1 * 2 ^ (width * p.2)) 0), Flags.all ((packed l).map (·.2)))) ∧
    (Issues (.qupk g q d a b) s → Completes (.qupk g q d a b) s
      (raise (putGroup s (active s g) d.toNat q.count fun l k => (element l k).1)
        (Flags.all ((active s g).flatMap fun l => (List.range q.count).map fun k => (element l k).2)))) ∧
    LanesF (.mxsc g q d a) s g d scale ∧
    (∀ l, (hminW bf (A l) (B l)).toNat % 65536 = f.minNum ((A l).toNat % 65536) ((B l).toNat % 65536) % 65536)) ∧
  (∀ (md : BitVec 8) (a b : Word), (f32 a).isNan = true →
    (md.getLsbD 3 = false → (faddW md a b).1 = 0x7FC00000 ∧ (fmulW md a b).1 = 0x7FC00000 ∧ (fsubW md a b).1 = 0x7FC00000) ∧
    ((f32 b).isNan = false → fminW a b = b ∧ fmaxW a b = b ∧ fminpW a b = 0x7FC00000 ∧ fmaxpW a b = 0x7FC00000) ∧
    ((f32 b).isNan = true → fminW a b = 0x7FC00000 ∧ fmaxW a b = 0x7FC00000) ∧
    fcondHolds .un a b = true ∧ fcondHolds .ord a b = false ∧ fcondHolds .eq a b = false ∧ fcondHolds .ne a b = true ∧
    fcondHolds .lt a b = false ∧ fcondHolds .le a b = false ∧ fcondHolds .gt a b = false ∧ fcondHolds .ge a b = false)

/-- R210-R213: what a lane receives from the other active lanes of its split. Which additions of an exclusive scan raise flags is the
model's choice (log 75). -/
def Obligations.LaneForms : Prop :=
  ∀ (g : Guard) (kind : ShflKind) (width : BitVec 3) (fate : ShflFate) (op : LaneOp) (ex : Bool) (d a b : RegNo) (s : State),
    let A : Nat → Word := src s a.toNat
    let m : Word := activeMask s g
    let lanes : List Nat := active s g
    let ones (t : Bool) : Word := if t then 0xFFFFFFFF else 0
    Lanes (.shfl g kind width fate d a b) s g d
      (fun l => shflLane kind fate (2 ^ width.toNat) m A (src s b.toNat) l) ∧
    Lanes (.voteAny g d a) s g d (fun _ => ones (lanes.any fun l => A l != 0)) ∧
    Lanes (.voteAll g d a) s g d (fun _ => ones (lanes.all fun l => A l != 0)) ∧
    Lanes (.voteUni g d a) s g d (fun _ => ones (lanes.all fun l => A l == A (lanes.headD 0))) ∧
    (∃ f : Nat → Word, Lanes (.ballot g d a) s g d f ∧ ∀ l j, j < 32 → (f l).getLsbD j = (m.getLsbD j && A j != 0)) ∧
    (∃ f : Nat → Word, Lanes (.matchLanes g d a) s g d f ∧ ∀ l j, j < 32 → (f l).getLsbD j = (m.getLsbD j && A j == A l)) ∧
    Lanes (.lmask g d) s g d (fun _ => m) ∧
    (∃ f : Nat → Word, Lanes (.lbelow g d) s g d f ∧ ∀ l j, l < 32 → j < 32 →
      (f l).getLsbD j = (m.getLsbD j && decide (j < l))) ∧
    Lanes (.lcnt g d) s g d (fun _ => BitVec.ofNat 32 lanes.length) ∧
    Lanes (.lfirst g d) s g d (fun _ => BitVec.ofNat 32 (lanes.headD 0)) ∧
    Lanes (.elect g d) s g d (fun l => ones (l == lanes.headD 0)) ∧
    (op ≠ .fadd → Issues (.lred g op d a) s → Completes (.lred g op d a) s
      (raise (putLanes s lanes d.toNat fun _ => laneFold op (lanes.map A)) 0)) ∧
    (Issues (.lred g .fadd d a) s → Completes (.lred g .fadd d a) s
      (raise (putLanes s lanes d.toNat fun _ => (treeSum 5 (paddedLanes m A)).1) (treeSum 5 (paddedLanes m A)).2)) ∧
    (op ≠ .fadd → Lanes (.lscan g op ex d a) s g d (fun l =>
      laneFold op ((lanes.filter fun j => if ex then decide (j < l) else decide (j ≤ l)).map A))) ∧
    (Issues (.lscan g .fadd ex d a) s → Completes (.lscan g .fadd ex d a) s
      (raise (putLanes s lanes d.toNat fun l =>
          if ex then (if l = 0 then 0x80000000 else (scanSum m (paddedLanes m A)).1.getD (l - 1) 0)
          else (scanSum m (paddedLanes m A)).1.getD l 0)
        (scanSum m (paddedLanes m A)).2))

/-- R172-R175: loads. Where every active lane's address is aligned and may be accessed, and no word read is uncorrectable, each lane of
D's group receives the bytes at its address, extended as the size says. R173, R176: `st` and `atl`. Lanes store in increasing order;
`atl` gives each lane the word the lanes before it left, and stores the operation's result. Memory outside the bytes stored, and all
else, stays, but for the dirty mask of a held lease window stored to. `st` reaches the system region in privileged code, and both
the lease windows that the wave holds. R172: the order of the checks of an access. A misaligned lane traps LS_MISALIGN before any
range is looked at, a lane out of range traps LS_RANGE before any write to the constant region is, and FADDR is the address of the
lowest such lane. What privileged code meets in the code region is the model's choice (log 75). -/
def Obligations.LocalLoads : Prop :=
  (∀ (g : Guard) (sz : Sz) (off : BitVec 16) (sh : BitVec 3) (d a b : RegNo) (s : State),
    let lanes : List Nat := active s g
    let at_ (l : Nat) : Word := src s a.toNat l + off.signExtend 32
    let ix (l : Nat) : Word := src s a.toNat l + (src s b.toNat l <<< sh.toNat)
    let n : Nat := sz.bytes
    let value (addr : Nat → Word) (l k : Nat) : Word :=
      let v := Memory.load s.mem (lsKey s.curCore (addr l).toNat) n
      match sz with
      | .i8 => (BitVec.ofNat 8 v).signExtend 32
      | .n8 => BitVec.ofNat 32 v
      | .i16 => (BitVec.ofNat 16 v).signExtend 32
      | .n16 => BitVec.ofNat 32 v
      | _ => BitVec.ofNat 32 (v / 2 ^ (32 * k))
    s.badLs = [] →
    (Issues (.ld g sz off d a) s → (∀ l ∈ lanes, (at_ l).toNat % n = 0 ∧ accessOk s true (at_ l).toNat n = true) →
      Completes (.ld g sz off d a) s (putGroup s lanes d.toNat sz.regs (value at_))) ∧
    (Issues (.ldk g sz off d a) s → (∀ l ∈ lanes, (at_ l).toNat % n = 0 ∧ constOk s (at_ l).toNat n = true) →
      Completes (.ldk g sz off d a) s (putGroup s lanes d.toNat sz.regs (value at_))) ∧
    (Issues (.ldix g sz sh d a b) s → (∀ l ∈ lanes, (ix l).toNat % n = 0 ∧ accessOk s false (ix l).toNat n = true) →
      Completes (.ldix g sz sh d a b) s (putGroup s lanes d.toNat sz.regs (value ix)))) ∧
  (∀ (g : Guard) (sz : Sz) (off : BitVec 16) (aop : Aop) (scope : BitVec 3) (off10 : BitVec 10) (d a b : RegNo) (s : State),
    let lanes : List Nat := active s g
    let at_ (l : Nat) : Word := src s a.toNat l + off.signExtend 32
    let word (l : Nat) : Word := src s a.toNat l + off10.signExtend 32
    let key (addr : Nat → Word) (l : Nat) : Nat := lsKey s.curCore (addr l).toNat
    let mayStore (n : Nat) (addr : Nat → Word) (l : Nat) : Prop := (addr l).toNat % n = 0 ∧
      accessOk s false (addr l).toNat n = true ∧ constWrite s (addr l).toNat n = false ∧ (addr l).toNat + n ≤ 0x2F0000
    let one (q : List Host.Cell × List (Nat × Word)) (l : Nat) : List Host.Cell × List (Nat × Word) :=
      let old := BitVec.ofNat 32 (Memory.load q.1 (key word l) 4)
      (Memory.store q.1 (key word l) 4 (atomicW aop old (src s b.toNat l) (src s (b.toNat + 1) l)).toNat, q.2 ++ [(l, old)])
    let r := lanes.foldl one (s.mem, [])
    let put (u : State) (a n v : Nat) : State :=
      let u : State := { u with mem := Memory.store u.mem (lsKey s.curCore a) n v }
      if 0x2FE000 ≤ a ∧ a < 0x2FE400 then u.updCurWave fun w => { w with leases := w.leases.map fun x =>
        if x.window = (a - 0x2FE000) / 128 then
          { x with dirty := x.dirty ||| BitVec.ofNat 128 ((2 ^ n - 1) * 2 ^ ((a - 0x2FE000) % 128)) } else x }
      else u
    let may (plain : Bool) (n : Nat) (addr : Nat → Word) (l : Nat) : Prop := (addr l).toNat % n = 0 ∧
      accessOk s plain (addr l).toNat n = true ∧ constWrite s (addr l).toNat n = false
    let step (q : State × List (Nat × Word)) (l : Nat) : State × List (Nat × Word) :=
      let old := BitVec.ofNat 32 (Memory.load q.1.mem (key word l) 4)
      (put q.1 (word l).toNat 4 (atomicW aop old (src s b.toNat l) (src s (b.toNat + 1) l)).toNat, q.2 ++ [(l, old)])
    let q := lanes.foldl step (s, [])
    s.badLs = [] → s.paired = false →
    (Issues (.st g sz off a b) s → (∀ l ∈ lanes, mayStore sz.bytes at_ l) →
      Completes (.st g sz off a b) s { s with mem := lanes.foldl (fun m l =>
        Memory.store m (key at_ l) sz.bytes (groupValue s b.toNat sz.regs l)) s.mem }) ∧
    (Issues (.atl g aop scope off10 d a b) s → (∀ l ∈ lanes, mayStore 4 word l) →
      Completes (.atl g aop scope off10 d a b) s
        (putLanes { s with mem := r.1 } lanes d.toNat fun l => ((r.2.find? fun q => q.1 == l).map (·.2)).getD 0)) ∧
    (Issues (.st g sz off a b) s → s.cur.isClimber = false → (∀ l ∈ lanes, may true sz.bytes at_ l) →
      Completes (.st g sz off a b) s
        (lanes.foldl (fun u l => put u (at_ l).toNat sz.bytes (groupValue s b.toNat sz.regs l)) s)) ∧
    (Issues (.atl g aop scope off10 d a b) s → s.cur.isClimber = false → (∀ l ∈ lanes, may false 4 word l) →
      Completes (.atl g aop scope off10 d a b) s
        (putLanes q.1 lanes d.toNat fun l => ((q.2.find? fun q => q.1 == l).map (·.2)).getD 0)) ∧
    (∀ plain x n, s.xbnd s.curCore ≤ x → 0x2F0000 ≤ x → x + n ≤ 0x300000 → 0 < n →
      (plain = true → s.privileged = true → accessOk s plain x n = true) ∧
      (s.cur.isClimber = false → 0x2FE000 ≤ x → x < 0x2FE400 →
        (s.curWave.leases.any fun l => l.window == (x - 0x2FE000) / 128) = true → accessOk s plain x n = true) ∧
      ((plain = false ∨ s.privileged = false) → (s.curWave.leases.any fun l => l.window == (x - 0x2FE000) / 128) = false →
        accessOk s plain x n = false))) ∧
  (∀ (g : Guard) (sz : Sz) (off : BitVec 16) (sh : BitVec 3) (aop : Aop) (scope : BitVec 3) (off10 : BitVec 10) (d a b : RegNo) (s : State) (l : Nat),
    let lanes : List Nat := active s g
    let at_ (l : Nat) : Word := src s a.toNat l + off.signExtend 32
    let n : Nat := sz.bytes
    let aligned (l : Nat) : Prop := (at_ l).toNat % n = 0
    let inside (l : Nat) : Prop := accessOk s true (at_ l).toNat n = true
    let const (l : Nat) : Prop := constWrite s (at_ l).toNat n = true
    let ix (l : Nat) : Word := src s a.toNat l + (src s b.toNat l <<< sh.toNat)
    let word (l : Nat) : Word := src s a.toNat l + off10.signExtend 32
    let first (p : Nat → Prop) : Prop := (∀ k ∈ lanes, k < l → p k) ∧ ¬p l
    l ∈ lanes →
    (Issues (.ld g sz off d a) s → (∀ k ∈ lanes, k < l → aligned k) → ¬aligned l →
      Traps (.ld g sz off d a) s 0x06 ((at_ l).setWidth 64)) ∧
    (Issues (.ld g sz off d a) s → (∀ k ∈ lanes, aligned k) → (∀ k ∈ lanes, k < l → inside k) → ¬inside l →
      Traps (.ld g sz off d a) s 0x05 ((at_ l).setWidth 64)) ∧
    (Issues (.st g sz off a b) s → (∀ k ∈ lanes, k < l → aligned k) → ¬aligned l →
      Traps (.st g sz off a b) s 0x06 ((at_ l).setWidth 64)) ∧
    (Issues (.st g sz off a b) s → (∀ k ∈ lanes, aligned k) → (∀ k ∈ lanes, k < l → inside k) → ¬inside l →
      Traps (.st g sz off a b) s 0x05 ((at_ l).setWidth 64)) ∧
    (Issues (.st g sz off a b) s → (∀ k ∈ lanes, aligned k ∧ inside k) → (∀ k ∈ lanes, k < l → ¬const k) → const l →
      Traps (.st g sz off a b) s 0x07 ((at_ l).setWidth 64)) ∧
    (Issues (.ldk g sz off d a) s → first (fun k => (at_ k).toNat % n = 0) → Traps (.ldk g sz off d a) s 0x06 ((at_ l).setWidth 64)) ∧
    (Issues (.ldk g sz off d a) s → (∀ k ∈ lanes, aligned k) → first (fun k => constOk s (at_ k).toNat n = true) →
      Traps (.ldk g sz off d a) s 0x05 ((at_ l).setWidth 64)) ∧
    (Issues (.ldix g sz sh d a b) s → first (fun k => (ix k).toNat % n = 0) → Traps (.ldix g sz sh d a b) s 0x06 ((ix l).setWidth 64)) ∧
    (Issues (.ldix g sz sh d a b) s → (∀ k ∈ lanes, (ix k).toNat % n = 0) → first (fun k => accessOk s false (ix k).toNat n = true) →
      Traps (.ldix g sz sh d a b) s 0x05 ((ix l).setWidth 64)) ∧
    (Issues (.atl g aop scope off10 d a b) s → first (fun k => (word k).toNat % 4 = 0) →
      Traps (.atl g aop scope off10 d a b) s 0x06 ((word l).setWidth 64)) ∧
    (Issues (.atl g aop scope off10 d a b) s → (∀ k ∈ lanes, (word k).toNat % 4 = 0) →
      first (fun k => accessOk s false (word k).toNat 4 = true) → Traps (.atl g aop scope off10 d a b) s 0x05 ((word l).setWidth 64)) ∧
    (Issues (.atl g aop scope off10 d a b) s → (∀ k ∈ lanes, (word k).toNat % 4 = 0 ∧ accessOk s false (word k).toNat 4 = true) →
      first (fun k => constWrite s (word k).toNat 4 = false) → Traps (.atl g aop scope off10 d a b) s 0x07 ((word l).setWidth 64)))

/-- R204: `br` and `call`. With every lane of the split active they go to PC + 8 × DISP24; with none, to the next word; where lanes
divide, the taken ones go on in this split and the others in the lowest free split at the next word, with a copy of the stack.
`call` writes the next word's address into the active lanes of D first. R205: `jmpi` and `ret`. Every active lane's target must be a
multiple of 8, or the lowest that is not traps LS_MISALIGN; when all lanes of the split are active and agree they go there; with
none active the split goes on; where targets differ, the lowest one's lanes stay in this split and the others, lanes left behind
first and then rising targets, take free splits, and the rest the stack, highest address first, unless it has no room:
SPLIT_OVERFLOW, and nothing changes. The bits that a pushed address drops, and the order of two equal ones, are the model's choices
(log 75). -/
def Obligations.Branches : Prop :=
  (∀ (g : Guard) (disp : BitVec 24) (tag : BitVec 4) (uni : Bool) (d : RegNo) (s : State),
    let t : Word := activeMask s g
    let f : Word := s.curMask &&& ~~~t
    let next : Word := s.curPc + 8
    let target : Word := s.curPc + BitVec.ofInt 32 (8 * disp.toInt)
    let linked : State := putLanes s (active s g) d.toNat fun _ => next
    let divide (u : State) (q : Nat) : State := jumpTo target ((spawn q f next u).updCurSplit fun p => { p with mask := t })
    (Issues (.br g disp tag uni) s → f = 0 → Transfers (.br g disp tag uni) s (jumpTo target s)) ∧
    (Issues (.br g disp tag uni) s → f ≠ 0 → t = 0 → Transfers (.br g disp tag uni) s (continueAt next s)) ∧
    (∀ q qs, Issues (.br g disp tag uni) s → f ≠ 0 → t ≠ 0 → s.curSplit.depth ≤ 8 → freeSplits s.curWave = q :: qs →
      Transfers (.br g disp tag uni) s (divide s q)) ∧
    (Issues (.br g disp tag uni) s → f ≠ 0 → t ≠ 0 → s.curSplit.depth = 8 → freeSplits s.curWave = [] →
      Traps (.br g disp tag uni) s 0x16 (s.curMask.setWidth 64)) ∧
    (Issues (.br g disp tag uni) s → f ≠ 0 → t ≠ 0 → s.curSplit.depth < 8 → freeSplits s.curWave = [] →
      Transfers (.br g disp tag uni) s
        (jumpTo target ((pushPath f next tag.toNat s).updCurSplit fun p => { p with mask := t }))) ∧
    (Issues (.call g disp tag uni d) s → linked.curMask = s.curMask → linked.curPc = s.curPc → f = 0 →
      Transfers (.call g disp tag uni d) s (jumpTo target linked)) ∧
    (Issues (.call g disp tag uni d) s → linked.curMask = s.curMask → linked.curPc = s.curPc → f ≠ 0 → t = 0 →
      Transfers (.call g disp tag uni d) s (continueAt next linked)) ∧
    (∀ q qs, Issues (.call g disp tag uni d) s → linked.curMask = s.curMask → linked.curPc = s.curPc → f ≠ 0 → t ≠ 0 →
      linked.curSplit.depth ≤ 8 → freeSplits linked.curWave = q :: qs →
      Transfers (.call g disp tag uni d) s (divide linked q)) ∧
    (Issues (.call g disp tag uni d) s → linked.curMask = s.curMask → linked.curPc = s.curPc → f ≠ 0 → t ≠ 0 →
      linked.curSplit.depth = 8 → freeSplits linked.curWave = [] →
      Traps (.call g disp tag uni d) s 0x16 (s.curMask.setWidth 64)) ∧
    (Issues (.call g disp tag uni d) s → linked.curMask = s.curMask → linked.curPc = s.curPc → f ≠ 0 → t ≠ 0 →
      linked.curSplit.depth < 8 → freeSplits linked.curWave = [] → Transfers (.call g disp tag uni d) s
        (jumpTo target ((pushPath f next tag.toNat linked).updCurSplit fun p => { p with mask := t }))) ∧
    t ||| f = s.curMask ∧ t &&& f = 0) ∧
  (∀ (g : Guard) (tag : BitVec 4) (a : RegNo) (s : State) (v : Word),
    let A : Nat → Word := src s a.toNat
    let lanes : List Nat := active s g
    let left : Word := s.curMask &&& ~~~(activeMask s g)
    let all : Prop := left = 0
    let at_ (x : Nat) : Word × Word := (maskOf fun l => lanes.contains l && (A l).toNat == x, BitVec.ofNat 32 x)
    let rest (xs : List Nat) : List (Word × Word) := (if left = 0 then [] else [(left, s.curPc + 8)]) ++ xs.map at_
    let divide (x : Nat) (xs : List Nat) : State := jumpTo (BitVec.ofNat 32 x)
      ((((freeSplits s.curWave).zip (rest xs)).foldl (fun u q => spawn q.1 q.2.1 q.2.2 u) s).updCurSplit fun p =>
        { p with mask := (at_ x).1 })
    let splits (x : Nat) (xs : List Nat) : Prop := sortNats (lanes.map fun l => (A l).toNat) = x :: xs ∧
      (∀ l ∈ lanes, (A l).toNat % 8 = 0) ∧ rest xs ≠ []
    let divides (x : Nat) (xs : List Nat) : Prop := splits x xs ∧ (rest xs).length ≤ (freeSplits s.curWave).length ∧ s.curSplit.depth ≤ 8
    let n : Nat := (freeSplits s.curWave).length
    let stacked (x : Nat) (xs : List Nat) (held : List (Word × Word)) : State := jumpTo (BitVec.ofNat 32 x)
      ((held.foldl (fun u q => pushPath q.1 q.2 tag.toNat u)
        (((freeSplits s.curWave).zip (rest xs)).foldl (fun u q => spawn q.1 q.2.1 q.2.2 u) s)).updCurSplit fun p =>
          { p with mask := (at_ x).1 })
    let pushes (i : Instr) : Prop := ∀ x xs, Issues i s → splits x xs → s.curSplit.depth + ((rest xs).length - n) ≤ 8 →
      ∃ held, held.Perm ((rest xs).drop n) ∧ held.Pairwise (fun p q => q.2.toNat ≤ p.2.toNat) ∧ Transfers i s (stacked x xs held)
    let overflows (i : Instr) : Prop := ∀ x xs, Issues i s → splits x xs → 8 < s.curSplit.depth + ((rest xs).length - n) →
      Traps i s 0x16 (s.curMask.setWidth 64)
    (Issues (.jmpi g tag a) s → lanes ≠ [] → all → (∀ l ∈ lanes, A l = v) → v.toNat % 8 = 0 →
      Transfers (.jmpi g tag a) s (jumpTo v s)) ∧
    (Issues (.ret g tag a) s → lanes ≠ [] → all → (∀ l ∈ lanes, A l = v) → v.toNat % 8 = 0 →
      Transfers (.ret g tag a) s (jumpTo v s)) ∧
    (Issues (.jmpi g tag a) s → lanes = [] → Transfers (.jmpi g tag a) s (continueAt (s.curPc + 8) s)) ∧
    (Issues (.ret g tag a) s → lanes = [] → Transfers (.ret g tag a) s (continueAt (s.curPc + 8) s)) ∧
    (∀ x xs, Issues (.jmpi g tag a) s → divides x xs → Transfers (.jmpi g tag a) s (divide x xs)) ∧
    (∀ x xs, Issues (.ret g tag a) s → divides x xs → Transfers (.ret g tag a) s (divide x xs)) ∧
    pushes (.jmpi g tag a) ∧ pushes (.ret g tag a) ∧ overflows (.jmpi g tag a) ∧ overflows (.ret g tag a) ∧
    (∀ l, Issues (.jmpi g tag a) s → l ∈ lanes → (A l).toNat % 8 ≠ 0 → (∀ k ∈ lanes, k < l → (A k).toNat % 8 = 0) →
      Traps (.jmpi g tag a) s 0x06 ((A l).setWidth 64)) ∧
    (∀ l, Issues (.ret g tag a) s → l ∈ lanes → (A l).toNat % 8 ≠ 0 → (∀ k ∈ lanes, k < l → (A k).toNat % 8 = 0) →
      Traps (.ret g tag a) s 0x06 ((A l).setWidth 64)))

/-- R206, R207: `join` and `exit`. A `join` with no entry of its tag on top parks; a path entry is exchanged, its lanes running while
the split's wait; a rejoin entry of this place gives its lanes back. `exit` ends its active lanes. R214-R217: the group barriers. An
arrival that R217 allows enters the barrier; `bar.wait` passes once the generation it names is over. -/
def Obligations.JoinAndExit : Prop :=
  (∀ (g : Guard) (tag : BitVec 4) (s : State) (e : StackEntry),
    let here : State := parkAs (.join s.clk) s
    let next : Word := s.curPc + 8
    (Issues (.join tag) s → topEntry s = none → Transfers (.join tag) s here) ∧
    (Issues (.join tag) s → topEntry s = some e → e.tag ≠ tag.toNat → Transfers (.join tag) s here) ∧
    (Issues (.join tag) s → topEntry s = some e → e.tag = tag.toNat → e.rejoin = false →
      Transfers (.join tag) s (exchange e false s)) ∧
    (Issues (.join tag) s → topEntry s = some e → e.tag = tag.toNat → e.rejoin = true → e.bar = false → e.pc = next →
      Transfers (.join tag) s (continueAt next (s.updCurSplit fun p => { p with mask := p.mask ||| e.mask, depth := p.depth - 1 }))) ∧
    (Issues (.join tag) s → topEntry s = some e → e.tag = tag.toNat → e.rejoin = true → (e.bar = true ∨ e.pc ≠ next) →
      Transfers (.join tag) s here) ∧
    (Issues (.exit g) s → s.dfValid s.curCore s.cur.slot = false →
      Transfers (.exit g) s (exitLanes (activeMask s g) s)) ∧
    (Issues (.exit g) s → s.dfValid s.curCore s.cur.slot = true →
      Traps (.exit g) s (dfrCause (s.dfr s.curCore s.cur.slot)) (dfrAddr (s.dfr s.curCore s.cur.slot)))) ∧
  (∀ (a b d : RegNo) (s : State),
    let l : Nat := firstLane s .none
    let x : Word := src s a.toNat l
    let n : Word := src s b.toNat l
    let after : State := arrive x.toNat n.toNat s
    let passed : Nat := (barrierGen s x.toNat - n).toNat
    (Issues (.barArr d a b) s → arrivalFault s x n = none → Completes (.barArr d a b) s
      (putLanes after (active s .none) d.toNat fun _ => barrierGen s x.toNat)) ∧
    (Issues (.barSync a b) s → arrivalFault s x n = none → topEntry after = none → barrierGen after x.toNat ≠ barrierGen s x.toNat →
      Transfers (.barSync a b) s (continueAt (after.curPc + 8) after)) ∧
    (Issues (.barSync a b) s → arrivalFault s x n = none → topEntry after = none → barrierGen after x.toNat = barrierGen s x.toNat →
      Transfers (.barSync a b) s (parkAs (.barrier x.toNat) after)) ∧
    (∀ e, Issues (.barSync a b) s → arrivalFault s x n = none → topEntry after = some e → e.rejoin = false →
      Transfers (.barSync a b) s (exchange e true after)) ∧
    (∀ e, Issues (.barSync a b) s → arrivalFault s x n = none → topEntry after = some e → e.rejoin = true → e.bar = true →
      e.pc = after.curPc + 8 → barrierGen after x.toNat = barrierGen s x.toNat →
      Transfers (.barSync a b) s (parkAs (.barrier x.toNat) (takeBack e after))) ∧
    (Issues (.barWait a b) s → x.toNat < 16 → 1 ≤ passed → passed ≤ 2 ^ 31 → Completes (.barWait a b) s s) ∧
    (Issues (.barWait a b) s → x.toNat < 16 → passed = 0 → Waits (.barWait a b) s 9 s) ∧
    (∀ grp, s.curGroup = some grp → 16 ≤ x.toNat → Issues (.barSync a b) s → Traps (.barSync a b) s 0x1C (x.setWidth 64)) ∧
    (∀ grp, s.curGroup = some grp → 16 ≤ x.toNat → Issues (.barArr d a b) s → Traps (.barArr d a b) s 0x1C (x.setWidth 64)) ∧
    (16 ≤ x.toNat → Issues (.barWait a b) s → Traps (.barWait a b) s 0x1C (x.setWidth 64)))

/-- R328, R335, R338: sleeps, `yield`, `nop`, `mark`, `trap`, `brk` and `eret`. -/
def Obligations.SleepsAndTraps : Prop :=
  ∀ (g : Guard) (code : BitVec 16) (a : RegNo) (s : State),
    let l : Nat := firstLane s g
    let behind : State := continueAt (s.curPc + 8) s
    let faddr : DWord := BitVec.ofNat 64 ((activeMask s g).toNat * 2 ^ 32 + code.toNat)
    (Issues (.slpUntil g a) s → Transfers (.slpUntil g a) s (parkAs (.sleep (src64 s a.toNat l).toNat) behind)) ∧
    (Issues (.slpFor g a) s → Transfers (.slpFor g a) s (parkAs (.sleep (s.clkAfter (src s a.toNat l).toNat)) behind)) ∧
    (Issues (.yield g) s → ∃ others, Transfers (.yield g) s (parkAs (.yield others s.clk) behind) ∧
      ∀ k, k ∈ others ↔ k ≠ s.cur.slot * 4 + s.cur.split ∧ (k / 4, k % 4) ∈ readySplits s s.curCore ++ heldSplits s s.curCore) ∧
    (Issues (.nop g) s → Completes (.nop g) s s) ∧
    (Issues (.mark g code) s → (s.cur.isClimber = true ∨ (s.core s.curCore).sampctl.getLsbD 1 = false) → Completes (.mark g code) s s) ∧
    (Issues (.mark g code) s → s.cur.isClimber = false → (s.core s.curCore).sampctl.getLsbD 1 = true →
      Completes (.mark g code) s (writeSample s.curCore
        (sampleBits code.toNat 0 3 s.cur.split s.cur.slot s.curPc.toNat s.clk) s)) ∧
    (Issues (.trap g code) s → Traps (.trap g code) s 0x12 faddr) ∧
    (Issues (.brk g code) s → Traps (.brk g code) s 0x13 faddr) ∧
    (Issues .eret s → s.curWave.tm = true → Transfers .eret s (returnFromTrap s.curCore s.cur.slot s)) ∧
    (Issues .eret s → s.curWave.tm = false → Traps .eret s 0x01 s.ir)

/-- R336, R337: taking a precise cause. In a wave that runs no handler and whose group has one, FAULTPC, FCAUSE, FADDR, FMASK and the
depth and split are saved, the stack beside them; TM is set and the split goes on at TVEC; nothing else of the wave changes but what
it had fetched. Without a handler, or in one, the wave stops and the end of its launch is asked for. R338: `eret` undoes the trap:
the trapped split takes back its PC, mask and depth, its stack is copied back, TM is cleared, and the handler's own splits are free. -/
def Obligations.TrapEntry : Prop :=
  (∀ (core slot p : Nat) (tvec : Word) (cause : Nat) (faddr : DWord) (pc : Word) (s : State),
    let w := s.wave core slot
    let sp := w.splits.getD p {}
    let t := takeTrap core slot p tvec cause faddr pc s
    s.Inv → slot < 16 → cause < 256 → p < 4 → w.splits.length = 4 → sp.depth ≤ 8 → w.block = none →
    (w.tm = false → tvec ≠ 0 →
      t.ls core (saveArea slot + 16) 4 = pc.toNat ∧ t.ls core (saveArea slot + 15) 1 = cause ∧
      t.ls core (saveArea slot + 24) 8 = faddr.toNat ∧ t.ls core (saveArea slot + 20) 4 = sp.mask.toNat ∧
      t.ls core (saveArea slot + 32) 64 = s.ls core (stackAddr slot p 0) 64 ∧
      (t.wave core slot).tm = true ∧ ((t.wave core slot).splits.getD p {}).pc = tvec ∧
      ((t.wave core slot).splits.getD p {}).mask = sp.mask ∧ (t.wave core slot).freeAtTrap = freeSplits w ∧
      t.regs = s.regs ∧ t.cores = s.cores ∧ t.groups = s.groups ∧ t.agenda = s.agenda ∧
      SameMemoryBut (lsKey core (saveArea slot)) 96 s t) ∧
    (w.tm = true ∨ tvec = 0 → (t.wave core slot).stopped = true ∧ t.mem = s.mem ∧ t.regs = s.regs ∧
      ∃ r : EndReq, t.agenda = s.agenda ++ [⟨.launchEndOnFault, .ending r⟩] ∧ r.cause = cause ∧ r.faddr = faddr ∧
        r.core = core ∧ r.slot = slot ∧ r.pc = pc.toNat)) ∧
  (∀ (core slot p : Nat) (tvec : Word) (cause : Nat) (faddr : DWord) (pc : Word) (s : State),
    let w := s.wave core slot
    let sp := w.splits.getD p {}
    let t := returnFromTrap core slot (takeTrap core slot p tvec cause faddr pc s)
    s.Inv → slot < 16 → cause < 256 → p < 4 → w.splits.length = 4 → sp.live = true → sp.depth ≤ 8 →
    w.block = none → w.tm = false → tvec ≠ 0 →
    (t.wave core slot).tm = false ∧ ((t.wave core slot).splits.getD p {}).pc = pc ∧
      ((t.wave core slot).splits.getD p {}).mask = sp.mask ∧ ((t.wave core slot).splits.getD p {}).depth = sp.depth ∧
      t.ls core (stackAddr slot p 0) 64 = s.ls core (stackAddr slot p 0) 64 ∧ t.regs = s.regs ∧
      ∀ q, q < 4 → q ≠ p → (w.splits.getD q {}).live = false → (t.wave core slot).splits.getD q {} = {})

/-- R27, R32-R34, R254, R269: what holds an instruction, in the order of R34. -/
def Obligations.IssueChecks : Prop :=
  ∀ (i : Instr) (sh : Shape) (s : State), shapeOf i = some sh →
    let climber : Bool := s.cur.isClimber
    let forbidden : Prop := (climber = true ∧ climberMay sh.maj = false) ∨ (climber = false ∧ waveMay sh.maj = false)
    let noChannel : Prop := channelsOf sh.srcs = [] ∧ channelsOf sh.dsts = []
    (forbidden → hold i s = some (.trap 0x01 s.ir s)) ∧
    (illegalHere i sh s = false → needsPrivilege i sh = true → s.privileged = false → hold i s = some (.trap 0x18 s.ir s)) ∧
    (illegalHere i sh s = false → (needsPrivilege i sh = false ∨ s.privileged = true) → registersOk sh s = false →
      hold i s = some (.trap 0x03 s.ir s)) ∧
    (climber = false → illegalHere i sh s = false → (needsPrivilege i sh = false ∨ s.privileged = true) →
      registersOk sh s = true → 0x60 ≤ sh.maj → sh.maj ≤ 0x66 → s.dmValid s.cur.core s.cur.slot = true →
      ∃ t, hold i s = some (.trap 0x14 (BitVec.ofNat 64 (s.dmr s.cur.core s.cur.slot)) t)) ∧
    (illegalHere i sh s = false → (needsPrivilege i sh = false ∨ s.privileged = true) → registersOk sh s = true → noChannel →
      (climber = true ∨ (s.dmValid s.cur.core s.cur.slot = false ∧ s.curWave.block = none ∧ s.curWave.failed = [])) →
      s.pending = [] → (isControl sh.maj = true ∨ activeMask s sh.guard ≠ 0) → hold i s = none) ∧
    (hold i s = some (.idle s) → isControl sh.maj = false ∧ activeMask s sh.guard = 0)

/-- R330, R332: `csr`. With no result of an earlier instruction awaited and no accepted `mma` of the wave unexecuted, D's active lanes
receive the old value, and the register takes A, the old value with A's bits set, or with A's bits cleared; a value its rule refuses
raises the rule's cause and changes nothing. R169, R194, R330, R333: what writing each CSR does, and which values it refuses. R330:
the writes of CSRs as steps of their own, for a wave named by core, slot and split; each takes effect as the instruction does, or
raises its cause in that split. -/
def Obligations.CsrForms : Prop :=
  (∀ (g : Guard) (n : BitVec 12) (d a : RegNo) (s t : State),
    let old : Word := csrRead s n.toNat
    let A : Word := src s a.toNat (firstLane s g)
    let out (u : State) : State := putLanes u (active s g) d.toNat fun _ => old
    s.pending = [] → mmaPending s = false →
    (Issues (.csrRd g n d) s → Completes (.csrRd g n d) s (out s)) ∧
    (Issues (.csrWr g n d a) s → csrWrite n.toNat A s = .ok t → Completes (.csrWr g n d a) s (out t)) ∧
    (Issues (.csrSet g n d a) s → csrWrite n.toNat (old ||| A) s = .ok t → Completes (.csrSet g n d a) s (out t)) ∧
    (Issues (.csrClr g n d a) s → csrWrite n.toNat (old &&& ~~~A) s = .ok t → Completes (.csrClr g n d a) s (out t)) ∧
    (∀ c x, Issues (.csrWr g n d a) s → csrWrite n.toNat A s = .error (c, x) → Traps (.csrWr g n d a) s c x)) ∧
  (∀ (v : Word) (s : State) (grp : Group), s.curGroup = some grp →
    let c := s.core s.curCore
    let area := saveArea s.cur.slot
    csrWrite 0x001 v s = .ok (s.updCurWave fun w => { w with fstat := v &&& 0x7F }) ∧
    (v &&& 0xFFC00007 = 0 → csrWrite 0x002 v s = .ok (s.updGroup s.curWave.gid fun g => { g with tvec := v })) ∧
    (v &&& 0xFFC00007 ≠ 0 → csrWrite 0x002 v s = .error (0x05, v.setWidth 64)) ∧
    csrWrite 0x003 v s = .ok (s.setLs s.curCore (area + 16) 4 (v &&& 0x003FFFF8).toNat) ∧
    (∀ k, k < 4 → csrWrite (0x008 + k) v s = .ok (s.updCurWave fun w => { w with scr := w.scr.set k v })) ∧
    csrWrite 0x010 v s = .ok ((s.setDfr s.curCore s.cur.slot 0).updCurWave fun w => { w with failed := [] }) ∧
    (v &&& 0xFFC0007F = 0 → (grp.cregl = 0 ∨ (grp.pb ≤ v.toNat ∧ v.toNat + grp.cregl.toNat ≤ grp.pb + grp.pl)) →
      csrWrite 0x020 v s = .ok (s.updGroup grp.gid fun g => { g with cregb := v, cregl := grp.cregl })) ∧
    (v &&& 0xFFC0007F ≠ 0 → csrWrite 0x020 v s = .error (0x05, v.setWidth 64) ∧ csrWrite 0x021 v s = .error (0x05, v.setWidth 64)) ∧
    (v &&& 0xFFFFC0E0 = 0 → 1 ≤ v.toNat / 256 → v.toNat / 256 ≤ 32 → v.toNat % 32 + v.toNat / 256 ≤ 32 →
      csrWrite 0x022 v s = .ok (s.updGroup s.curWave.gid fun g => { g with ifw := v })) ∧
    (v.toNat / 256 % 64 = 0 → csrWrite 0x022 v s = .error (0x17, v.setWidth 64) ∧ csrWrite 0x023 v s = .error (0x17, v.setWidth 64)) ∧
    csrWrite 0x024 v s = .ok (s.updGroup s.curWave.gid fun g => { g with coalt := v }) ∧
    csrWrite 0x041 v s = .ok (s.updCore s.curCore fun c => { c with leasemax := BitVec.ofNat 32 (max 16 (min v.toNat 512)) }) ∧
    csrWrite 0x042 v s = .ok (s.updCore s.curCore fun c => { c with fpint := BitVec.ofNat 32 (max 64 (min v.toNat 65536)) }) ∧
    (v.toNat < 2 ^ 22 → 1 ≤ v.toNat / 4096 → v.toNat / 4096 ≤ 0x2EF →
      csrWrite 0x040 v s = .ok (s.updCore s.curCore fun c => { c with xbnd := BitVec.ofNat 32 (v.toNat / 4096 * 4096) })) ∧
    (v &&& 0xFC ≠ 0 → csrWrite 0x060 v s = .error (0x05, v.setWidth 64)) ∧
    csrWrite 0x061 v s = .ok (s.updCore s.curCore fun c => { c with sampper := v, sampledAt := s.clk }) ∧
    csrRead s 0x001 = s.curWave.fstat ∧ csrRead s 0x002 = grp.tvec ∧ csrRead s 0x024 = grp.coalt ∧ csrRead s 0x040 = c.xbnd ∧
    csrRead s 0x003 = BitVec.ofNat 32 (s.ls s.curCore (area + 16) 4) ∧
    csrRead s 0x007 = BitVec.ofNat 32 (s.ls s.curCore (area + 20) 4)) ∧
  (∀ (c w p v l n : Nat) (s : State),
    let t : State := { s with cur := .wave c w p }
    let done (r : CsrWrite) : State := { (match r with
      | .ok u => u
      | .error (cause, x) => raiseCause cause x t) with cur := .none }
    let V : Word := BitVec.ofNat 32 v
    (s.arg = .nums [c, w] → Happens .dfr0Clear s (done (.ok (clearDfr { s with cur := .wave c w 0 })))) ∧
    (s.arg = .nums [c, w, p, v] → Happens .tvecWrite s (done (csrWrite 0x002 V t))) ∧
    (s.arg = .nums [c, w, p, l, v] → Happens .cregWrite s (done (csrWrite (if l = 1 then 0x021 else 0x020) V t))) ∧
    (s.arg = .nums [c, w, p, l, v] → Happens .ifwIfhWrite s (done (csrWrite (if l = 1 then 0x023 else 0x022) V t))) ∧
    (s.arg = .nums [c, w, p, v] → Happens .xbndWrite s (done (csrWrite 0x040 V t))) ∧
    (s.arg = .nums [c, w, p, v] → Happens .leasemaxWrite s (done (csrWrite 0x041 V t))) ∧
    (s.arg = .nums [c, w, p, v] → Happens .fpintWrite s (done (csrWrite 0x042 V t))) ∧
    (s.arg = .nums [c, w, p, v] → Happens .sampctlWrite s (done (csrWrite 0x060 V t))) ∧
    (s.arg = .nums [c, w, p, n, v] → Happens .csrPlainWrite s (done (writePlain n V t))))

/-- R124, R125: the landing instructions on a landing that passes the checks: its fields after `lnd.init`, what arrivals and expected
bytes do to it, the status word D receives, when `lnd.wait` returns, and what `lnd.inv` restores. An arrival waits until the wave's
earlier writes are complete at the landing's SCOPE (R123, R266). R122: an arrival or bytes that meet what is pending take it down;
when nothing is pending and there is no fault the phase flips and the counts are restored; more than is pending is a fault, and so
is any update of a landing initialised with no arrivals and no bytes (R125). A landing reads back as it is written, and no other
byte changes. R135: `twait` returns when the landing's phase differs or it has a fault; before its promise it waits; at the promise
it traps with the promise as FADDR, and the step at which the promise expires issues it again. Which writes an arrival waits for is
the model's reading (log 77); what `twait` does at a core out of reach is its choice (log 92). -/
def Obligations.Landings : Prop :=
  (∀ (g : Guard) (scope : BitVec 3) (d a b c : RegNo) (s : State),
    let l : Nat := firstLane s g
    let off : Nat := (src s a.toNat l).toNat
    let k : Nat := lsKey s.curCore off
    let B : Word := src s b.toNat l
    let C : Word := src s c.toNat l
    let t : Landing := s.landing k
    let S : Nat := t.flt.toNat * 2 ^ 31 + t.eng * 2 ^ 16 + t.fidx * 2 ^ 8 + t.ph.toNat
    let out (u : State) (v : Nat) : State := putLanes u (active u g) d.toNat fun _ => BitVec.ofNat 32 v
    let put (x : Landing) : State := writeLanding k x s
    let differs : Prop := t.ph ≠ B.getLsbD 0
    off % 16 = 0 → s.xbnd s.curCore ≤ off → off + 16 ≤ 0x2F0000 → touchesConst s s.curCore off 16 = false → s.badLs = [] →
    (Issues (.lndInit g scope a b c) s → Completes (.lndInit g scope a b c) s (put
      ⟨C.toNat, B.toNat % 2 ^ 16, 0, false, scope.toNat, C.toNat, B.toNat % 2 ^ 16, 0, false⟩)) ∧
    (Issues (.lndArr g d a b) s → opsDone s (earlierWrites s) t.scope = true →
      Completes (.lndArr g d a b) s (out (put (t.update B.toNat 0)) S)) ∧
    (Issues (.lndArr g d a b) s → opsDone s (earlierWrites s) t.scope = false →
      Waits (.lndArr g d a b) s 11 (setAwait (.settling (earlierWrites s)) s)) ∧
    (Issues (.lndExp g d a b) s → Completes (.lndExp g d a b) s (out (put (t.expect B.toNat)) S)) ∧
    (Issues (.lndTest g d a b) s → differs → Completes (.lndTest g d a b) s (out s (S + 2))) ∧
    (Issues (.lndTest g d a b) s → ¬differs → Completes (.lndTest g d a b) s (out s S)) ∧
    (Issues (.lndWait g d a b) s → (differs ∨ t.flt = true) → Completes (.lndWait g d a b) s (out s S)) ∧
    (Issues (.lndWait g d a b) s → ¬differs → t.flt = false → Waits (.lndWait g d a b) s 11 s) ∧
    (Issues (.lndInv g d a) s → landingBusy s k = false → Completes (.lndInv g d a) s
      (out (put { t with parr := t.iarr, pbytes := t.ibytes, flt := false, fidx := 0, eng := 0 }) S)) ∧
    (Issues (.lndInv g d a) s → landingBusy s k = true → Waits (.lndInv g d a) s 11 s)) ∧
  (∀ (t : Landing) (n m k : Nat) (s : State),
    (t.idle = false → n ≤ t.parr → m ≤ t.pbytes → (n < t.parr ∨ m < t.pbytes ∨ t.flt = true) →
      t.update n m = { t with parr := t.parr - n, pbytes := t.pbytes - m }) ∧
    (t.idle = false → n = t.parr → m = t.pbytes → t.flt = false →
      t.update n m = { t with ph := !t.ph, parr := t.iarr, pbytes := t.ibytes }) ∧
    ((t.parr < n ∨ t.pbytes < m ∨ (t.iarr = 0 ∧ t.ibytes = 0)) → t.flt = false →
      t.update n m = { t with parr := t.parr - n, pbytes := t.pbytes - m, flt := true, fidx := 0xFF }) ∧
    (t.idle = false → t.pbytes + n < 2 ^ 32 → t.expect n = { t with pbytes := t.pbytes + n }) ∧
    ((2 ^ 32 ≤ t.pbytes + n ∨ (t.iarr = 0 ∧ t.ibytes = 0)) → t.flt = false →
      t.expect n = { t with pbytes := min (t.pbytes + n) (2 ^ 32 - 1), flt := true, fidx := 0xFF }) ∧
    (s.memWf → isLsKey k = true → t.ibytes < 2 ^ 32 → t.iarr < 2 ^ 16 → t.fidx < 2 ^ 8 → t.scope < 8 → t.pbytes < 2 ^ 32 → t.parr < 2 ^ 16 →
      t.eng < 2 ^ 9 → (s.setLanding k t).landing k = t ∧ SameMemoryBut k 16 s (s.setLanding k t))) ∧
  (∀ (g : Guard) (d a b c : RegNo) (k j core slot p : Nat) (s : State),
    let l : Nat := firstLane s g
    let promise : DWord := src64 s a.toNat l
    let C : Word := src s c.toNat l
    let t : Landing := s.landing k
    let sp : Split := (s.wave core slot).splits.getD p {}
    (∀ x f, Issues (.twait g d a b c) s → twaitCause s (src64 s b.toNat l) = some (x, f) → Traps (.twait g d a b c) s x f) ∧
    (∀ x, Issues (.twait g d a b c) s → twaitCause s (src64 s b.toNat l) = none → lsTarget s s.curLid (src64 s b.toNat l) = some (k, j) →
      farCause s k = some x → Traps (.twait g d a b c) s x (src64 s b.toNat l)) ∧
    (Issues (.twait g d a b c) s → s.badLs = [] → twaitCause s (src64 s b.toNat l) = none → lsTarget s s.curLid (src64 s b.toNat l) = some (k, j) →
      farCause s k = none →
      ((t.flt = true ∨ t.ph ≠ C.getLsbD 0) → Completes (.twait g d a b c) s
        (putLanes s (active s g) d.toNat fun _ => BitVec.ofNat 32 t.status)) ∧
      (t.flt = false → t.ph = C.getLsbD 0 → s.clk < promise.toNat → Waits (.twait g d a b c) s 8 s) ∧
      (t.flt = false → t.ph = C.getLsbD 0 → promise.toNat ≤ s.clk → Traps (.twait g d a b c) s 0x0C promise)) ∧
    (∀ x, s.arg = .nums [core, slot, p] → sp.park = .waiting 8 → mayIssue s core slot p = true →
      wordAt sp.buf sp.pc.toNat = some x → Happens .promiseExpiry s { s with cur := .wave core slot p, ir := x }))

/-- R136-R138: the ring instructions on a header that passes the checks; one in a package outside the domain, or at a core out of
service, cannot be reached. A commit waits until the wave's earlier writes are complete at the ring's SCOPE (R266); a wave asleep on
a ring holds a waiter entry of its NI. R136, R137: a commit, at a ring in a local store that no pair mirrors. Of an uncommitted
reserved position it sets that slot's sequence word to the position plus 1 and moves CMTP over everything committed; any other is
counted in FCNT and changes nothing else. Operands outside the listed ranges (log 79) which writes a commit waits for (log 77) and
what a form does at a core out of reach (log 92) are the model's choices. -/
def Obligations.Rings : Prop :=
  (∀ (g : Guard) (scope : BitVec 3) (d a b c : RegNo) (h j : Nat) (s : State),
    let l : Nat := firstLane s g
    let P : DWord := src64 s a.toNat l
    let Q : DWord := src64 s b.toNat l
    let B : Word := src s b.toNat l
    let r : Ring := s.ring h
    let out (u : State) (v : Nat) : State := putLanes u (active u g) d.toNat fun _ => BitVec.ofNat 32 v
    let slot (x : Word) : DWord := BitVec.ofNat 64 (P.toNat / 2 ^ 35 * 2 ^ 35 + r.dbase + x.toNat % r.n * r.size)
    let set (k : Nat) (v : Word) (u : State) : State := setWord32 k v u
    let setAtt (v : Nat) (u : State) : State := writeKey (h + 1) 1 v u
    let fresh (u : State) : State := set (h + 48) (slowest u h) u
    let cur : Word := cursor s h B.toNat
    let ahead : Nat := (r.cmtp - cur).toNat
    let named : Prop := B.toNat < 8 ∧ attached r B.toNat = true
    let ready : Prop := 1 ≤ ahead ∧ ahead < 2 ^ 31
    let allowed : Prop := ptrKind Q = 2 → s.privileged = true
    let settled : Prop := opsDone s (earlierWrites s) r.scope = true
    s.badLs = [] →
    (∀ x y z : Word, x = src s a.toNat l → y = B → z = src s c.toNat l → Issues (.ringInit g scope a b c) s →
      ringInitCause s x y z = none → Completes (.ringInit g scope a b c) s
        ((((logUndo s.curCore x.toNat (64 + 4 * 2 ^ (z.toNat % 16)) s).setLs s.curCore x.toNat (64 + 4 * 2 ^ (z.toNat % 16)) 0).setLs s.curCore x.toNat 4
          (z.toNat + scope.toNat * 2 ^ 16)).setLs s.curCore (x.toNat + 4) 4 y.toNat)) ∧
    (∀ x, ringCause s P = none → lsTarget s s.curLid P = some (h, j) → farCause s h = some x →
      (Issues (.ringRsv g d a) s → Traps (.ringRsv g d a) s x P) ∧ (Issues (.ringCmt g d a b) s → Traps (.ringCmt g d a b) s x P) ∧
      (Issues (.ringAtt g d a) s → Traps (.ringAtt g d a) s x P) ∧ (Issues (.ringWait g d a b) s → Traps (.ringWait g d a b) s x P) ∧
      (Issues (.ringRel g d a b) s → Traps (.ringRel g d a b) s x P) ∧ (Issues (.ringDet g d a b) s → Traps (.ringDet g d a b) s x P)) ∧
    (ringCause s P = none → lsTarget s s.curLid P = some (h, j) → farCause s h = none →
      (Issues (.ringRsv g d a) s → (r.att = 0 ∨ (r.rsvp - r.minc).toNat < r.n) → Completes (.ringRsv g d a) s
        (putAll64 (set (h + 8) (r.rsvp + 1) s) g d (slot r.rsvp))) ∧
      (Issues (.ringRsv g d a) s → r.att ≠ 0 → r.n ≤ (r.rsvp - r.minc).toNat →
        Waits (.ringRsv g d a) s 11 (setAwait (.atRing (keyCore h)) s)) ∧
      (Issues (.ringCmt g d a b) s → allowed → opsDone s (earlierWrites s) r.scope = false →
        Waits (.ringCmt g d a b) s 11 (setAwait (.settling (earlierWrites s)) s)) ∧
      (Issues (.ringCmt g d a b) s → allowed → settled → sameStore s P Q = true → Completes (.ringCmt g d a b) s
        (out (ringCommit h (ptrLow Q) s).1 (ringCommit h (ptrLow Q) s).2)) ∧
      (Issues (.ringCmt g d a b) s → allowed → settled → sameStore s P Q = false → Completes (.ringCmt g d a b) s
        (out (set (h + 52) (word32 s (h + 52) + 1) s) 1)) ∧
      (∀ k, Issues (.ringAtt g d a) s → (List.range 8).find? (fun k => !attached r k) = some k → Completes (.ringAtt g d a) s
        (out (fresh (setAtt (r.att + 2 ^ k) (set (h + 16 + 4 * k) (if r.att ≠ 0 then r.minc else r.rsvp) s))) k)) ∧
      (Issues (.ringAtt g d a) s → (∀ k, k < 8 → attached r k = true) → Completes (.ringAtt g d a) s (out s 0xFFFFFFFF)) ∧
      (Issues (.ringWait g d a b) s → named → ready → Completes (.ringWait g d a b) s (putAll64 s g d (slot cur))) ∧
      (Issues (.ringWait g d a b) s → named → ¬ready →
        Waits (.ringWait g d a b) s 11 (setAwait (.atRing (keyCore h)) s)) ∧
      (Issues (.ringWait g d a b) s → ¬named → Traps (.ringWait g d a b) s 0x05 P) ∧
      (Issues (.ringRel g d a b) s → named → ready → Completes (.ringRel g d a b) s
        (out (fresh (set (h + 16 + 4 * B.toNat) (cur + 1) s)) 0)) ∧
      (Issues (.ringRel g d a b) s → ¬(named ∧ ready) → Completes (.ringRel g d a b) s (out s 1)) ∧
      (Issues (.ringDet g d a b) s → named → Completes (.ringDet g d a b) s (out (fresh (setAtt (r.att - 2 ^ B.toNat) s)) 0)) ∧
      (Issues (.ringDet g d a b) s → ¬named → Completes (.ringDet g d a b) s (out s 1)))) ∧
  (∀ (h off : Nat) (s : State),
    let r : Ring := s.ring h
    let ix : Nat := (off - r.dbase) / r.size
    let t : State := (ringCommit h off s).1
    s.memWf → isLsKey h = true → s.paired = false → mirrorOf s (keyCore h) = none → r.ok = true →
    ((off < r.dbase ∨ r.n ≤ ix ∨ openPosition s h ix = none) →
      (ringCommit h off s).2 = 1 ∧ word32 t (h + 52) = word32 s (h + 52) + 1 ∧ SameMemoryBut (h + 52) 4 s t) ∧
    (∀ p, r.dbase ≤ off → ix < r.n → openPosition s h ix = some p →
      (ringCommit h off s).2 = 0 ∧ p.toNat % r.n = ix ∧ (p - r.cmtp).toNat < (r.rsvp - r.cmtp).toNat ∧
      word32 t (seqKey h ix) = p + 1 ∧
      (∀ q, q < 4 * r.n → (q < 4 * ix ∨ 4 * ix + 4 ≤ q) → Memory.byte t.mem (h + 64 + q) = Memory.byte s.mem (h + 64 + q)) ∧
      (p ≠ r.cmtp → word32 s (seqKey h (r.cmtp.toNat % r.n)) ≠ r.cmtp + 1 → word32 t (h + 12) = r.cmtp) ∧
      ((t.ring h).cmtp = r.rsvp ∨ word32 t (seqKey h ((t.ring h).cmtp.toNat % r.n)) ≠ (t.ring h).cmtp + 1)))

/-- R325, R326: counters. `cnt.init` answers 1 for an armed counter, 3 for a count below 1, 2 without an instance or in a climber, and
otherwise asks for a credit and, granted, arms; `cnt.rd` reads CNT; `cnt.dec` and `cnt.rdec` send one decrement for each counter
named, which the counter's NI applies, and a counter that reaches 0 or less has fired. A climber is answered 2 (log 38). -/
def Obligations.Counters : Prop :=
  ∀ (g : Guard) (d a b : RegNo) (m : Msg) (s : State),
    let x : Word := leadA s g a
    let n : Word := src s b.toNat (firstLane s g)
    let k : Nat := lsKey s.curCore x.toNat
    let lanes : List Nat := active s g
    let A (l : Nat) : Word := src s a.toNat l
    let P (l : Nat) : DWord := src64 s a.toNat l
    let out (u : State) (v : Nat) : State := putLanes u (active u g) d.toNat fun _ => BitVec.ofNat 32 v
    let cnt : Word := word32 s m.tgt - m.arg.setWidth 32
    let t : State := acked m (niSet m.tgt 4 cnt.toNat s)
    s.badLs = [] →
    (Issues (.cntInit g d a b) s → counterTrap s x = none → s.curAwait = .none →
      (counterSt s k = 1 → Completes (.cntInit g d a b) s (out s 1)) ∧
      (counterSt s k ≠ 1 → n.toInt < 1 → Completes (.cntInit g d a b) s (out s 3)) ∧
      (counterSt s k ≠ 1 → 1 ≤ n.toInt → s.cur.isClimber = true → Completes (.cntInit g d a b) s (out s 2))) ∧
    (∀ id gid, Issues (.cntInit g d a b) s → counterTrap s x = none → s.curAwait = .answered id gid 0 →
      Completes (.cntInit g d a b) s (out (armCounter k n.toNat gid s) 0)) ∧
    (Issues (.cntRd g d a) s → (∀ l ∈ lanes, (A l).toNat % 32 = 0 ∧ accessOk s true (A l).toNat 4 = true) →
      Completes (.cntRd g d a) s (putLanes s lanes d.toNat fun l => BitVec.ofNat 32 (s.ls s.curCore (A l).toNat 4))) ∧
    (Issues (.cntDec g a b) s → (∀ l ∈ lanes, counterTrap s (A l) = none) → Completes (.cntDec g a b) s
      ((counterSums lanes (fun l => lsKey s.curCore (A l).toNat) (src s b.toNat)).foldl
        (sendDecrement (fun l => (A l).setWidth 64) (fun l => lsKey s.curCore (A l).toNat) fun _ => 0) s)) ∧
    (Issues (.cntRdec g a b) s → (∀ l ∈ lanes, counterPointer s (P l) = none) → Completes (.cntRdec g a b) s
      ((counterSums lanes (fun l => ((lsTarget s s.curLid (P l)).getD (0, 0)).1) (src s b.toNat)).foldl
        (sendDecrement P (fun l => ((lsTarget s s.curLid (P l)).getD (0, 0)).1)
          fun l => ((lsTarget s s.curLid (P l)).getD (0, 0)).2) s)) ∧
    (s.arg = .msg m → farOff s m = true → Happens .counterDecrement s (s.postAll [lostNotice s m])) ∧
    (s.arg = .msg m → farOff s m = false → keyRefuses s m.tgt 32 = none → imageFault s m = none → touchedBy s m = [] →
      ((counterSt t m.tgt ≠ 1 ∨ 0 < cnt.toInt) → Happens .counterDecrement s t) ∧
      (counterSt t m.tgt = 1 → cnt.toInt ≤ 0 → Happens .counterDecrement s (fireCounter m.tgt (ptrLow m.va)
        (niSet (m.tgt + 8) 1 (t.peek (m.tgt + 8) 1 / 4 * 4 + 2) t))))

/-- R269, R270, R81: `atm` and `red` with pointers that pass: one message for each active lane, to the place its pointer names, with the
operands and, for `atm`, the registers that wait for it; an `atm` with the scoreboard full waits; a bad pointer traps with the
pointer of the lowest such lane. What a lane sends is said field by field: a device pointer goes as it is, for its hall unit to
translate, and a pointer into a local store of the frame to that store, or to the image of the saved group it was. When a device
pointer is translated is the model's reading (log 24). -/
def Obligations.Atomics : Prop :=
  ∀ (g : Guard) (sz : Sz) (aop : Aop) (scope : BitVec 3) (off : BitVec 10) (ord : Bool) (d a b : RegNo) (s : State),
    let lanes : List Nat := active s g
    let P (l : Nat) : DWord := src64 s a.toNat l + BitVec.ofInt 64 off.toInt
    let X (l : Nat) : Nat := groupValue s b.toNat sz.regs l
    let Y (l : Nat) : Nat := if aop = .cas then groupValue s (b.toNat + sz.regs) sz.regs l else 0
    let ok (l : Nat) : Prop := accessCause s sz.bytes (P l) = none
    let sent (r o : Bool) (maj grp : Nat) (Z : Nat → Nat) (dst : Nat → List Nat) (op : Instr) (t slot point l : Nat) : Prop :=
      ∃ m : Msg, (sendAtomic r maj sz aop scope.toNat o grp P X Z dst s l).agenda = s.agenda ++ [⟨op, .msg m⟩] ∧
        m.tgt = t ∧ m.key = slot ∧ m.point = point ∧ m.va = P l ∧ m.ctx = s.curCtx ∧ m.aop = aop ∧ m.sz = sz ∧
        m.scope = scope.toNat ∧ m.arg = BitVec.ofNat 128 (X l) ∧ m.arg2 = BitVec.ofNat 128 (Z l) ∧ m.ordered = o ∧ m.dst = dst l ∧
        m.imm = (if r then 1 else 0) ∧ m.id = s.nextId ∧ m.group = grp ∧ m.src = issuerOf s maj l ∧ m.kind = 0 ∧ m.bytes = []
    (Issues (.atm g sz aop scope off d a b) s → (∀ l ∈ lanes, ok l) → scoreboardFull s = false →
      Completes (.atm g sz aop scope off d a b) s
        (lanes.foldl (sendAtomic true 0x45 sz aop scope.toNat false s.nextId P X Y (resultRegs s d sz))
          (addAtm s.nextId (lanes.map (resultRegs s d sz)).flatten s))) ∧
    (Issues (.atm g sz aop scope off d a b) s → (∀ l ∈ lanes, ok l) → scoreboardFull s = true →
      Waits (.atm g sz aop scope off d a b) s 7 s) ∧
    (Issues (.red g sz aop scope off ord a b) s → (∀ l ∈ lanes, ok l) → Completes (.red g sz aop scope off ord a b) s
      (lanes.foldl (sendAtomic false 0x46 sz aop scope.toNat ord s.nextId P X (fun _ => 0) fun _ => []) s)) ∧
    (∀ l c, Issues (.red g sz aop scope off ord a b) s → l ∈ lanes → accessCause s sz.bytes (P l) = some c →
      (∀ k ∈ lanes, k < l → ok k) → Traps (.red g sz aop scope off ord a b) s c (P l)) ∧
    (∀ (r o : Bool) maj grp Z dst l, s.paired = false → ptrKind (P l) = 0 →
      sent r o maj grp Z dst (if r then .atomicRequest else .reductionDevice) farKey 0 0 l) ∧
    (∀ (r o : Bool) maj grp Z dst l k j, s.paired = false → ptrKind (P l) ≠ 0 → lsTarget s s.curLid (P l) = some (k, j) →
      sent r o maj grp Z dst (if isLsKey k then .lsReductionAtomic else if r then .atomicRequest else .reductionDevice)
        k j (pointOf s k 0) l)

/-- R156, R104: `pst` and `pub` with pointers that pass send, for each 128-byte line the lanes name, one message with the bytes stored
in it, a higher lane's byte standing where two coincide; that message is said field by field. A `pub` waits while a walk for one of
its lanes must wait at a home (R78). R271, R81: `fence` completes when every operation of its classes issued before it is complete
at its scope and no recorded failure of those classes stands; it waits while one is not, remembering where it first issued; a
recorded failure traps. That a pub is translated as it issues is the model's reading (log 24). -/
def Obligations.PostedStores : Prop :=
  (∀ (g : Guard) (sz : Sz) (off : BitVec 16) (a b : RegNo) (ts : List (Nat × Trans)) (t : State) (s : State),
    let lanes : List Nat := active s g
    let P (l : Nat) : DWord := src64 s a.toNat l + BitVec.ofInt 64 (off &&& 0xFFFE).toInt
    let Q (l : Nat) : DWord := src64 s a.toNat l + BitVec.ofInt 64 off.toInt
    let n : Nat := sz.bytes
    let q (l : Nat) : Nat := targetLine s (P l)
    let V (l : Nat) : Nat := groupValue s b.toNat sz.regs l
    let lineOfVa (l : Nat) : Nat := (Q l).toNat / 128
    let base (x : DWord) : DWord := BitVec.ofNat 64 (x.toNat / 128 * 128)
    let stores (r : Nat → Nat) (line : Nat) (place : Nat → Nat) : List Host.Cell :=
      lastWins (((lanes.filter fun l => r l == line).map fun l => cellsOf (place l) n (V l)).flatten)
    (Issues (.pst g sz off a b) s → (∀ l ∈ lanes, accessCause s n (P l) = none) → Completes (.pst g sz off a b) s
      (((lanes.map q).eraseDups).foldl (sendLine .postedStore 0x47 1 (off.getLsbD 0) sz s.nextId q P
        (groupValue s b.toNat sz.regs) lanes) s)) ∧
    (Issues (.pub g sz off a b) s → (∀ l ∈ lanes, (Q l).toNat < 2 ^ 57 ∧ (Q l).toNat % n = 0) →
      (∃ l ∈ lanes, walkHere s (Q l) = false) → Waits (.pub g sz off a b) s 4 s) ∧
    (Issues (.pub g sz off a b) s → (∀ l ∈ lanes, (Q l).toNat < 2 ^ 57 ∧ (Q l).toNat % n = 0) →
      (∀ l ∈ lanes, walkHere s (Q l) = true) → translateLanes s.curCtx Q lanes s = (t, .ok ts) → (∀ q ∈ ts, unownedByte t q.2 n = false) → Completes (.pub g sz off a b) s
      ((sortNats ((lanes.map fun l => (Q l).toNat / 128).eraseDups)).foldl (sendLine .publishWrite 0x4A 3 true sz t.nextId
        (fun l => (Q l).toNat / 128) Q (groupValue t b.toNat sz.regs) lanes) t)) ∧
    (∀ l, Issues (.pub g sz off a b) s → l ∈ lanes → (∀ k ∈ lanes, k < l → (Q k).toNat < 2 ^ 57 ∧ (Q k).toNat % n = 0) →
      (ptrKind (Q l) = 2 → s.privileged = false → Traps (.pub g sz off a b) s 0x18 (Q l)) ∧
      ((ptrKind (Q l) ≠ 2 ∨ s.privileged = true) → 2 ^ 57 ≤ (Q l).toNat → Traps (.pub g sz off a b) s 0x17 (Q l)) ∧
      ((Q l).toNat < 2 ^ 57 → (Q l).toNat % n ≠ 0 → Traps (.pub g sz off a b) s 0x06 (Q l))) ∧
    (∀ line l grp k j, s.paired = false → lanes.find? (fun l => q l == line) = some l →
      (ptrKind (P l) ≠ 0 → lsTarget s s.curLid (base (P l)) = some (k, j) ∧ k ≠ farKey) →
      ∃ m : Msg, (sendLine .postedStore 0x47 1 (off.getLsbD 0) sz grp q P V lanes s line).agenda =
          s.agenda ++ [⟨.postedStore, .msg m⟩] ∧
        m.src = issuerOf s 0x47 l ∧ m.va = P l ∧ m.ctx = s.curCtx ∧ m.ordered = off.getLsbD 0 ∧ m.sz = sz ∧ m.id = s.nextId ∧
        m.group = grp ∧
        (ptrKind (P l) = 0 → m.tgt = farKey ∧ m.key = 0 ∧ m.bytes = stores q line fun l => farKey + (P l).toNat) ∧
        (ptrKind (P l) ≠ 0 → m.tgt = k ∧ m.key = j ∧ m.bytes =
          lastWins ((((lanes.filter fun l => q l == line).map fun l => cellsOf ((P l).toNat % 128) n (V l)).flatten).map
            fun c => (k + c.1, c.2)))) ∧
    (∀ line l grp u x, u.paired = false → lanes.find? (fun l => lineOfVa l == line) = some l → (Q l).toNat < 2 ^ 57 → x.key ≠ farKey →
      aim (newOp s (issuerOf s 0x4A l) 3 (base (Q l)) 128).2 (base (Q l)) needWrite = (u, .ok x) →
      ∃ m : Msg, sendLine .publishWrite 0x4A 3 true sz grp lineOfVa Q V lanes s line = u.post .publishWrite (.msg m) ∧
        m.src = issuerOf s 0x4A l ∧ m.va = Q l ∧ m.tgt = x.key ∧ m.key = x.slot ∧ m.point = x.point ∧ m.ordered = !x.die ∧
        m.sz = sz ∧ m.id = s.nextId ∧ m.group = grp ∧ m.bytes =
          lastWins ((((lanes.filter fun l => lineOfVa l == line).map fun l => cellsOf ((Q l).toNat % 128) n (V l)).flatten).map
            fun c => (x.key + c.1, c.2))) ∧
    (∀ (cs : List Host.Cell) k v, (k, v) ∈ lastWins cs → ∃ before after, cs = before ++ (k, v) :: after ∧ ∀ c ∈ after, c.1 ≠ k) ∧
    (∀ (cs : List Host.Cell) k, (∃ v, (k, v) ∈ cs) → ∃ v, (k, v) ∈ lastWins cs)) ∧
  (∀ (g : Guard) (mask : BitVec 4) (scope : BitVec 3) (s : State),
    let i : Instr := .fence g mask scope
    let n : Nat := match s.curAwait with
      | .sent k => k
      | _ => s.nextId
    let rec_ : Nat := s.dfr s.curCore s.cur.slot
    let cls : Nat := if 0x53 ≤ dfrMaj rec_ ∧ dfrMaj rec_ ≤ 0x56 then 2 else 1
    (Issues i s → s.cur.isClimber = false →
      (mask.getLsbD 0 = true → ∀ e ∈ s.curWave.atms, n ≤ e.id) →
      (∀ o ∈ s.curWave.ops, o.id < n → mask.getLsbD o.cls = true → o.applied = true ∧ scope.toNat ≤ 5) →
      (rec_ % 2 = 0 ∨ mask.getLsbD cls = false) → Completes i s s) ∧
    (Issues i s → s.cur.isClimber = true →
      (mask.getLsbD 0 = true → ∀ e ∈ s.curClimber.atms, n ≤ e.id) →
      (∀ o ∈ s.curClimber.ops, o.id < n → mask.getLsbD o.cls = true → o.cls = 1 → o.applied = true ∧ scope.toNat ≤ 5) →
      Completes i s s) ∧
    (∀ o ∈ s.curWave.ops, Issues i s → s.cur.isClimber = false → o.id < n → mask.getLsbD o.cls = true → o.applied = false →
      Waits i s 14 (setAwait (.sent n) (if n = s.nextId then s.freshId else s))) ∧
    (Issues i s → s.cur.isClimber = false → fenceMet s mask scope.toNat n = true → rec_ % 2 = 1 → mask.getLsbD cls = true →
      Traps i s (dfrCause rec_) (dfrAddr rec_)))

/-- R272, R267: `bind`. A region is entered once, at the first free entry, and D receives its number, or all ones when the 16 are taken;
LEN = 0 removes every entry of the object and D receives how many. Nothing but the group's table changes. R267, R273: `rel` and
`acq`. Before anything is sent `rel` waits until every write that its issue found bound to its object is complete at its scope; each
then sends one request and waits; answered, D's active lanes receive the word, and a failure traps with the object as FADDR. -/
def Obligations.Bindings : Prop :=
  (∀ (g : Guard) (d a b c : RegNo) (s : State) (grp : Group),
    let i : Instr := .bind g d a b c
    let l : Nat := firstLane s g
    let obj : DWord := src64 s a.toNat l
    let reg : DWord := src64 s b.toNat l
    let len : Word := src s c.toNat l
    let table : List Binding := bindings s
    let out (t : List Binding) (v : Nat) : State := putLanes (s.updGroup s.curWave.gid fun g => { g with binds := t })
      (active s g) d.toNat fun _ => BitVec.ofNat 32 v
    let entry : Binding := ⟨true, obj, reg, len⟩
    let mine (e : Binding) : Bool := e.valid && e.obj == obj
    s.curGroup = some grp → bindTrap s obj reg len = none → Issues i s →
    (len = 0 → Completes i s (out (table.map fun e => if mine e then {} else e) (table.countP mine))) ∧
    (∀ k, len ≠ 0 → k < 16 → table[k]? = some entry → (∀ j, j < k → table[j]? ≠ some entry) → Completes i s (out table k)) ∧
    (∀ k, len ≠ 0 → entry ∉ table → k < 16 → (table.getD k {}).valid = false → (∀ j, j < k → (table.getD j {}).valid = true) →
      Completes i s (out (table.set k entry) k)) ∧
    (len ≠ 0 → entry ∉ table → (∀ e ∈ table, e.valid = true) → Completes i s (out table 0xFFFFFFFF))) ∧
  (∀ (g : Guard) (scope : BitVec 3) (d a b : RegNo) (id v c k j : Nat) (s : State),
    let R : Instr := .rel g scope d a
    let Q : Instr := .acq g scope d a b
    let obj : DWord := src64 s a.toNat (firstLane s g)
    let out : State := putLanes s (active s g) d.toNat fun _ => BitVec.ofNat 32 v
    let unsent : Prop := s.curAwait = .none ∨ ∃ xs, s.curAwait = .settling xs
    let ids : List Nat := releaseIds s (· == obj)
    (s.curAwait = .none → ids = ((s.curWave.ops.filter (boundTo s (· == obj))).map (·.id))) ∧
    (∀ xs, s.curAwait = .settling xs → ids = xs) ∧
    (s.curAwait = .answered id v 0 → (Issues R s → Completes R s out) ∧ (Issues Q s → Completes Q s out)) ∧
    (s.curAwait = .answered id v c → c ≠ 0 → (Issues R s → Traps R s c obj) ∧ (Issues Q s → Traps Q s c obj)) ∧
    (s.curAwait = .sent id → (Issues R s → Waits R s 14 s) ∧ (Issues Q s → Waits Q s 14 s)) ∧
    (unsent → accessCause s 4 obj = none → (∃ o ∈ s.curWave.ops, o.id ∈ ids ∧ completeAt scope.toNat o = false) → Issues R s →
      Waits R s 14 (setAwait (.settling ids) s)) ∧
    (unsent → accessCause s 4 obj = none → ptrKind obj ≠ 0 → lsTarget s s.curLid obj = some (k, j) → s.paired = false →
      isLsKey k = true →
      (Issues R s → opsDone s ids scope.toNat = true → s.dfValid s.curCore s.cur.slot = false →
        ∃ m : Msg, m.tgt = k ∧ m.arg = 1 ∧ m.aop = .add ∧ m.kind = 1 ∧ m.id = s.nextId ∧
          Waits R s 14 (setAwait (.sent s.nextId) (s.freshId.post .lsReductionAtomic (.msg m)))) ∧
      (Issues Q s → ∃ m : Msg, m.tgt = k ∧ m.imm = src s b.toNat (firstLane s g) ∧ m.kind = 1 ∧ m.id = s.nextId ∧
        Waits Q s 14 (setAwait (.sent s.nextId) (s.freshId.post .watch (.msg m))))))

/-- R105-R107, R110, R113, R347: `lease` and `lrel`. A pointer that is no device VA traps BAD_POINTER, a kind-10 one of unprivileged
code PRIV, and a third lease LEASE_ORDER; on a core that is to halt no block opens; an outermost lease takes a window pair, opens
the block and sends its request, and one that traps closes it again; answered, `lease` gives D the address in the window; `lrel`
without a lease traps; of a lease that has aborted it gives D 0 and the lease up; otherwise it commits, and D receives what the home
answers. R106, R108-R111, R113: lease messages. A grant fills the window with the line; an answer reaches the split that waits,
which on a core that its partner passed it on to waits for number 0; at a home a request for a line that no lease holds is granted
with its deadline, a commit of the lease that stands writes its bytes and answers 1, any other answers 0, and an abort ends the
lease, as the deadline does once no commit sent in time is on its way. A commit that a paired core sends past its abort point comes
with the deadline and arrives after it. One message carries a whole line (log 1). -/
def Obligations.Leases : Prop :=
  (∀ (g : Guard) (off : BitVec 16) (d a : RegNo) (id v c : Nat) (s : State),
    let L : Instr := .lease g off d a
    let R : Instr := .lrel g d
    let va : DWord := src64 s a.toNat (firstLane s g) + BitVec.ofInt 64 off.toInt
    let held : List Lease := s.curWave.leases
    let out (t : State) (x : Nat) : State := putLanes t (active s g) d.toNat fun _ => BitVec.ofNat 32 x
    let gives (c : Nat) : Prop := exec L s = .next (raiseCause c va (closeBlock s))
    (held ≠ [] → closeBlock s = s) ∧
    (Issues L s → s.curAwait = .answered id v 0 → Completes L s (out s (v + va.toNat % 128))) ∧
    (Issues L s → s.curAwait = .sent id → Waits L s 16 s) ∧
    (Issues L s → s.curAwait = .none → ptrKind va = 2 → s.privileged = false → gives 0x18) ∧
    (Issues L s → s.curAwait = .none → ptrKind va ≠ 0 → (ptrKind va ≠ 2 ∨ s.privileged = true) → gives 0x17) ∧
    (Issues L s → s.curAwait = .none → ptrKind va = 0 → 2 ^ 57 ≤ va.toNat → gives 0x17) ∧
    (Issues L s → s.curAwait = .none → va.toNat < 2 ^ 57 → (s.core s.curCore).halted = true → s.curWave.block = none → Waits L s 16 s) ∧
    (Issues L s → s.curAwait = .none → va.toNat < 2 ^ 57 → ((s.core s.curCore).halted = false ∨ s.curWave.block ≠ none) →
      held.length = 2 → Traps L s 0x0E va) ∧
    (Issues L s → s.curAwait = .answered id v c → c ≠ 0 → gives c) ∧
    (∀ t tr k, Issues L s → s.curAwait = .none → va.toNat < 2 ^ 57 → held = [] → (s.core s.curCore).halted = false →
      walkHere s va = true → s.paired = false →
      translate s (hallOf s.curCore) s.curCtx va.toNat needBoth = (t, .ok tr) → (dpaSpace tr.dpa = 0 → dpaPkg tr.dpa = t.pkg) →
      freePair (t.core s.curCore) s.cur.slot = some k → ∃ m : Msg, m.tgt = tr.dpa / 128 * 128 ∧ m.id = t.nextId ∧ m.kind = 1 ∧
        Waits L s 16 (setAwait (.sent t.nextId)
          ((openBlock (takePair s.curCore s.cur.slot k t)).freshId.post .leaseRequest (.msg m)))) ∧
    (Issues R s → held = [] → Traps R s 0x0E 0) ∧
    (∀ x xs, held = x :: xs →
      (Issues R s → s.curAwait = .answered id v 0 → Completes R s (out (popLease s) v)) ∧
      (Issues R s → s.curAwait = .answered id v c → c ≠ 0 → Completes R s (out (popLease s) 0)) ∧
      (Issues R s → s.curAwait = .none → x.live = false → Completes R s (closeInterval (out (popLease s) 0))) ∧
      (Issues R s → s.curAwait = .none → x.live = true → s.paired = false → ∃ m : Msg, m.tgt = x.line * 128 ∧ m.id = x.id ∧
        m.bytes = dirtyCells s s.curCore x ∧ Waits R s 16 ((setAwait (.sent x.id) s).post .leaseCommit (.msg m)))) ∧
    (∀ x, s.Inv → held = [x] → (popLease s).curWave.leases = [] ∧ (popLease s).curWave.block = none)) ∧
  (∀ (m : Msg) (l c w p : Nat) (s : State),
    let line : Nat := m.tgt / 128
    let free (t : State) : State := t.updLine line fun x => { x with lease := none }
    let said (v : Nat) : Task := ⟨.leaseAnswer, .msg { m with arg := BitVec.ofNat 128 v, reason := 0, bytes := [] }⟩
    let x : Line := s.line line
    let stands : Prop := ∃ h, x.lease = some h ∧ h.id = m.id
    let n : Nat := if overLink m then 0 else m.id
    let arrives : Prop := m.due = 0 ∨ s.reached m.due = true
    s.Inv →
    (s.arg = .msg m →
      (partnerOf s m.src = none → Happens .leaseAnswer s (answer s m.src n m.arg.toNat m.reason)) ∧
      (partnerOf s m.src = none → (s.core m.src.core).sealed = false → Happens .leaseGrant s (grantTo m n m.src s)) ∧
      (pageGate .leaseRequest m s = none → x.lease = none → x.queue = [] → (x.state = .clean ∨ x.state = .dirty) → x.tag = m.key →
        readFault s m.tgt m.key = none → ∃ t, Happens .leaseRequest s t ∧
          (t.line line).lease =
            some ⟨m.id, m.src, s.clkAfter (m.arg.toNat * 2000 / s.mhz (islandOf (pointCore s m.point))), m.point⟩ ∧
          t.mem = s.mem ∧ ∃ q : Msg, t.agenda = s.agenda ++ [⟨.leaseGrant, .msg q⟩] ∧ q.id = m.id ∧ q.bytes.length = 128) ∧
      (∀ h, pageGate .leaseRequest m s = none → x.lease = some h →
        (x.state ≠ .invalid ∨ (x.queue = [] ∧ cachable s line m.point = false)) → ∃ t, Happens .leaseRequest s t ∧
        (t.line line).queue = x.queue ++ [⟨.leaseRequest, .msg m⟩] ∧ t.agenda = s.agenda) ∧
      (¬arrives → Happens .leaseCommit s (s.post .leaseCommit (.msg m))) ∧
      (arrives → ¬stands → x.queue = [] → Happens .leaseCommit s (s.postAll [said 0])) ∧
      (arrives → stands → (m.due ≠ 0 ∨ readFault s m.tgt m.key ≠ none) → x.queue = [] →
        Happens .leaseCommit s ((free s).postAll [said 0])) ∧
      (∀ h t, x.lease = some h → h.id = m.id → m.due = 0 → readFault s m.tgt m.key = none →
        homeWrite (free s) line m.key h.point m.bytes m.src m.id = some t → (t.line line).queue = [] →
        Happens .leaseCommit s (t.postAll [said 1])) ∧
      (stands → x.queue = [] → Happens .leaseAbort s (free s)) ∧
      (¬stands → x.queue = [] → Happens .leaseAbort s s)) ∧
    (∀ h, s.arg = .nums [l] → (s.line l).lease = some h → s.reached h.deadline = true →
      (commitComing s h = false → (s.line l).queue = [] →
        Happens .leaseDeadline s (s.updLine l fun x => { x with lease := none })) ∧
      (commitComing s h = true → Happens .leaseDeadline s s)) ∧
    (∀ b q, s.arg = .nums [c, w] → (s.wave c w).block = some b → b.split = p → ((s.wave c w).tm = false ∨ b.handler = true) →
      ((s.wave c w).splits.getD p {}).await = .none → mayIssue s c w p = true →
      (∃ e ∈ (s.wave c w).leases, e.live = true ∧ s.reached e.abort = true) →
      wordAt ((s.wave c w).splits.getD p {}).buf ((s.wave c w).splits.getD p {}).pc.toNat = some q →
      Happens .leaseAbortPoint s { s with cur := .wave c w p, ir := q }))

/-- R97-R103, R355: `subs` and `unsub`; the request that a well-formed record makes, field by field; what the home leaves of it: the
sharer and its grains in the directory, the subscription in the NI, the copy filled, SEQ and STAT; and an update's three writes,
which an update that the snapshot holds already does not make (R100, R102). What a message changes in a paired core's store changes
in its partner's. The update as three steps in a row is the model's choice (log 15), and so is the answer of status 5 to a misplaced
record (log 38). -/
def Obligations.Subscriptions : Prop :=
  ∀ (g : Guard) (d a : RegNo) (id v c : Nat) (m : Msg) (s : State),
    let S : Instr := .subs g d a
    let U : Instr := .unsub g d a
    let x : Nat := (src s a.toNat (firstLane s g)).toNat
    let out (t : State) (n : Nat) : State := putLanes t (active t g) d.toNat fun _ => BitVec.ofNat 32 n
    let mine : List Sub := (s.core (keyCore m.tgt)).subs.filter fun u => u.dpa == m.va.toNat
    let r : SubRecord := subRecord s s.curCore x
    let core : Nat := m.src.core
    let rec_ : Nat := m.va.toNat
    let u : State := (rangeLines m).foldl (fun s a => touch (lineOf a) m.key (dieHome m.point a) s) s
    let w : SubRecord := subRecord u core rec_
    let h0 : State := if (u.dirOf m.tgt w.len).isSome then u else newDir m.point m.tgt w.len (Config.freeNat u.nonce % 2 ^ 31) u
    let live (t : State) : Prop := ∃ y ∈ (t.core core).subs, y.record = rec_
    let status (t : State) : Nat := subsStatus t core m.point m.tgt (subRecord t core rec_)
    let next (t : State) (k : Nat) : State := { t with agenda := ⟨.subscriptionUpdate, .msg { m with kind := k }⟩ :: t.agenda }
    (Issues S s → s.curAwait = .answered id v 0 → Completes S s (out s v)) ∧
    (Issues S s → s.curAwait = .sent id → Waits S s 16 s) ∧
    (Issues S s → s.curAwait = .none → subFormed s s.curCore x = false → Completes S s (out s 5)) ∧
    (Issues S s → s.curAwait = .answered id v c → c ≠ 0 → Traps S s c (BitVec.ofNat 64 (subRecord s s.curCore x).va)) ∧
    (Issues U s → s.curAwait = .answered id v c → Completes U s (out s v)) ∧
    (Issues U s → s.curAwait = .none → (∀ u ∈ subsHere s s.curCore, u.record ≠ x) → Completes U s (out s 1)) ∧
    (∀ y, Issues U s → s.curAwait = .none → s.paired = false → (s.core s.curCore).subs.find? (fun y => y.record == x) = some y →
      ∃ q : Msg, q.src = issuerOf s 0x4C 0 ∧ q.tgt = y.dpa ∧ q.va = BitVec.ofNat 64 x ∧ q.sz = .d ∧ q.id = s.nextId ∧ q.kind = 1 ∧
        Waits U s 16 (setAwait (.sent s.nextId) (s.freshId.post .subscriptionControl (.msg q)))) ∧
    (Issues S s → s.curAwait = .none → subFormed s s.curCore x = true → 2 ^ 62 ≤ r.va → Completes S s (out s 3)) ∧
    (Issues S s → s.curAwait = .none → subFormed s s.curCore x = true → r.va < 2 ^ 62 → 2 ^ 57 ≤ r.va →
      Traps S s 0x17 (BitVec.ofNat 64 r.va)) ∧
    (∀ t tr, Issues S s → s.curAwait = .none → subFormed s s.curCore x = true → r.va < 2 ^ 57 →
      walkHere s (BitVec.ofNat 64 r.va) = true → locate s (hallOf s.curCore) s.curCtx r.va = (t, .ok tr) → t.paired = false →
      ((dpaSpace tr.dpa ≠ 0 ∨ pteBit tr.pte 7 = true ∨ pteHs tr.pte ≠ 1 ∨ pteHome tr.pte ≠ coreDie s.curCore ∨ dpaPkg tr.dpa ≠ t.pkg) →
        Completes S s (putLanes t (active s g) d.toNat fun _ => 3)) ∧
      (dpaSpace tr.dpa = 0 → pteBit tr.pte 7 = false → pteHs tr.pte = 1 → pteHome tr.pte = coreDie s.curCore → dpaPkg tr.dpa = t.pkg →
        r.va % 512 = 0 → r.len % 512 = 0 → 512 ≤ r.len → r.len ≤ 0x40000 → r.va + r.len ≤ tr.page + tr.bytes →
        ∃ q : Msg, q.src = issuerOf t 0x4B 0 ∧ q.tgt = tr.dpa ∧ q.key = pteKey tr.pte ∧ q.va = BitVec.ofNat 64 x ∧
          q.arg = BitVec.ofNat 128 r.len ∧ q.sz = .w ∧ q.kind = 1 ∧ q.id = t.nextId ∧ q.point = pointOf t tr.dpa tr.pte ∧
          q.reason = (refused t needRead tr).getD 0 ∧
          Waits S s 16 (setAwait (.sent t.nextId) (t.freshId.post .subscriptionControl (.msg q))))) ∧
    (s.arg = .msg m → m.sz ≠ .d → pageGate .subscriptionControl m s = none →
      (rangeFree s m = false → Happens .subscriptionControl s (s.post .subscriptionControl (.msg m))) ∧
      (rangeFree s m = true → m.reason ≠ 0 → ¬live s → status s = 0 →
        Happens .subscriptionControl s (s.postAll [answerMsg m 0 (reasonCause m.reason)])) ∧
      (rangeFree s m = true → m.reason = 0 → lineFault s m.tgt m.key = none →
        (live u → Happens .subscriptionControl s (u.postAll [answerMsg m 4 0])) ∧
        (¬live u → status u ≠ 0 → Happens .subscriptionControl s (u.postAll [answerMsg m (status u) 0])) ∧
        (¬live u → status u = 0 → (∀ a ∈ rangeLines m, readFault u a m.key = none) → h0.Inv → subFormed u core rec_ = true →
          w.len % 128 = 0 → m.tgt + w.len ≤ 2 ^ 56 → (rec_ + 32 ≤ w.lsb ∨ w.lsb + w.len ≤ rec_) →
          ∃ (t : State) (d : Dir), Happens .subscriptionControl s t ∧ t.agenda = h0.agenda ++ [answerMsg m 0 0] ∧
            d ∈ t.dirs ∧ d.dpa = m.tgt ∧ d.len = w.len ∧ (core, rec_) ∈ d.sharers ∧
            (∀ k, k < w.wcnt → (w.wfirst + k, core, rec_) ∈ d.owners) ∧
            (t.core core).subs = (h0.core core).subs ++ [⟨rec_, m.tgt, w.len, w.lsb, (u.wave core m.src.slot).gid, d.count⟩] ∧
            t.ls core (rec_ + 20) 4 = 2 * d.count % 2 ^ 32 ∧ t.ls core (rec_ + 24) 4 = 1 ∧
            (∀ k, k < w.len / 128 → t.ls core (w.lsb + 128 * k) 128 = h0.devRead (m.tgt + 128 * k) 128 m.key)))) ∧
    (s.arg = .msg m → m.sz = .d → (∀ u ∈ (s.core m.src.core).subs, u.record ≠ m.va.toNat) →
      Happens .subscriptionControl s (s.postAll [answerMsg m 1 0])) ∧
    (∀ u, s.arg = .msg m → m.sz = .d → (s.core m.src.core).subs.find? (fun u => u.record == m.va.toNat) = some u →
      Happens .subscriptionControl s ((endSub m.src.core 0 u s).postAll [answerMsg m 0 0])) ∧
    (s.arg = .msg m → (s.core (keyCore m.tgt)).sealed = false → mine = [] → Happens .subscriptionUpdate s s) ∧
    (∀ u, s.arg = .msg m → (s.core (keyCore m.tgt)).sealed = false → mine = [u] → newerUpdate u m.arg.toNat = false → m.kind = 2 →
      Happens .subscriptionUpdate s s) ∧
    (∀ u, s.arg = .msg m → (s.core (keyCore m.tgt)).sealed = false → mine = [u] → newerUpdate u m.arg.toNat = true → u.record ≠ noRecord →
      (m.kind = 0 → Happens .subscriptionUpdate s (next (echo (lsKey (keyCore m.tgt) (u.record + 20)) 4
        (s.setLs (keyCore m.tgt) (u.record + 20) 4 ((2 * m.arg.toNat + 2 ^ 32 - 1) % 2 ^ 32))) 1)) ∧
      (m.kind = 1 → Happens .subscriptionUpdate s (next (echo (lsKey (keyCore m.tgt) u.lsb) u.len
        { s with
          mem := Memory.writeCells s.mem ((m.bytes.filter fun (q : Host.Cell) => decide (u.dpa ≤ q.1) && decide (q.1 < u.dpa + u.len)).map
            fun (q : Host.Cell) => (lsKey (keyCore m.tgt) (u.lsb + (q.1 - u.dpa)), q.2)) }) 2)) ∧
      (m.kind = 2 → Happens .subscriptionUpdate s ((echo (lsKey (keyCore m.tgt) (u.record + 20)) 4
        (s.setLs (keyCore m.tgt) (u.record + 20) 4 (2 * m.arg.toNat % 2 ^ 32))).updCore
        (keyCore m.tgt) fun c => { c with subs := c.subs.map fun v => if v = u then { v with seq := m.arg.toNat } else v })))

/-- R155, R269, R270, R167, R77, R262: an operation on a word, at an NI or at a home: the word takes the new value the operation gives
on the old one, whole; an atomic's old value and the acknowledgement return, at a line of the pool once it has been written there. A
device pointer is translated first, at its core's hall unit. Below XBND or in a constant region it is refused, at a sealed core
undeliverable; a line that must be fetched is filled first, and a leased one holds the request. When the pointer is translated (log
24) and when an operation on a pool line is complete (log 76) are the model's readings. -/
def Obligations.WordOperations : Prop :=
  ∀ (m : Msg) (s : State),
    let n : Nat := if m.sz = .d then 8 else 4
    let old : Nat := Memory.load s.mem m.tgt n
    let new : Nat := atomicNew m.sz m.aop old m.arg.toNat m.arg2.toNat
    let core : Nat := keyCore m.tgt
    let written : State := { s with mem := Memory.writeCells s.mem (cellsOf m.tgt n new) }
    let done : Task := ackMsg m false
    let result : Task := ⟨.atomicResult, .msg { m with arg := BitVec.ofNat 128 old, kind := 0 }⟩
    let both (t : State) (w : Bool) : Prop := (m.imm = (if w then 1 else 0) → Happens .lsReductionAtomic s t) ∧
      Happens (if w then .atomicRequest else .reductionDevice) s t
    let A : Word := BitVec.ofNat 32 old
    let X : Word := m.arg.setWidth 32
    let l : Nat := m.tgt / 128
    let x : Line := s.line l
    let i (w : Bool) : Instr := if w then .atomicRequest else .reductionDevice
    let home : Prop := m.tgt < 2 ^ 56 ∧ ptrKind m.va ≠ 1
    let u : State := if x.state = .invalid then repairLine l s else s.updLine l fun x => { x with used := s.nonce }
    let old' : Nat := u.devRead m.tgt n m.key
    let new' : Nat := atomicNew m.sz m.aop old' m.arg.toNat m.arg2.toNat
    let out (w : Bool) : List Task :=
      if m.kind = 1 then [answerMsg m new' 0] else (if w then [⟨.atomicResult, .msg { m with arg := BitVec.ofNat 128 old', kind := 0 }⟩] else []) ++ [done]
    let lost : List Task := if m.kind = 1 then [answerMsg m 0 (0x11 + 256 * 6)] else [faultMsg m 0x11 6]
    s.arg = .msg m →
    (∀ w t tr, m.tgt = 2 ^ 66 → translate s (hallOf m.src.core) m.ctx m.va.toNat needBoth = (t, .ok tr) →
      Happens (i w) s (sendOn (i w) { m with tgt := tr.dpa, key := pteKey tr.pte, point := pointOf t tr.dpa tr.pte } t)) ∧
    (∀ w t r, m.tgt = 2 ^ 66 → translate s (hallOf m.src.core) m.ctx m.va.toNat needBoth = (t, .error r) → isAgent m.src = true →
      m.src.slot ≠ niSlot → m.kind = 0 → Happens (i w) s (t.postAll [faultMsg m (if r = 6 then 0x11 else 0x10) r])) ∧
    (∀ w, home → pageGate (i w) m s = none → x.lease = none → x.queue = [] →
      (((x.state = .clean ∨ x.state = .dirty) ∧ x.tag = m.key) ∨ (x.state = .invalid ∧ cachable s l m.point = false)) →
      readFault u m.tgt m.key = none → isAgent m.src = true →
      ∃ t, homeWrite u l m.key m.point (cellsOf m.tgt n new') m.src m.id = some t ∧
        (dpaSpace m.tgt ≠ 2 → Happens (i w) s (t.postAll (out w))) ∧
        (dpaSpace m.tgt = 2 → Happens (i w) s (t.updLine l fun x => { x with owed := x.owed ++ [⟨out w, lost⟩] }))) ∧
    (∀ w, home → pageGate (i w) m s = none → x.lease = none → x.queue = [] → x.state = .invalid → cachable s l m.point = true →
      lineFault s m.tgt m.key = none → setTaken s (storeHall l m.point) l < 16 → s.Inv → ∃ t, Happens (i w) s t ∧
        (t.line l).state = .filling ∧ (t.line l).queue = [⟨i w, .msg m⟩] ∧ t.mem = s.mem ∧ t.agenda = s.agenda) ∧
    (∀ w h, home → pageGate (i w) m s = none → x.lease = some h → x.state ≠ .invalid → s.Inv → ∃ t, Happens (i w) s t ∧
      (t.line l).queue = x.queue ++ [⟨i w, .msg m⟩] ∧ t.mem = s.mem ∧ t.agenda = s.agenda) ∧
    (isLsKey m.tgt = true → touchedBy s m = [] → mirrorOf s core = none → s.badLs = [] → outside s m = false →
    (s.outOfService core = false → keyRefuses s m.tgt n = none → isAgent m.src = true → m.kind = 0 →
      both (written.postAll [result, done]) true ∧ both (written.postAll [done]) false) ∧
    (s.outOfService core = false → m.tgt % 2 ^ 35 < s.xbnd core → isAgent m.src = true → m.kind = 0 → m.src.slot ≠ niSlot →
      both (s.postAll [faultMsg m 0x05 0]) true ∧ both (s.postAll [faultMsg m 0x05 0]) false) ∧
    (s.outOfService core = false → s.xbnd core ≤ m.tgt % 2 ^ 35 → touchesConst s core (m.tgt % 2 ^ 35) n = true → isAgent m.src = true →
      m.kind = 0 → m.src.slot ≠ niSlot → both (s.postAll [faultMsg m 0x07 0]) true ∧ both (s.postAll [faultMsg m 0x07 0]) false) ∧
    (s.outOfService core = true → both (s.postAll [undeliverable m]) true ∧ both (s.postAll [undeliverable m]) false) ∧
    (m.sz = .w →
      (m.aop = .add → new = (A + X).toNat) ∧ (m.aop = .xchg → new = X.toNat) ∧ (m.aop = .and → new = (A &&& X).toNat) ∧
      (m.aop = .minI → (BitVec.ofNat 32 new).toInt = min A.toInt X.toInt) ∧ (m.aop = .maxN → new = max A.toNat X.toNat) ∧
      (m.aop = .cas → new = if A = X then (m.arg2.setWidth 32 : Word).toNat else A.toNat)))

/-- R95, R94, R156, R104, R391: writes of a line. A posted store or publish of a clean or dirty line that no request or lease holds and
whose page is not being moved writes its bytes and is acknowledged; an invalid line that it writes in part is filled first; a leased
one holds the request. At an NI the bytes are written and acknowledged. R94, R70, R92, R99, R100: what a home does when it writes
bytes under the line's own key, at the DPA they were last written by: they are stored and nothing else of memory changes, the line
is dirty where the hall store caches it and not cached where it does not, and the counter of every subscribed range that holds it
advances by 1, its sharers being sent the bytes; a partial write of a poisoned line is refused. That a range has one counter (log
70), what a shared sector keeps (log 72) and the sets of the hall store (log 33) are the model's choices. -/
def Obligations.LineWrites : Prop :=
  (∀ (m : Msg) (s t : State) (pub : Bool),
    let i : Instr := if pub then .publishWrite else .postedStore
    let l : Nat := m.tgt / 128
    let here : Prop := m.tgt < 2 ^ 56 ∧ ptrKind m.va ≠ 1 ∧ pageGate i m s = none
    let x : Line := s.line l
    s.arg = .msg m →
    (here → x.lease = none → x.queue = [] → (x.state = .clean ∨ x.state = .dirty) → x.tag = m.key → lineFault s m.tgt m.key = none →
      homeWrite (s.updLine l fun x => { x with used := s.nonce }) l m.key m.point m.bytes m.src m.id = some t →
      Happens i s (acked m t)) ∧
    (here → x.lease = none → x.queue = [] → x.state = .invalid → cachable s l m.point = true → lineFault s m.tgt m.key = none →
      (m.bytes.map (·.1)).eraseDups.length ≠ 128 → setTaken s (storeHall l m.point) l < 16 → s.Inv → ∃ u, Happens i s u ∧
      (u.line l).state = .filling ∧ (u.line l).queue = x.queue ++ [⟨i, .msg m⟩] ∧ u.mem = s.mem ∧ u.agenda = s.agenda) ∧
    (∀ h, here → x.lease = some h → x.state ≠ .invalid → s.Inv → ∃ u, Happens i s u ∧ (u.line l).queue = x.queue ++ [⟨i, .msg m⟩] ∧ u.mem = s.mem ∧
      u.agenda = s.agenda) ∧
    (isLsKey m.tgt = true → (pub = false → touchedBy s m = []) → mirrorOf s (keyCore m.tgt) = none → s.badLs = [] → outside s m = false →
      s.outOfService (keyCore m.tgt) = false → (∀ c ∈ m.bytes, keyRefuses s c.1 1 = none) → m.bytes.head?.map (·.1) = some m.tgt →
      isAgent m.src = true → Happens i s ({ s with mem := Memory.writeCells s.mem m.bytes }.postAll [ackMsg m false]))) ∧
  (∀ (l slot point : Nat) (cells : List Host.Cell) (i : Issuer) (id : Nat) (s : State),
    let hit (d : Dir) : Bool := decide (d.dpa / 128 ≤ l) && decide (l * 128 < d.dpa + d.len)
    let x : Line := s.line l
    cells ≠ [] →
    (poisonedLine s l = true → (cells.map (·.1)).eraseDups.length < 128 → homeWrite s l slot point cells i id = none) ∧
    (poisonedLine s l = false → x.key = s.keyOf slot → s.writer l = l → s.Inv →
      (cachable s l point = true → x.state ≠ .invalid ∨ setTaken s (storeHall l point) l < 16) →
      ∃ t, homeWrite s l slot point cells i id = some t ∧
        t.mem = Memory.writeCells s.mem (cells.map fun c => (s.place c.1, c.2)) ∧
        (t.line l).state = (if cachable s l point then .dirty else .invalid) ∧
        t.dirs = s.dirs.map (fun d => if hit d then { d with count := (d.count + 1) % 2 ^ 31 } else d) ∧
        (s.dirs.all (fun d => !hit d) = true → t.agenda = s.agenda) ∧
        (∀ k, k ≠ l → t.line k = s.line k) ∧ t.regs = s.regs ∧ t.waves = s.waves ∧
        ∀ a, (∀ c ∈ cells, s.place c.1 ≠ a) → Memory.byte t.mem a = Memory.byte s.mem a))

/-- R94, R67, R273, R166: fills, write-backs, the scrubber, struck bits, watches, and what is undeliverable. R262, R269, R81, R349:
replies. An atomic's result writes the registers that wait for it, in its wave and nowhere else, and none of a sealed core; an
acknowledgement ends its operation, or marks it complete up to device scope; a fault reply records the first failure of the wave.
When an operation on a pool line is complete is the model's reading (log 76). -/
def Obligations.LineEvents : Prop :=
  (∀ (l k w c : Nat) (m : Msg) (s : State),
    let line : Line := s.line l
    (s.arg = .nums [l, 0] → line.state = .filling → line.queue = [] → s.Inv →
      Sparse.get 0 s.badHbm (2 * l) = 0 → Sparse.get 0 s.badHbm (2 * l + 1) = 0 → ∃ u, Happens .homeFillWriteback s u ∧
        (u.line l).state = .clean ∧ u.mem = s.mem ∧ u.corrected = s.corrected) ∧
    (s.arg = .nums [l, 0] → line.state = .filling → line.queue = [] → s.Inv →
      (Sparse.get 0 s.badHbm (2 * l) = 2 ∨ Sparse.get 0 s.badHbm (2 * l + 1) = 2) → ∃ u, Happens .homeFillWriteback s u ∧
        (u.line l).state = .poisoned ∧ u.mem = s.mem) ∧
    (s.arg = .nums [l, 1] → line.state = .dirty → linkUp s l = true → line.unwritten = [] → line.owed = [] → s.Inv → ∃ u, Happens .homeFillWriteback s u ∧
      (u.line l).state = .clean ∧ u.mem = s.mem ∧ u.agenda = s.agenda) ∧
    (s.arg = .nums [k] → Sparse.get 0 s.badHbm k = 1 → Happens .patrolScrub s { s with
      scrub := stackPlace k + 1, badHbm := Sparse.set 0 s.badHbm k 0, corrected := Sparse.upd 0 s.corrected (stackOf (k * 64)) (· + 1) }) ∧
    (s.arg = .nums [k] → Sparse.get 0 s.badHbm k = 0 → Happens .patrolScrub s { s with scrub := stackPlace k + 1 }) ∧
    (∀ ok, s.arg = .error (.localStore k) ok → Happens .softError s { s with
      badLs := Sparse.set 0 s.badLs k (max (if ok then 1 else 2) (Sparse.get 0 s.badLs k)) }) ∧
    (s.arg = .nums [c] → Happens .lsPoisonSeal s (sealCore c s)) ∧
    (s.arg = .msg m → s.reached m.due = true → Happens .watchRetry s (s.post .watch (.msg { m with sseq := none }))) ∧
    (s.arg = .msg m → isLsKey m.tgt = true → outside s m = false → targetSealed s m = false → keyRefuses s m.tgt 4 = none → s.badLs = [] →
      (let g : Word := BitVec.ofNat 32 (Memory.load s.mem m.tgt 4)
      ((g - m.imm).toNat < 2 ^ 31 → Happens .watch s (s.postAll [answerMsg m g.toNat 0])) ∧
      (2 ^ 31 ≤ (g - m.imm).toNat → (s.watches.filter fun x => x.point == m.point).length < 64 →
        Happens .watch s { s with watches := s.watches ++ [⟨m.tgt, m.key, m.point, m.imm, m.src, m.id⟩] }))) ∧
    (∀ x, s.arg = .nums [w] → s.watches.find? (fun x => x.id == w) = some x → watchMet (watchWord s x.key x.slot) x.target = true →
      Happens .watch s (watchFires x s)) ∧
    (s.arg = .msg m → 0x48 ≤ m.src.maj → m.src.maj ≤ 0x49 → Happens .undeliverableNotice s s) ∧
    (s.arg = .msg m → isAgent m.src = true → partnerOf s m.src = none → m.src.climber = false → m.src.maj = 0x45 →
      m.kind = 0 → m.src.slot ≠ niSlot → Happens .undeliverableNotice s (failOp s { m with src := m.src } 0x1A m.reason))) ∧
  (∀ (m : Msg) (s : State),
    let i : Issuer := m.src
    let w : Wave := s.wave i.core i.slot
    let word (k : Nat) : Word := BitVec.ofNat 32 (m.arg.toNat / 2 ^ (32 * (m.dst.findIdx (· == k))))
    s.arg = .msg m → s.Inv → i.climber = false → i.slot < 16 → partnerOf s i = none → s.groupOf i.core i.slot = none →
    let running : Prop := (s.core i.core).sealed = false
    (¬running → Happens .atomicResult s s) ∧
    (running → m.kind = 1 → Happens .atomicResult s (answer s i m.id m.arg.toNat m.reason)) ∧
    (running → m.kind = 0 → awaits m.group m.dst w.atms = true → ∃ t, Happens .atomicResult s t ∧
      (∀ k ∈ m.dst, k < 320 * 32 → t.vreg i.core i.slot (k / 32) (k % 32) = word k) ∧
      (∀ r l, r * 32 + l ∉ m.dst → t.vreg i.core i.slot r l = s.vreg i.core i.slot r l) ∧
      (t.wave i.core i.slot).atms = dropPending m.group m.dst w.atms ∧ t.mem = s.mem) ∧
    (running → m.kind = 0 → awaits m.group m.dst w.atms = false → Happens .atomicResult s s) ∧
    (m.kind = 0 → hasOp m.id w.ops = true → ∃ t, Happens .writeAcknowledgement s t ∧
      (t.wave i.core i.slot).ops = w.ops.filter (fun o => o.id != m.id) ∧ t.mem = s.mem ∧ t.regs = s.regs) ∧
    (m.kind = 1 → hasOp m.id w.ops = true → ∃ t, Happens .writeAcknowledgement s t ∧
      (t.wave i.core i.slot).ops = w.ops.map (fun o => if o.id == m.id then { o with applied := true } else o)) ∧
    (hasOp m.id w.ops = true → s.dfValid i.core i.slot = false → ∃ t, Happens .faultReply s t ∧
      t.dfValid i.core i.slot = true ∧ (m.kind < 256 → dfrCause (t.dfr i.core i.slot) % 256 = m.kind) ∧
      dfrAddr (t.dfr i.core i.slot) = m.va ∧ (t.wave i.core i.slot).ops = w.ops.filter fun o => o.id != m.id))

/-- R119, R124, R130-R134: the copy instructions. Submitted, each waits for its promise, which D:D+1 receives; `cp` of no bytes
completes at once with `clk`, a `.rc` having its slot committed; without a free queue entry each waits; otherwise one command goes
to the engine with its pointers, length, order flag and landing or ring: that of `cp`, or the pairs of `cpg`, the shape of `cpt`,
the descriptor of a collective. The queue instructions give D the counts, how many commands with a landing `cpq.cnl` stops behind
what they have written, and the record, `.free` releasing it. R116, R117, R119, R122, R126, R127: what engines do: accept a command
in order; end one that has stopped or has everything written; read the next line, no larger than what lies in one source line and
one destination line, and ending with a whole word of a local-store destination; send it on to its destination once it is with the
engine; write it, noting how far the copy has come and debiting the landing; and complete when the last is written. What the spec
does not name is the model's choice (logs 75, 78, 80, 86), and so are the order of lines (log 93), copies out of the domain (log 97)
and the place of a cancelled stop (log 99). -/
def Obligations.CopyInstructions : Prop :=
  (∀ (g : Guard) (ordered ring free : Bool) (sz : BitVec 2) (op : TileOp) (d a b c : RegNo) (id v r : Nat) (sh : Bool) (s : State),
    let cp : Instr := .cp g ordered ring d a b c
    let forms : List Instr := [cp, .cpg g sz d a b c, .cpt g op d a b c, .collAllred g d a, .collRedsct g d a, .collAllgat g d a,
      .collBcast g d a]
    let l : Nat := firstLane s g
    let P : DWord := src64 s a.toNat l
    let Q : DWord := src64 s b.toNat l
    let n : Nat := (src s c.toNat l).toNat
    let off : Nat := (src s (c.toNat + 1) l).toNat
    let hall : Nat := hallOf s.curCore
    let x : Nat := (src s a.toNat l).toNat
    let out (t : State) (k : Nat) : State := putLanes t (active t g) d.toNat fun _ => BitVec.ofNat 32 k
    let cpg : Instr := .cpg g sz d a b c
    let cpt : Instr := .cpt g op d a b c
    let lanes : List Nat := active s g
    let size : Nat := 4 * 2 ^ sz.toNat
    let p (l : Nat) : DWord := src64 s a.toNat l
    let q (l : Nat) : DWord := src64 s b.toNat l
    let R : DWord := src64 s c.toNat l
    let shape : BitVec 256 := BitVec.ofNat 256 (s.ls s.curCore x 32)
    let es : Nat := typeBytes (shapeType shape)
    let land : Nat := shapeLand shape
    let desc : Nat := s.ls s.curCore x 64
    let S : DWord := BitVec.ofNat 64 (bitsAt desc 0 64)
    let T : DWord := BitVec.ofNat 64 (bitsAt desc 64 64)
    let sizes (k : Nat) : Nat × Nat :=
      let n := collSizes k (bitsAt desc 160 32) (members s (bitsAt desc 200 8)).size
      (n.1 * typeBytes (bitsAt desc 192 4), n.2 * typeBytes (bitsAt desc 192 4))
    let colls : List (Nat × Instr) := [(0, .collAllred g d a), (1, .collRedsct g d a), (2, .collAllgat g d a), (3, .collBcast g d a)]
    let fits (p : DWord) (n : Nat) : Prop := copyPointerCause s p n = none
    let wave : Prop := s.cur.isClimber = false ∧ s.cur.slot < 16 ∧ s.paired = false
    let asked (e : CopyCmd) (o : Op) (maj : Nat) (sh : Bool) : Prop :=
      e.id = s.nextId ∧ e.hall = hall ∧ e.src = issuerOf s maj 0 ∧ e.ctx = s.curCtx ∧ e.priv = s.privileged ∧ e.lid = s.curLid ∧
        e.issued = 0 ∧ e.shared = sh ∧ e.stop = none ∧ o.id = s.nextId ∧ o.cls = 2 ∧ o.applied = false ∧ o.landing = e.landing
    let cpCmd (e : CopyCmd) : Prop :=
      e.kind = .linear ∧ e.from_ = P ∧ e.to_ = Q ∧ e.bytes = n ∧ e.ordered = ordered ∧
        e.landing = (if ring = true ∨ off = 0 then none else some (landingPointer s Q off)) ∧
        e.ring = (if ring then some (landingPointer s Q off) else none) ∧
        (ordered = true → e.after = (s.curWave.ops.filter fun p => p.cls == 2).map (·.id)) ∧
        (ring = true → e.prior = earlierWrites s)
    let sent (e : CopyCmd) (o : Op) (t : State) : State :=
      ((t.updCurWave fun w => { w with ops := w.ops ++ [o] }).freshId).post .copyAccept (.copy e)
    let hit (e : CopyCmd) : Bool := e.landing.isSome && landingKey s e == (lsTarget s s.curLid P).map (·.1) && e.stop.isNone && e.written.isNone
    let mine : Nat := ((entries s hall).filter fun e => e.src.core == s.curCore && e.src.slot == s.cur.slot).length
    let record : BitVec 128 := match (s.hall (x / 2 ^ 16 % 512)).faults.find? fun f => f.1 == x / 256 % 256 with
      | some f => f.2.1
      | none => 0
    (∀ i ∈ forms, Issues i s → s.curAwait = .answered id v r → Completes i s (putAll64 s g d (BitVec.ofNat 64 v))) ∧
    (∀ i ∈ forms, Issues i s → s.curAwait = .sent id → Waits i s 16 s) ∧
    (Issues cp s → s.curAwait = .none → fits P n → fits Q n → (ring = true → ptrKind Q ≠ 0) →
      (ring = false → landingTrap s (landingPointer s Q off) off = none) →
      (n = 0 → ring = false → Completes cp s (putAll64 s g d (BitVec.ofNat 64 s.clk))) ∧
      (n = 0 → ring = true → wave → ∃ (e : CopyCmd) (o : Op), asked e o 0x53 true ∧ cpCmd e ∧
        Completes cp s (putAll64 (sent e o s) g d (BitVec.ofNat 64 s.clk))) ∧
      (n ≠ 0 → freeEntry s hall s.curCore s.cur.slot false = none → Waits cp s 3 s) ∧
      (n ≠ 0 → wave → freeEntry s hall s.curCore s.cur.slot false = some sh → ∃ (e : CopyCmd) (o : Op), asked e o 0x53 sh ∧ cpCmd e ∧
        Waits cp s 16 (setAwait (.sent s.nextId) (sent e o s)))) ∧
    (∀ k f, Issues cp s → s.curAwait = .none →
      (copyPointerCause s P n = some (k, f) → Traps cp s k f) ∧
      (fits P n → copyPointerCause s Q n = some (k, f) → Traps cp s k f) ∧
      (fits P n → fits Q n → ring = true → ptrKind Q = 0 → Traps cp s 0x17 Q) ∧
      (fits P n → fits Q n → ring = false → landingTrap s (landingPointer s Q off) off = some (k, f) → Traps cp s k f)) ∧
    (Issues cpg s → s.curAwait = .none →
      (∀ l ∈ lanes, fits (p l) size ∧ fits (q l) size ∧ (p l).toNat % size = 0 ∧ (q l).toNat % size = 0) →
      (∀ k f, landingTrap s (ownPointer s n) n = some (k, f) → Traps cpg s k f) ∧
      (landingTrap s (ownPointer s n) n = none → freeEntry s hall s.curCore s.cur.slot false = none → Waits cpg s 3 s) ∧
      (landingTrap s (ownPointer s n) n = none → wave → freeEntry s hall s.curCore s.cur.slot false = some sh →
        ∃ (e : CopyCmd) (o : Op), asked e o 0x55 sh ∧ e.kind = .gather size (lanes.map fun l => ((p l).toNat, (q l).toNat)) ∧
          e.bytes = lanes.length * size ∧ e.ordered = false ∧ e.ring = none ∧
          e.landing = (if n = 0 then none else some (ownPointer s n)) ∧ Waits cpg s 16 (setAwait (.sent s.nextId) (sent e o s)))) ∧
    (Issues cpt s → s.curAwait = .none → ((recordOk s x 32 = false ∨ shapeOk shape = false) → Traps cpt s 0x05 (BitVec.ofNat 64 x)) ∧
      (recordOk s x 32 = true → shapeOk shape = true → s.badLs = [] → fits Q (tileSpan shape 136) → fits R (tileSpan shape 196) →
        (Q.toNat % es ≠ 0 → Traps cpt s 0x06 Q) ∧ (Q.toNat % es = 0 → R.toNat % es ≠ 0 → Traps cpt s 0x06 R) ∧
        (Q.toNat % es = 0 → R.toNat % es = 0 → landingTrap s (landingPointer s R land) land = none →
          (freeEntry s hall s.curCore s.cur.slot false = none → Waits cpt s 3 s) ∧
          (wave → freeEntry s hall s.curCore s.cur.slot false = some sh → ∃ (e : CopyCmd) (o : Op), asked e o 0x54 sh ∧
            e.kind = .tile op shape ∧ e.from_ = Q ∧ e.to_ = R ∧ e.bytes = shapeCount shape * es ∧ e.ordered = false ∧ e.ring = none ∧
            e.landing = (if land = 0 then none else some (landingPointer s R land)) ∧
            Waits cpt s 16 (setAwait (.sent s.nextId) (sent e o s)))))) ∧
    (∀ j ∈ colls, Issues j.2 s → s.curAwait = .none →
      ((recordOk s x 64 = false ∨ collOk s desc = false) → Traps j.2 s 0x05 (BitVec.ofNat 64 x)) ∧
      (recordOk s x 64 = true → collOk s desc = true → s.badLs = [] → fits S (sizes j.1).1 → fits T (sizes j.1).2 →
        landingTrap s (ownPointer s (bitsAt desc 224 32)) (bitsAt desc 224 32) = none →
        (freeEntry s hall s.curCore s.cur.slot true = none → Waits j.2 s 3 s) ∧
        (wave → freeEntry s hall s.curCore s.cur.slot true = some sh → ∃ (e : CopyCmd) (o : Op), asked e o 0x56 sh ∧
          e.kind = .coll j.1 (ownPointer s x) ∧ e.from_ = S ∧ e.to_ = T ∧ e.bytes = (sizes j.1).2 ∧ e.ordered = false ∧ e.ring = none ∧
          e.landing = (if bitsAt desc 224 32 = 0 then none else some (ownPointer s (bitsAt desc 224 32))) ∧
          Waits j.2 s 16 (setAwait (.sent s.nextId) (sent e o s))))) ∧
    (Issues (.cpqSt g d) s → Completes (.cpqSt g d) s (out s ((256 - sharedHeld s hall) +
      (if ownHeld s hall s.curCore s.cur.slot then 0 else 512) + mine * 2 ^ 16))) ∧
    (∀ k f, Issues (.cpqCnl g d a) s → twaitCause s P = some (k, f) → Traps (.cpqCnl g d a) s k f) ∧
    (Issues (.cpqCnl g d a) s → twaitCause s P = none →
      ((∀ e ∈ queuedHere s ++ waitingHere s, e.landing = none) → Completes (.cpqCnl g d a) s (out s 0)) ∧
      (∀ e, queuedHere s = [e] → waitingHere s = [] → hit e = true → copyApplied s e = false →
        Completes (.cpqCnl g d a) s (out (stopCopy e.hall e.id e.high 0 2 0 s) 1)) ∧
      (∀ e, queuedHere s = [] → waitingHere s = [e] → hit e = true →
        Completes (.cpqCnl g d a) s (out (cancelWaiting (fun c => e.id == c.id) s) 1))) ∧
    (Issues (.cpqFr g free d a) s → Completes (.cpqFr g free d a) s
      (putGroup (if free then s.updHall (x / 2 ^ 16 % 512) fun h => { h with faults := h.faults.filter fun f => f.1 != x / 256 % 256 }
        else s) (active s g) d.toNat 4 fun _ k => (record >>> (32 * k)).setWidth 32))) ∧
  (∀ (c : CopyCmd) (m : Msg) (hall ka ja kb jb : Nat) (s : State),
    let o : Nat := c.issued
    let fit : Nat := min (c.bytes - o) (min (128 - (c.from_.toNat + o) % 128) (128 - (c.to_.toNat + o) % 128))
    let n : Nat := if o + fit = c.bytes then fit else fit - (c.to_.toNat + o + fit) % 4
    let P : DWord := c.from_ + BitVec.ofNat 64 o
    let Q : DWord := c.to_ + BitVec.ofNat 64 o
    let R : DWord := c.to_ + BitVec.ofNat 64 m.va.toNat
    let stored : State :=
      updCopy m.reason m.id (fun c => { c with high := max c.high m.due }) { s with mem := Memory.writeCells s.mem m.bytes.reverse }
    let used : State := s.updLine (m.tgt / 128) fun x => { x with used := s.nonce }
    (s.arg = .copy c → s.stopped c.src.core = false → c.tuple = none → c.kind = .linear → c.src.climber = false → ptrKind c.from_ ≠ 0 →
      ptrKind c.to_ ≠ 0 → ∃ t, Happens .copyAccept s t ∧ (t.hall c.hall).queue = (s.hall c.hall).queue ++ [c] ∧ t.mem = s.mem ∧ t.agenda = s.agenda) ∧
    (s.arg = .copy c → c.bytes ≠ 0 → s.stopped c.src.core = true → Happens .copyAccept s (s.post .copyAccept (.copy c))) ∧
    (s.arg = .nums [hall] → overCopy s hall = some c → Happens .copyLineTransfer s (settleCopy hall c.id s)) ∧
    (s.arg = .nums [hall] → overCopy s hall = none → nextCopy s hall = none → Happens .copyLineTransfer s s) ∧
    (s.arg = .nums [hall] → overCopy s hall = none → nextCopy s hall = some c → c.kind = .linear → c.moved = [] → n ≠ 0 →
      ptrKind c.to_ ≠ 0 → ptrKind P ≠ 0 → ptrKind Q ≠ 0 →
      lsTarget s c.lid P = some (ka, ja) → lsTarget s c.lid Q = some (kb, jb) → isLsKey ka = true → isLsKey kb = true →
      s.inDomain (corePkg (keyCore ka)) = true → s.inDomain (corePkg (keyCore kb)) = true →
      s.outOfService (keyCore ka) = false → s.outOfService (keyCore kb) = false → s.badLs = [] →
      s.xbnd (keyCore kb) ≤ ptrLow Q → ptrLow Q + n ≤ 0x2F0000 →
      ∃ t w, Happens .copyLineTransfer s t ∧ t.agenda = s.agenda ++ [⟨.lineData, .msg w⟩] ∧ t.mem = s.mem ∧ w.tgt = ka ∧
        w.bytes = cellsOf (Q.toNat % 128) n (Memory.load s.mem ka n) ∧ w.id = c.id ∧ w.reason = c.hall ∧ w.va = BitVec.ofNat 64 o ∧
        w.due = o + n ∧ w.arg = BitVec.ofNat 128 n ∧ w.imm = 0 ∧ w.anch = c.landing.getD 0 ∧ w.kind = c.landing.isSome.toNat) ∧
    (s.arg = .msg m → findCopy s m.reason m.id = none → Happens .lineData s s) ∧
    (s.arg = .msg m → findCopy s m.reason m.id = some c → c.kind = .linear → c.moved = [] → ptrKind R ≠ 0 →
      lsTarget s c.lid R = some (kb, jb) → farCause s kb = none →
      Happens .lineData s (s.post .copyLineWrite (.msg { m with
        sseq := none, tgt := kb, key := jb, point := pointOf s kb 0, bytes := m.bytes.map fun x => (kb + x.1 - R.toNat % 128, x.2) }))) ∧
    (s.arg = .msg m → isLsKey m.tgt = true → outside s m = false → targetSealed s m = false →
      (∀ x ∈ m.bytes, isLsKey x.1 = true ∧ mirrorOf s (keyCore x.1) = none) → s.badLs = [] → m.imm = 0 → m.bytes ≠ [] →
      (m.kind = 0 → inFlight s m.id = true → Happens .copyLineWrite s stored) ∧
      (∀ k, m.kind = 1 → inFlight s m.id = true → isLsKey k = true → (match findCopy stored m.reason m.id with
        | some e => landingKey stored e
        | none => (lsTarget stored m.ctx m.anch).map (·.1)) = some k →
        let t : State := stored.setLanding k ((stored.landing k).update 0 m.arg.toNat)
        Happens .copyLineWrite s (if ownLine stored m then t else echo k 16 t)) ∧
      (m.kind = 0 → inFlight s m.id = false → findCopy stored m.reason m.id = some c → c.kind = .linear → c.stop = none →
        c.bytes ≤ c.issued → unwrittenBy s c.src c.id = false → commitFree stored c = true → orderedHeld stored c = false → c.id = m.id →
        Happens .copyLineWrite s (finishCopy c stored))) ∧
    (s.arg = .msg m → m.tgt < 2 ^ 56 → pageGate .copyReadRequest m s = none → (s.line (m.tgt / 128)).state = .clean →
      (s.line (m.tgt / 128)).tag = m.key → ((s.line (m.tgt / 128)).lease.isSome = true ∨ (s.line (m.tgt / 128)).queue = []) →
      readFault used m.tgt m.key = none → Happens .copyReadRequest s (used.post .lineData
        (.msg { m with bytes := cellsOf (m.bytes.headD (0, 0)).1 m.bytes.length (used.devRead m.tgt m.bytes.length m.key) }))))

/-- R132, R133, R62, R368: reductions of elements, and a collective over the live members of its table: its own part once its sources
may be read, and its commit, with the live members of the epoch in which it wrote DST. When the sources are read and the result is
committed are the model's choices (log 27). -/
def Obligations.Collectives : Prop :=
  ∀ (t x y v own me kind : Nat) (desc : DWord) (c : CopyCmd) (m : Msg) (s : State),
    let es : Nat := typeBytes (bitsAt v 192 4)
    (s.arg = .msg m → findCopy s m.reason m.id = some c → c.kind = .coll kind desc → c.stop ≠ none → Happens .collCommit s s) ∧
    (s.arg = .msg m → findCopy s m.reason m.id = some c → c.kind = .coll kind desc → c.stop = none → collReady s c = true →
      c.written = none → Happens .collCommit s (writeColl c kind desc s)) ∧
    (∀ epoch live got, s.arg = .msg m → findCopy s m.reason m.id = some c → c.kind = .coll kind desc → c.stop = none →
      collReady s c = true → c.written = some (epoch, live, got) → (members s (bitsAt (descBits s c desc) 200 8)).epoch = epoch →
      Happens .collCommit s (completeOp (debitColl c got (putDesc c desc 32 live.length (dropCopy s c))) c.src c.id)) ∧
    (s.arg = .msg m → findCopy s m.reason m.id = some c → c.kind = .coll kind desc → c.stop = none → collReady s c = false →
      Happens .collCommit s (s.post .collCommit (.msg m))) ∧
    (s.arg = .msg m → findCopy s m.reason m.id = none → Happens .collCommit s s) ∧
    (t < 6 → reduceElem t 0 x y = (x + y) % 2 ^ (8 * typeBytes t)) ∧
    (t < 9 → reduceElem t 3 x y = x &&& y) ∧ (t < 9 → reduceElem t 4 x y = x ||| y) ∧ (t < 9 → reduceElem t 5 x y = x ^^^ y) ∧
    (t < 6 → typeInt t (reduceElem t 1 x y) = min (typeInt t x) (typeInt t y)) ∧
    (t < 6 → typeInt t (reduceElem t 2 x y) = max (typeInt t x) (typeInt t y)) ∧
    (bitsAt v 196 4 ≠ 6 → collResult s 0 v own me [me] = own % 2 ^ (8 * es * bitsAt v 160 32)) ∧
    (∀ (f : Nat → Nat → Nat) p q r w, pairTree f 32 [p] = p ∧ pairTree f 32 [p, q] = f p q ∧ pairTree f 32 [p, q, r] = f (f p q) r ∧
      pairTree f 32 [p, q, r, w] = f (f p q) (f r w))

/-- R327, R302: the combining barriers. Every lane of the wave that has not exited must be active; the scope names a level of the
launch; the wave's lanes combine to one value, which is sent; the reply gives D the combination of all waves, or a mismatch traps.
R327: where the combining barriers and the arrival complete. Each of the five forms does in every state in which the active lanes
are all of the wave's that have not exited, SCOPE names a level of the launch and the wave's unit has its reply: D receives the
combination in every active lane, and the reply is taken up. An arrival at a unit happens in every state that holds its launch: the
first of a generation opens it with the waves of the unit that have not exited, and a lone wave's completes it at once. R327: an
arrival at a combining unit. The last one expected completes the generation, and every wave that arrived is answered with the
combination; a different operation is answered as a mismatch; the value of `add` is the sum, of `maxn` and `min` the largest and
least. -/
def Obligations.CombiningBarriers : Prop :=
  (∀ (g : Guard) (scope : BitVec 3) (d a : RegNo) (s : State) (gr : Group) (l : Launch) (k : Nat),
    let forms : List (Nat × Instr) := [(0, .cbarSync g scope d), (1, .cbarMax g scope d a), (2, .cbarMaxn g scope d a),
      (3, .cbarAdd g scope d a), (4, .cbarMin g scope d a)]
    let unit : Nat := unitOf l.record k gr.num
    let index : Nat := s.curWave.index
    let whole : Prop := activeMask s g = s.curWave.launchMask &&& ~~~s.curWave.exited
    let mine (e : Cbar) : Bool := e.lid == l.lid && e.level == k && e.unit == unit
    let reply (e : Cbar) : Option (Nat × Nat × Bool × Word) := e.replies.find? fun r => r.1 == gr.num && r.2.1 == index
    let strip (e : Cbar) : Cbar :=
      if mine e then { e with replies := e.replies.filter fun r => !(r.1 == gr.num && r.2.1 == index) } else e
    let taken : State := { s with cbars := s.cbars.map strip }
    s.curGroup = some gr → s.curLaunch = some l →
    (∀ q ∈ forms, Issues q.2 s → ¬whole →
      Traps q.2 s 0x09 ((s.curWave.launchMask ^^^ activeMask s g).setWidth 64)) ∧
    (∀ q ∈ forms, Issues q.2 s → whole → levelOf l.record scope.toNat = none →
      Traps q.2 s 0x1C (BitVec.ofNat 64 scope.toNat)) ∧
    (∀ q ∈ forms, Issues q.2 s → whole → levelOf l.record scope.toNat = some k → s.curAwait = .none → ∃ m : Msg,
      m.kind = q.1 ∧ m.ctx = l.lid ∧ m.reason = k ∧ m.va = BitVec.ofNat 64 unit ∧ m.arg = BitVec.ofNat 128 gr.num ∧
      Waits q.2 s 9 ((setAwait (.sent s.nextId) (s.post .cbarArrival (.msg m))).freshId)) ∧
    (∀ q ∈ forms, ∀ e id v, Issues q.2 s → whole → levelOf l.record scope.toNat = some k → s.curAwait = .sent id →
      s.cbars.find? mine = some e → reply e = some (gr.num, index, false, v) →
      Completes q.2 s (putLanes taken (active taken g) d.toNat fun _ => v)) ∧
    (∀ q ∈ forms, ∀ e id, Issues q.2 s → whole → levelOf l.record scope.toNat = some k → s.curAwait = .sent id →
      s.cbars.find? mine = some e → reply e = none → Waits q.2 s 9 s)) ∧
  (∀ (g : Guard) (scope : BitVec 3) (d a : RegNo) (s : State) (gr : Group) (l : Launch) (k id : Nat) (v : Word) (e : Cbar) (m : Msg),
    let unit : Nat := unitOf l.record k gr.num
    let index : Nat := s.curWave.index
    let mine (c : Cbar) : Bool := c.lid == l.lid && c.level == k && c.unit == unit
    let own (r : Nat × Nat × Bool × Word) : Bool := r.1 == gr.num && r.2.1 == index
    let strip (c : Cbar) : Cbar := if mine c then { c with replies := c.replies.filter fun r => !own r } else c
    let taken : State := { s with cbars := s.cbars.map strip }
    let out : State := putLanes taken (active taken g) d.toNat fun _ => v
    let num : Nat := m.arg.toNat
    let here (c : Cbar) : Bool := c.lid == l.lid && c.level == m.reason && c.unit == m.va.toNat
    let waves : Nat := unitWaves s l m.reason m.va.toNat
    let one : Word := if m.kind = 0 then 1 else cbarValue m.kind [m.imm]
    (activeMask s g = s.curWave.launchMask &&& ~~~s.curWave.exited → s.curGroup = some gr → s.curLaunch = some l →
      levelOf l.record scope.toNat = some k → s.curAwait = .sent id → s.cbars.find? mine = some e →
      e.replies.find? own = some (gr.num, index, false, v) →
      (Issues (.cbarSync g scope d) s → exec (.cbarSync g scope d) s = .next (finish (.cbarSync g scope d) s (.done out))) ∧
      (Issues (.cbarMax g scope d a) s → exec (.cbarMax g scope d a) s = .next (finish (.cbarMax g scope d a) s (.done out))) ∧
      (Issues (.cbarMaxn g scope d a) s → exec (.cbarMaxn g scope d a) s = .next (finish (.cbarMaxn g scope d a) s (.done out))) ∧
      (Issues (.cbarAdd g scope d a) s → exec (.cbarAdd g scope d a) s = .next (finish (.cbarAdd g scope d a) s (.done out))) ∧
      (Issues (.cbarMin g scope d a) s → exec (.cbarMin g scope d a) s = .next (finish (.cbarMin g scope d a) s (.done out)))) ∧
    (s.arg = .msg m → s.launch? m.ctx = some l →
      exec .cbarArrival s = .next (arriveCbar m l s) ∧
      (s.cbars.any here = false → 1 < waves → exec .cbarArrival s = .next
        { s with cbars := s.cbars ++ [⟨l.lid, m.reason, m.va.toNat, 0, waves, m.kind, [(num, m.src.lane, m.imm)], []⟩] }) ∧
      (s.cbars.any here = false → waves = 1 → exec .cbarArrival s = .next
        { s with cbars := s.cbars ++ [⟨l.lid, m.reason, m.va.toNat, 1, waves, m.kind, [], [(num, m.src.lane, false, one)]⟩] }))) ∧
  (∀ (m : Msg) (l : Launch) (e : Cbar) (s : State) (x y : Word),
    let num : Nat := m.arg.toNat
    let all : List (Nat × Nat × Word) := e.arrived ++ [(num, m.src.lane, m.imm)]
    let value : Word := if e.sub = 0 then e.gen + 1 else cbarValue e.sub (all.map fun a => a.2.2)
    let full : Cbar := { e with gen := e.gen + 1, arrived := []
                                replies := e.replies ++ all.map fun a => (a.1, a.2.1, false, value) }
    (s.arg = .msg m → s.launch? m.ctx = some l → s.cbars = [e] → e.lid = l.lid → e.level = m.reason → e.unit = m.va.toNat →
      e.arrived ≠ [] →
      (e.sub = m.kind → e.expect = e.arrived.length + 1 → Happens .cbarArrival s { s with cbars := [full] }) ∧
      (e.sub = m.kind → e.arrived.length + 1 < e.expect → Happens .cbarArrival s { s with cbars := [{ e with arrived := all }] }) ∧
      (e.sub ≠ m.kind → Happens .cbarArrival s { s with cbars :=
        [{ e with replies := e.replies ++ [(num, m.src.lane, true, BitVec.ofNat 32 e.sub)] }] })) ∧
    (cbarValue 3 [x, y] = x + y ∧ (cbarValue 2 [x, y]).toNat = max x.toNat y.toNat ∧ (cbarValue 4 [x, y]).toNat = min x.toNat y.toNat))

/-- R240-R243: banks. `mxal` asks for them and completes once its request is granted; asked while its wave has a run, or with the turn,
it traps, as it does for a count that is not 1 to 16; the allocator grants the head request the lowest free run, its words zero;
`mxfr` waits for the wave's `mma`s and gives the run back. R245, R246: the turn. `turn.take` completes in the wave that holds it and
makes another ask; `turn.give` gives it back; `turn.who` tells the holder's index within the group; a free turn goes to a wave that
waits. -/
def Obligations.MatrixBanks : Prop :=
  (∀ (g : Guard) (a : RegNo) (core slot n b id : Nat) (rest : List (Nat × Nat)) (s : State),
    let A : Instr := .mxal g a
    let x : Word := src s a.toNat (firstLane s g)
    let c : Core := s.core s.curCore
    let asked : Bool := c.accWait.any fun q => q.1 == s.cur.slot
    (Issues A s → s.curAwait = .sent id → asked = false → Completes A s s) ∧
    (Issues A s → s.curAwait = .sent id → asked = true → Waits A s 12 s) ∧
    (Issues A s → s.curAwait = .none → s.curWave.acc.2 = 0 → asked = true → Waits A s 12 s) ∧
    (Issues A s → s.curAwait = .none → s.curWave.acc.2 = 0 → asked = false → c.turn ≠ some s.cur.slot → 1 ≤ x.toNat → x.toNat ≤ 16 →
      Waits A s 12 (setAwait (.sent s.nextId) ((s.updCore s.curCore fun c =>
        { c with accWait := c.accWait ++ [(s.cur.slot, x.toNat)] }).freshId))) ∧
    (Issues A s → s.curAwait = .none → s.curWave.acc.2 ≠ 0 → Traps A s 0x0A 0) ∧
    (Issues A s → s.curAwait = .none → s.curWave.acc.2 = 0 → asked = false → c.turn = some s.cur.slot → Traps A s 0x0A (x.setWidth 64)) ∧
    (Issues A s → s.curAwait = .none → s.curWave.acc.2 = 0 → asked = false → c.turn ≠ some s.cur.slot → (x = 0 ∨ 16 < x.toNat) →
      Traps A s 0x0B (x.setWidth 64)) ∧
    (Issues (.mxfr g) s → (∀ m ∈ c.mma, m.slot ≠ s.cur.slot) →
      Completes (.mxfr g) s (s.updCurWave fun w => { w with acc := (0, 0) })) ∧
    (∀ m ∈ c.mma, Issues (.mxfr g) s → m.slot = s.cur.slot → Waits (.mxfr g) s 2 s) ∧
    (s.arg = .nums [core] → (s.core core).accWait = [] → Happens .accGrant s s) ∧
    (s.Inv → s.arg = .nums [core] → (s.core core).accWait = (slot, n) :: rest → n ≠ 0 → freeRun s core n = some b → ∃ t,
      Happens .accGrant s t ∧ (t.wave core slot).acc = (b, n) ∧ (t.core core).accWait = rest ∧ t.mem = s.mem ∧
      b + n ≤ 16 ∧ (∀ k, k < n → b + k ∉ heldBanks s core) ∧
      (∀ k i j, b ≤ k → k < b + n → i < 64 → j < 64 → accWord (t.core core) k i j = 0) ∧
      ∀ k i j, (k < b ∨ b + n ≤ k) → i < 64 → j < 64 → accWord (t.core core) k i j = accWord (s.core core) k i j)) ∧
  (∀ (g : Guard) (d : RegNo) (core w : Nat) (s : State),
    let c : Core := s.core s.curCore
    let out (v : Nat) : State := putLanes s (active s g) d.toNat fun _ => BitVec.ofNat 32 v
    (Issues (.turnTake g) s → c.turn = some s.cur.slot → Completes (.turnTake g) s s) ∧
    (Issues (.turnTake g) s → c.turn ≠ some s.cur.slot → s.cur.slot ∉ c.turnWait → Waits (.turnTake g) s 12
      (s.updCore s.curCore fun c => { c with turnWait := c.turnWait ++ [s.cur.slot] })) ∧
    (Issues (.turnGive g) s → c.turn = some s.cur.slot → Completes (.turnGive g) s (s.updCore s.curCore fun c => { c with turn := none })) ∧
    (Issues (.turnWho g d) s → c.turn = some w → (s.wave s.curCore w).gid = s.curWave.gid →
      Completes (.turnWho g d) s (out (s.wave s.curCore w).index)) ∧
    (Issues (.turnWho g d) s → (c.turn = none ∨ (c.turn = some w ∧ (s.wave s.curCore w).gid ≠ s.curWave.gid)) →
      Completes (.turnWho g d) s (out 0xFFFFFFFF)) ∧
    (s.arg = .nums [core] → (s.core core).turn = none → (s.core core).turnWait = [w] → ∃ t, Happens .turnGrant s t ∧
      (t.core core).turn = some w ∧ (t.core core).turnWait = [] ∧ t.mem = s.mem ∧ t.waves = s.waves) ∧
    (∀ x, s.arg = .nums [core] → (s.core core).turn = some x → Happens .turnGrant s s))

/-- R236, R247-R250: the loads of latches, in the wave that holds the turn and with no `mma` reading the latch. A plain row of `mxl` is
the 64 bytes at base + row × stride where its lane is active and zero otherwise, a scale row 4 bytes of consecutive words; `mxg`
takes each lane's two rows from its own addresses. R244, R255, R256: the moves between accumulators, registers and local store, once
no accepted `mma` is to write the bank. `mxr` and `mxw` move the eight elements of a column block that each active lane owns; `mxz`
zeroes the rows of the active lanes; `mxs` stores each lane's two rows, converted, to the addresses the lane gives; of rows that
overlap, the statement says only that nothing else is written (log 66). The order of the checks of mxl and mxs is the model's choice
(log 43). -/
def Obligations.LatchLoads : Prop :=
  (∀ (g : Guard) (latch : BitVec 3) (one : BitVec 1) (esz : BitVec 2) (a b : RegNo) (s : State),
    let base : Word := src s a.toNat (firstLane s g)
    let stride : Word := src s b.toNat (firstLane s g)
    let x : Nat := latch.toNat
    let on (i : Nat) : Bool := (activeMask s g).getLsbD (i % 32)
    let at_ (i : Nat) : Word := base + BitVec.ofNat 32 i * stride
    let word (i : Nat) : Word := base + BitVec.ofNat 32 (4 * i)
    let e : Nat := if esz = 0 then 1 else 2
    let ok (align n : Nat) (p : Word) : Prop := p.toNat % align = 0 ∧ p.toNat + n ≤ 0x2F0000 ∧ accessOk s false p.toNat n = true
    let L : Instr := .mxl g latch false esz a b
    let T : Instr := .mxl g latch true esz a b
    let G : Instr := .mxg g one a b
    let row (t : State) (x i : Nat) : Nat := latchRow (t.core s.curCore) x i
    s.Inv → s.badLs = [] → (s.core s.curCore).turn = some s.cur.slot → s.cur ≠ .none →
    (Issues L s → x < 4 → latchBusy s x = false → stride.toNat % 32 = 0 → (∀ i, i < 64 → on i = true → ok 32 64 (at_ i)) →
      ∃ t, Completes L s t ∧ t.mem = s.mem ∧ t.regs = s.regs ∧
        ∀ i, i < 64 → row t x i = if on i then s.ls s.curCore (at_ i).toNat 64 else 0) ∧
    (Issues L s → 4 ≤ x → latchBusy s x = false → base.toNat % 32 = 0 → (∀ i, i < 64 → on i = true → ok 1 4 (word i)) →
      ∃ t, Completes L s t ∧ t.mem = s.mem ∧ ∀ i, i < 64 → row t x i = if on i then s.ls s.curCore (word i).toNat 4 else 0) ∧
    (Issues T s → x < 4 → latchBusy s x = false → stride.toNat % 32 = 0 → (∀ k, k < 64 / e → ok 32 (64 * e) (at_ k)) →
      ∃ t, Completes T s t ∧ ∀ j k, j < 64 → k < 64 / e → bitsAt (row t x j) (8 * e * k) (8 * e) =
        if on j then bitsAt (s.ls s.curCore (at_ k).toNat (64 * e)) (8 * e * j) (8 * e) else 0) ∧
    (Issues G s → latchBusy s one.toNat = false → (∀ l ∈ active s g, ok 32 64 (src s a.toNat l) ∧ ok 32 64 (src s b.toNat l)) →
      ∃ t, Completes G s t ∧ ∀ l, l < 32 →
        row t one.toNat l = (if on l then s.ls s.curCore (src s a.toNat l).toNat 64 else 0) ∧
        row t one.toNat (l + 32) = (if on l then s.ls s.curCore (src s b.toNat l).toNat 64 else 0)) ∧
    (Issues L s → x < 4 → stride.toNat % 32 ≠ 0 → Traps L s 0x06 (stride.setWidth 64)) ∧
    (Issues L s → 4 ≤ x → base.toNat % 32 ≠ 0 → Traps L s 0x06 (base.setWidth 64))) ∧
  (∀ (g : Guard) (ty : BitVec 3) (d a b c : RegNo) (bank : Nat) (s : State),
    let q : Nat := (src s c.toNat (firstLane s g)).toNat
    let core : Core := s.core s.curCore
    let lanes : List Nat := active s g
    let on (r : Nat) : Bool := (activeMask s g).getLsbD (r % 32)
    let fw : Word := src s a.toNat (firstLane s g)
    let n : Nat := mxsBytes ty.toNat
    let adr (r : Nat) : Word := src s (if r < 32 then c.toNat else c.toNat + 1) (r % 32)
    let acc (t : State) (r j : Nat) : Word := accWord (t.core s.curCore) bank r j
    bankOf s g b = .ok bank → bankBusy s bank = false → s.cur ≠ .none →
    (Issues (.mxr g d b c) s → q < 16 → Completes (.mxr g d b c) s
      (putGroup s lanes d.toNat 8 fun l k => accWord core bank (l + k / 4 * 32) (4 * q + k % 4))) ∧
    (s.Inv → Issues (.mxw g a b c) s → q < 16 → ∃ t, Completes (.mxw g a b c) s t ∧ t.mem = s.mem ∧ t.regs = s.regs ∧
      (∀ l ∈ lanes, ∀ k, k < 8 → acc t (l + k / 4 * 32) (4 * q + k % 4) = src s (a.toNat + k) l) ∧
      ∀ r j, r < 64 → j < 64 → (on r = false ∨ j / 4 ≠ q) → acc t r j = accWord core bank r j) ∧
    (s.Inv → Issues (.mxz g b) s → ∃ t, Completes (.mxz g b) s t ∧ t.mem = s.mem ∧ t.regs = s.regs ∧
      ∀ r j, r < 64 → j < 64 → acc t r j = if on r then 0 else accWord core bank r j) ∧
    (Issues (.mxr g d b c) s → 16 ≤ q → Traps (.mxr g d b c) s 0x0B (BitVec.ofNat 64 q)) ∧
    (s.Inv → s.badLs = [] → Issues (.mxs g ty a b c) s → voteTrap s lanes a = none → (fwAcc fw = 1 → ty = 0 ∨ 4 ≤ ty.toNat) →
      (∀ r, r < 64 → on r = true → (adr r).toNat % 32 = 0 ∧ (adr r).toNat + 64 * n ≤ 0x2F0000 ∧
        accessOk s false (adr r).toNat (64 * n) = true ∧ constWrite s (adr r).toNat (64 * n) = false) →
      ∃ t, Completes (.mxs g ty a b c) s t ∧ t.regs = s.regs ∧ t.cores = s.cores ∧
        (∀ k, (∀ r, r < 64 → on r = true → k < lsKey s.curCore (adr r).toNat ∨ lsKey s.curCore (adr r).toNat + 64 * n ≤ k) →
          Memory.byte t.mem k = Memory.byte s.mem k) ∧
        ∀ r, r < 64 → on r = true → (∀ q, q < 64 → on q = true → q ≠ r →
            (adr q).toNat + 64 * n ≤ (adr r).toNat ∨ (adr r).toNat + 64 * n ≤ (adr q).toNat) →
          t.ls s.curCore (adr r).toNat (64 * n) = (((List.range 64).map fun j => (mxsElem fw ty.toNat (accWord core bank r j)).1).foldr
            (fun e acc => e + 2 ^ (8 * n) * acc) 0) % 2 ^ (512 * n)) ∧
    (∀ w, fwAcc fw = 1 → (mxsElem fw 4 w) = (w.toNat, 0)) ∧ (∀ w, fwAcc fw = 0 → (mxsElem fw 0 w) = (w.toNat, 0)) ∧
    (∀ w : Word, fwAcc fw = 1 → fwSat fw = true → (mxsElem fw 5 w).1 = ((max (-128) (min w.toInt 127)) % 256).toNat))

/-- R239, R244, R251-R254, R61: `mma`. Its lanes must be the launch mask unless `.zi`, its format word agreed and valid, its bank held;
with the turn and room it is accepted, and executes later: each element it covers becomes the old one, or 0 with `.z`, plus the
products, and no other element changes. A mismatch with the mirror twice is recorded for the wave, unless its group has ended, and
writes nothing, and the wave's later accepted ones are discarded. -/
def Obligations.MatrixMultiply : Prop :=
  ∀ (g : Guard) (x y z zi half nc : Bool) (a b : RegNo) (bank core : Nat) (m : Mma) (rest : List Mma) (s : State),
    let i : Instr := .mma g x y z zi half nc a b
    let fw : Word := src s a.toNat (firstLane s g)
    let mask : Word := activeMask s g
    let entry : Mma := ⟨s.cur.slot, fw, bank, bank - s.curWave.acc.1, x.toNat, y.toNat, z, zi, half, nc, mask, s.curPc⟩
    let c : Core := s.core core
    let covered (r : Nat) : Prop := r < (if m.half then 32 else 64) ∧ (m.zi = true → m.mask.getLsbD (r % 32) = true)
    let passes : Prop := (zi = true ∨ mask = s.curWave.launchMask) ∧ voteTrap s (active s g) a = none ∧ bankOf s g b = .ok bank
    (Issues i s → passes → (s.core s.curCore).turn = some s.cur.slot → (s.core s.curCore).mma.length < 2 →
      Completes i s (s.updCore s.curCore fun c => { c with mma := c.mma ++ [entry] })) ∧
    (Issues i s → passes → (s.core s.curCore).turn = some s.cur.slot → 2 ≤ (s.core s.curCore).mma.length → Waits i s 2 s) ∧
    (Issues i s → zi = false → mask ≠ s.curWave.launchMask → Traps i s 0x09 ((s.curWave.launchMask ^^^ mask).setWidth 64)) ∧
    (∀ e f, Issues i s → (zi = true ∨ mask = s.curWave.launchMask) → voteTrap s (active s g) a = some (e, f) → Traps i s e f) ∧
    (s.arg = .nums [core] → c.mma = [] → Happens .mmaExecution s s) ∧
    (s.Inv → s.arg = .nums [core] → c.mma = m :: rest → Sparse.get 0 s.badArray core = 0 → ∃ t, Happens .mmaExecution s t ∧
      t.mem = s.mem ∧ t.regs = s.regs ∧ t.waves = s.waves ∧ (t.core core).mma = rest ∧
      (∀ r j, covered r → j < 64 → accWord (t.core core) m.bank r j = mmaWord c m r j) ∧
      (∀ k r j, r < 64 → j < 64 → (k ≠ m.bank ∨ ¬covered r) → accWord (t.core core) k r j = accWord c k r j)) ∧
    (s.Inv → s.arg = .nums [core] → c.mma = m :: rest → Sparse.get 0 s.badArray core = 2 → m.half = true → m.nc = false →
      ∃ t, Happens .mmaExecution s t ∧ (t.core core).acc = c.acc ∧ t.regs = s.regs ∧
        (m.slot ≠ 16 → t.dmr core m.slot = dmrBits m ∧ ∀ x ∈ (t.core core).mma, x ∈ rest ∧ x.slot ≠ m.slot) ∧
        (m.slot = 16 → t.mem = s.mem)) ∧
    (∀ ra rb acc, fwA m.fw = 6 → fwB m.fw = 6 → mmaInt m.fw ra rb acc =
      (acc + ((List.range 64).map fun k => bitsAt ra (8 * k) 8 * bitsAt rb (8 * k) 8).sum) % 2 ^ 32) ∧
    (∀ i j, m.z = true → fwAcc m.fw = 1 → mmaWord c m i j =
      BitVec.ofNat 32 (mmaInt m.fw (latchRow c m.x i) (latchRow c (2 + m.y) j) 0))

/-- R320, R323: `rsv`, `emit`, `emith` and `gdone` on a node of the graph that the launch serves, whose record the hall's unit reads. A
node with no ring answers at once; a granted request gives D the instance's core word; `emit` with the credits it needs sends its
records, in lane order, to the instance, once the writes bound to it are complete; `gdone` returns the wave's credits with each
instance's signal; a node that the graph does not have traps. R317, R319: records at an instance. A credit request that the free
slots cover is granted, another waits in one of the core's 64 entries or is told to try again; returned credits and done signals are
counted, the signals acknowledged, and what waits is served; a committed record stands in its slot with its sequence word; a retried
request goes out again when its time has come. R321, R322: `take`. Outside a node's group it traps. The oldest `take` returns when
the records reach the threshold, or one is old enough, or COALT is 0, or the instance is closed: lanes in order take the records
from cursor 0 on, a lane without one all ones in word 3; until then it waits in line, and the coalescing time lets the oldest try
again. The core words and the life of a reservation are the model's choices (logs 45, 47). -/
def Obligations.GraphSends : Prop :=
  (∀ (g : Guard) (here : Bool) (d a b c : RegNo) (id v : Nat) (l : Launch) (n : NodeRec) (q : Group × Inst) (r : Resv) (s t : State),
    let x : Word := src s a.toNat (firstLane s g)
    let node : Nat := x.toNat
    let slot : Nat := recGslot l.record
    let hall : Nat := hallOf s.curCore
    let R : Instr := .graphRsv g here d a b c
    let E : Instr := .emit g d a b
    let H : Instr := .emith g d a b c
    let D : Instr := .gdone g a
    let want : Nat := (src t b.toNat (firstLane t g)).toNat
    let named : Word := src t c.toNat (firstLane t g)
    let out (u : State) (k : Nat) : State := putLanes u (active u g) d.toNat fun _ => BitVec.ofNat 32 k
    let gives (i : Instr) (k : Nat) (f : DWord) : Prop := exec i s = .next (raiseCause k f t)
    let ts : List (BitVec 128) := ((active t g).filter fun k => src t (b.toNat + 3) k != 0xFFFFFFFF).map (emitTuple t b)
    let noted (o : Op) : State := (addOp t (issuerOf t 0x6B 0) o).freshId
    let pay (e : Resv) : Resv := if e.gid = q.1.gid then { e with credits := e.credits - ts.length } else e
    let sent (o : Op) (m : Msg) : State :=
      out (((noted o).updCurWave fun w => { w with resv := w.resv.map pay }).post .graphMessage (.msg m)) ts.length
    let is (m : Msg) (kind : Nat) : Prop := m.group = q.1.gid ∧ m.kind = kind ∧ m.id = t.nextId
    s.curLaunch = some l →
    ((recGn l.record = false ∨ 4096 ≤ node ∨ (nodeFree s hall slot node = true ∧ nodeRecord s hall slot node = none)) →
      ∀ i ∈ [R, E, H, D], Issues i s → Traps i s 0x05 (x.setWidth 64)) ∧
    (recGn l.record = true → node < 4096 → nodeFree s hall slot node = false → ∀ i ∈ [R, E, H, D], Issues i s → Waits i s 4 s) ∧
    (recGn l.record = true → node < 4096 → nodeFree s hall slot node = true → readNode s hall slot node = (t, some n) →
      (Issues R s → fixedKind n.kind = true → Completes R s (out t t.logicalCore)) ∧
      (Issues R s → fixedKind n.kind = false → t.curAwait = .answered id v 0 → Completes R s (out t v)) ∧
      (Issues R s → fixedKind n.kind = false → t.curAwait = .sent id → Waits R s 13 t) ∧
      (Issues R s → fixedKind n.kind = false → t.curAwait = .none → (want = 0 ∨ 2 ^ n.log2n < want) →
        gives R 0x05 (BitVec.ofNat 64 node)) ∧
      (Issues R s → fixedKind n.kind = false → t.curAwait = .none → 1 ≤ want → want ≤ 2 ^ n.log2n → here = false →
        chooseInst t slot node = some q → resvRoom t q.1.gid = true → t.paired = false → ∃ m : Msg, is m 0 ∧
          m.arg = BitVec.ofNat 128 want ∧ Waits R s 13 (setAwait (.sent t.nextId) (t.freshId.post .graphMessage (.msg m)))) ∧
      (Issues R s → fixedKind n.kind = false → t.curAwait = .none → 1 ≤ want → want ≤ 2 ^ n.log2n → here = false →
        chooseInst t slot node = none → Waits R s 13 t) ∧
      (Issues E s → n.kind = 5 → Completes E s (out (t.updCore t.curCore fun c => { c with sunk := c.sunk + ts.length }) ts.length)) ∧
      (Issues H s → n.kind = 5 → Completes H s (out (t.updCore t.curCore fun c => { c with sunk := c.sunk + ts.length }) ts.length)) ∧
      (t.Inv → fixedKind n.kind = false → t.curAwait = .none → entryAt t q.1.gid = some r → ts ≠ [] → ts.length ≤ r.credits →
        opsDone t (emitWaits t (namesRing q)) 5 = true → t.paired = false →
        (Issues E s → entryFor t node = some r → instanceOf t r.gid = some q → ∃ (m : Msg) (o : Op), is m 1 ∧
          m.bytes = recordBytes ts ∧ o.id = t.nextId ∧ o.cls = 4 ∧ Completes E s (sent o m)) ∧
        (Issues H s → instAt t slot node named = some q → ∃ (m : Msg) (o : Op), is m 1 ∧
          m.bytes = recordBytes ts ∧ o.id = t.nextId ∧ o.cls = 4 ∧ Completes H s (sent o m))) ∧
      (Issues H s → fixedKind n.kind = false → t.curAwait = .none → instAt t slot node named = none →
        gives H 0x17 (named.setWidth 64)) ∧
      (Issues D s → instances t slot node = [] → Completes D s (t.updCurWave fun w =>
        { w with resv := w.resv.filter fun e => e.node != node })) ∧
      (t.Inv → Issues D s → instances t slot node = [q] → t.paired = false → ∃ (m : Msg) (o : Op), is m 3 ∧ o.id = t.nextId ∧ o.cls = 4 ∧
        m.arg = BitVec.ofNat 128 ((t.curWave.resv.filter fun e => e.gid == q.1.gid).map (·.credits)).sum ∧
        Completes D s (((noted o).post .graphMessage (.msg m)).updCurWave fun w =>
          { w with resv := w.resv.filter fun e => e.node != node })))) ∧
  (∀ (m : Msg) (gr : Group) (n : Inst) (h gid : Nat) (p : Word) (tuple : BitVec 128) (s : State),
    let ix : Nat := p.toNat % 2 ^ n.log2n
    let only (u : Inst) : State := { s with groups := [{ gr with inst := some u }] }
    let given : Task := ⟨.graphMessage, .msg { src := m.src, tgt := lsKey m.src.core 0, group := m.group, kind := 8
                                               arg := BitVec.ofNat 128 m.arg.toNat, id := m.id }⟩
    (s.arg = .msg m → m.kind = 0 → instSealed s m.group = false → instanceOf s m.group = none →
      Happens .graphMessage s (s.postAll [answerMsg m 0 0x101])) ∧
    (s.arg = .msg m → m.kind = 0 → instSealed s m.group = false → s.groups = [gr] → s.saved = [] → gr.gid = m.group →
      gr.inst = some n → n.waiters = [] → isAgent m.src = true → m.arg.toNat ≤ freeSlots s (gr, n) →
      Happens .graphMessage s ((only { n with cred := n.cred + m.arg.toNat, waiters := [] }).postAll [given])) ∧
    (s.arg = .msg m → m.kind = 0 → instSealed s m.group = false → s.groups = [gr] → s.saved = [] → gr.gid = m.group →
      gr.inst = some n → n.waiters = [] → freeSlots s (gr, n) = 0 → m.arg.toNat ≠ 0 →
      (64 ≤ niWaiters s gr.core → Happens .graphMessage s (s.postAll
        [⟨.creditRetry, .msg { m with due := retryClk s m.src.core }⟩])) ∧
      (niWaiters s gr.core < 64 → Happens .graphMessage s
        (only { n with waiters := [{ src := m.src, count := m.arg.toNat, id := m.id }] }))) ∧
    (s.arg = .msg m → (m.kind = 3 ∨ m.kind = 4) → instSealed s m.group = false → s.groups = [gr] → s.saved = [] → gr.gid = m.group →
      gr.inst = some n → n.waiters = [] → Happens .graphMessage s
        ((only { n with cred := n.cred - m.arg.toNat, done := if m.kind = 3 then n.done + 1 else n.done }).postAll
          (if m.kind = 3 ∧ isAgent m.src = true then [ackMsg m false] else []))) ∧
    (s.arg = .msg m → s.reached m.due = true → Happens .creditRetry s (s.post .graphMessage (.msg m))) ∧
    (s.arg = .msg m → s.reached m.due = false → Happens .creditRetry s (s.post .creditRetry (.msg m))) ∧
    (s.memWf → instanceOf s gid = some (gr, n) → partKey s gr n.ringa = some h → mirrorOf s (keyCore h) = none →
      isLsKey h = true → isLsKey (h + 64 + 20 * 2 ^ n.log2n) = true → keyCore (h + 64 + 20 * 2 ^ n.log2n) = keyCore h →
      let t := commitRecord gid true p tuple s
      Memory.load t.mem (h + 64 + 4 * 2 ^ n.log2n + 16 * ix) 16 = tuple.toNat ∧ word32 t (h + 64 + 4 * ix) = p + 1 ∧
        (s.groups = [gr] → s.saved = [] → gr.gid = gid → ∃ u, t.groups = [{ gr with inst := some u }] ∧ u.cred = n.cred - 1 ∧
          u.commits = n.commits ++ [(p.toNat, s.clk)]) ∧
        ∀ k, (k < h + 12 ∨ h + 64 + 20 * 2 ^ n.log2n ≤ k) → Memory.byte t.mem k = Memory.byte s.mem k)) ∧
  (∀ (g : Guard) (d : RegNo) (grp : Group) (n : Inst) (core node h : Nat) (x : DWord) (s : State),
    let T : Instr := .take g d
    let me : Nat := s.cur.slot * 4 + s.cur.split
    let line (gid : Nat) : State := updInst gid (fun n => { n with takers := [me] }) s
    let lanes : List Nat := active s g
    let cur : Word := word32 s (h + 16)
    let k : Nat := (word32 s (h + 12) - cur).toNat
    let m : Nat := min k lanes.length
    let size : Nat := 2 ^ n.log2n
    let tuple (j i : Nat) : Word := word32 s (h + 64 + 4 * size + 16 * ((cur + BitVec.ofNat 32 j).toNat % size) + 4 * i)
    let oldest : Bool := match n.commits.find? fun q => q.1 == cur.toNat with
      | some q => decide (grp.coalt.toNat ≤ s.clkSince q.2)
      | none => false
    let ready : Prop := min n.thr lanes.length ≤ k ∨ (1 ≤ k ∧ oldest = true) ∨ grp.coalt = 0 ∨ n.closed = true
    let sp : Split := (s.wave core (n.takers.headD 0 / 4)).splits.getD (n.takers.headD 0 % 4) {}
    (Issues T s → s.curGroup = none → Traps T s 0x05 0) ∧
    (Issues T s → s.curGroup = some grp → grp.inst = none → Traps T s 0x05 0) ∧
    (Issues T s → s.curGroup = some grp → grp.inst = some n → n.takers = [] → partKey s grp n.ringa = some h → s.saved = [] →
      s.badLs = [] →
      (ready → ∃ w, Completes T s (putGroup (takeRecords grp.gid h m cur (line grp.gid)) lanes d.toNat 4 w) ∧
        ∀ l ∈ lanes, ∀ i, i < 4 → let j := lanes.findIdx (· == l)
          (j < m → w l i = tuple j i) ∧ (m ≤ j → i = 3 → w l i = 0xFFFFFFFF) ∧
          (m ≤ j → i = 2 → w l i = if n.closed = true ∧ k = m then 1 else 0) ∧ (m ≤ j → i < 2 → w l i = 0)) ∧
      (¬ready → Waits T s 13 (line grp.gid))) ∧
    (s.arg = .nums [core, node] → (∀ g ∈ residents s core, g.inst = none) → Happens .takeCoaltExpiry s s) ∧
    (s.arg = .nums [core, node] → residents s core = [grp] → grp.inst = some n → n.node = node → n.takers ≠ [] →
      s.issuing core = true → mayIssue s core (n.takers.headD 0 / 4) (n.takers.headD 0 % 4) = true →
      wordAt sp.buf sp.pc.toNat = some x →
      Happens .takeCoaltExpiry s { s with cur := .wave core (n.takers.headD 0 / 4) (n.takers.headD 0 % 4), ir := x }))

/-- R286-R288: what climbers execute to traverse. `nbox` puts its result in p16-p31 and clears p15; `ntri` latches what it finds and
sets p12 for a candidate; `nlink` pops the nearest local entry, or the top link of a resident treelet, or sets p11 when nothing is
left, and asks for the canopy entry of another. The fetch and the second reading of SEQ as two steps are the model's choice (log
53). -/
def Obligations.Traversal : Prop :=
  ∀ (g : Guard) (tries : BitVec 4) (c k n at_ : Nat) (r : BitVec 512) (s : State),
    let t : Trav := curTrav s
    let miss : Option (Word × Word × Word) := some (0x7F800000, 0, 0xFFFFFFFF)
    let order : List Nat := hitOrder (s.updCurClimber fun v => { v with probe := none }) r.toNat
    let cleared : State := s.updCurClimber fun v => { v with probe := none }
    let base : State := putPred cleared 15 false
    let latched (v : Option (Word × Word × Word)) (u : State) : State := u.updCurClimber fun x => { x with latch := v }
    let flags (p q : Bool) (u : State) : State := putPred (putPred u 10 p) 11 q
    let top : Nat := (curReg s (11 + t.loc)).toNat
    let id : Nat := (curReg s (24 - t.lnk)).toNat % 2 ^ 22
    let good (o : Nat) : Prop := s.curClimber.probe = some (n, r) ∧ recordAddr s = some at_ ∧
      bitsAt r.toNat (8 * o) 16 = s.ls c (at_ + o) 2 ∧ bitsAt r.toNat (8 * o) 16 % 2 = 0
    s.cur = .climber c k → k < 256 → s.badLs = [] → s.memWf →
    (Issues (.nbox g tries) s → recordAddr s = none → Completes (.nbox g tries) s (setBoxPreds 0 false cleared)) ∧
    (Issues (.nbox g tries) s → good 56 → ∃ u, Completes (.nbox g tries) s u ∧
      (∀ j, 16 ≤ j → j < 32 → (u.preds c k).getLsbD j = (boxResult order).testBit (j - 16)) ∧
      (u.preds c k).getLsbD 15 = false ∧ (∀ j, j < 13 → (u.preds c k).getLsbD j = (s.preds c k).getLsbD j) ∧
      SameMemoryBut (lsKey c (0x2F0000 + 128 * k)) 112 s u) ∧
    (Issues (.nbox g tries) s → s.curClimber.probe = none → recordAddr s = some at_ → Happens (.nbox g tries) s
      (s.updCurClimber fun v => { v with probe := some (1, BitVec.ofNat 512 (s.ls c at_ 64)) })) ∧
    (Issues (.ntri g tries) s → recordAddr s = none →
      Completes (.ntri g tries) s (putPred (latched miss base) 12 false)) ∧
    (Issues (.ntri g tries) s → good 46 → triTest base r.toNat = none →
      Completes (.ntri g tries) s (putPred (latched miss base) 12 false)) ∧
    (∀ h, Issues (.ntri g tries) s → good 46 → triTest base r.toNat = some h → bitsAt r.toNat 352 1 = 0 → predBit base 4 = false →
      Completes (.ntri g tries) s (putPred (latched (some (h.t, BitVec.ofNat 32 (bary16 h.v * 2 ^ 16 + bary16 h.u),
        BitVec.ofNat 32 (bitsAt r.toNat 288 32))) base) 12 true)) ∧
    (Issues (.nlink g) s → t.loc ≠ 0 → Completes (.nlink g) s
      (flags (top / 2 ^ 30 == 1) false (setTrav { t with nloc := t.loc - 1, cur := top % 4096 } s))) ∧
    (Issues (.nlink g) s → t.loc = 0 → t.lnk = 0 → Completes (.nlink g) s (flags false true s)) ∧
    (Issues (.nlink g) s → t.loc = 0 → t.lnk ≠ 0 → (treeletAt s c id).isSome = true → Completes (.nlink g) s
      (flags false false (setTrav { t with nlnk := t.lnk - 1, cur := 0 } (setReg 11 (BitVec.ofNat 32 id) s)))) ∧
    (Issues (.nlink g) s → t.loc = 0 → t.lnk ≠ 0 → treeletAt s c id = none → s.curClimber.await = .none → ∃ m : Msg,
      m.arg = BitVec.ofNat 128 id ∧ m.key = s.curLid ∧ m.id = s.nextId ∧ Happens (.nlink g) s
        (leavePipe c k 4 (setAwait (.sent s.nextId) (s.freshId.post .canopyLookup (.msg m)))))

/-- R290: `hop`. Climbers only: in a wave it is ILLEGAL_INSTR. To its own core it retires as `nop`; to another core of the frame the
climber leaves, once its operations are answered, to go on there at the next word; a word with A[31:27] nonzero or a core outside
the frame raises BAD_POINTER. -/
def Obligations.Hops : Prop :=
  ∀ (g : Guard) (a : RegNo) (c k dest : Nat) (s : State),
    let i : Instr := .hop g a
    let x : Word := src s a.toNat 0
    i.encodeNat = some (rrrWord 0x69 g 0 a.toNat 0 0 0 0) ∧ decode 0x6900000200000000 = .ok (.hop .none 2) ∧
    (s.cur.isClimber = false → hold i s = some (.trap 0x01 s.ir s)) ∧
    (s.cur = .climber c k →
      (Issues i s → x.toNat < 2 ^ 27 → s.frameOf s.curLid x.toNat = some c → Completes i s s) ∧
      (Issues i s → x.toNat < 2 ^ 27 → s.frameOf s.curLid x.toNat = some dest → dest ≠ c → settledHere s = true →
        Happens i s (migrate x.toNat (s.curPc + 8) s)) ∧
      (Issues i s → x.toNat < 2 ^ 27 → s.frameOf s.curLid x.toNat = some dest → dest ≠ c → settledHere s = false → Happens i s s) ∧
      (Issues i s → (2 ^ 27 ≤ x.toNat ∨ s.frameOf s.curLid x.toNat = none) → Traps i s 0x17 (x.setWidth 64)))

/-- R293: `cand`, `rsync` and `fin`. A latched candidate is sent to the anchor record and counted, and is not when 15 are out; `rsync`
takes a lesser bound into c7; `fin` hands over at the end, once every operation is answered. R284, R294-R297: messages at an anchor
record in use: a hit minimum keeps the lesser bound and lowers PEND by one, a hand-over adds its count and, final, sets STATE 2; a
candidate is committed into the any-hit ring. A minimum or hand-over that names no record is counted, as is a candidate for a core
with no traversal node. The hit record is delivered when STATE is 2 and PEND is 0, after a posted store to the record too. -/
def Obligations.HitInstructions : Prop :=
  (∀ (g : Guard) (c k key id v : Nat) (time bary hitw : Word) (s : State),
    let t : Trav := curTrav s
    let bound : Word := BitVec.ofNat 32 (v / 2 ^ 32)
    let P : DWord := anchorOf s c k
    let found : Prop := predBit s 12 = true ∧ s.curClimber.latch = some (time, bary, hitw)
    s.cur = .climber c k →
    (Issues (.cand g) s → (predBit s 12 = false ∨ s.curClimber.latch = none) → Completes (.cand g) s (putPred s 12 false)) ∧
    (Issues (.cand g) s → found → time = 0x7F800000 → Completes (.cand g) s (putPred s 12 false)) ∧
    (Issues (.cand g) s → found → time ≠ 0x7F800000 → t.ncand = 15 → Completes (.cand g) s (putPred s 14 true)) ∧
    (Issues (.cand g) s → found → time ≠ 0x7F800000 → t.ncand ≠ 15 → anchorKey s s.curLid P = some key → ∃ m : Msg,
      m.tgt = key ∧ m.anch = P ∧ m.arg = BitVec.ofNat 128 ((curReg s 8).toNat + time.toNat * 2 ^ 32 + hitw.toNat * 2 ^ 64 +
        bary.toNat * 2 ^ 96) ∧
      Completes (.cand g) s (putPred (putPred (setTrav { t with ncand := t.ncand + 1 } (s.post .anyHitCandidate (.msg m))) 12 false)
        14 false)) ∧
    (Issues (.rsync g) s → s.curClimber.await = .answered id v 0 →
      Completes (.rsync g) s (if bound.toNat < (curReg s 7).toNat then setReg 7 bound s else s)) ∧
    (Issues (.rsync g) s → s.curClimber.await = .sent id → Happens (.rsync g) s s) ∧
    (Issues (.rsync g) s → s.curClimber.await = .none → anchorKey s s.curLid P = some key → isLsKey key = true → ∃ m : Msg,
      m.tgt = key ∧ m.aop = .minN64 ∧ m.sz = .d ∧ m.arg = BitVec.ofNat 128 (2 ^ 64 - 1) ∧ m.kind = 1 ∧ m.id = s.nextId ∧
      Happens (.rsync g) s (leavePipe c k 4 (setAwait (.sent s.nextId) (s.freshId.post .lsReductionAtomic (.msg m))))) ∧
    (Issues (.fin g) s → settledHere s = true → Happens (.fin g) s (endClimber s c k false 0 0)) ∧
    (Issues (.fin g) s → settledHere s = false → Happens (.fin g) s s) ∧
    (anchorKey s (s.clid c k) P = some key → ∃ m : Msg, m.tgt = key ∧ m.anch = P ∧
      m.imm = BitVec.ofNat 32 (2 ^ 31 + sentCount s c k % 2 ^ 16) ∧
      endClimber s c k false 0 0 = freeClimber (s.post .pendingCountEnd (.msg m)) c k)) ∧
  (∀ (m : Msg) (gr : Group) (tab : Anchors) (q : Group × Inst) (r : Touched) (s u : State),
    let k : Nat := m.tgt
    let off : Nat := m.anch.toNat % 2 ^ 35
    let settle (t : State) : State := settleAnchor gr tab k off t
    let at_ : Prop := targetSealed s m = false ∧ anchorGroup s k off = some (gr, tab) ∧ off % 32 = 0
    let bound : Nat := min (s.peek k 8) (m.arg.toNat % 2 ^ 64)
    s.arg = .msg m → s.badLs = [] → s.memWf →
    (targetSealed s m = false → anchorGroup s k off = none →
      (Happens .hitMinimum s (countMalformed (keyCore k) s) ∧ Happens .pendingCountEnd s (countMalformed (keyCore k) s))) ∧
    (targetSealed s m = false → anchorGroup s k off = none → (∀ g ∈ residents s (keyCore k), g.anchors = none) →
      Happens .anyHitCandidate s (countMalformed (keyCore k) s)) ∧
    (targetSealed s m = true →
      (Happens .hitMinimum s (s.postAll [undeliverable m]) ∧ Happens .pendingCountEnd s (s.postAll [undeliverable m]) ∧
        Happens .anyHitCandidate s (s.postAll [undeliverable m]))) ∧
    (at_ → anchorLive s k = true → Happens .hitMinimum s (settle (setPend k (pendOf s k - 1) (niSet k 8 bound s)))) ∧
    (at_ → anchorLive s k = false → Happens .hitMinimum s (settle (countEcnt k s))) ∧
    (at_ → anchorLive s k = true → m.imm.msb = false → Happens .pendingCountEnd s
      (settle (setPend k (pendOf s k + BitVec.ofNat 32 (m.imm.toNat % 2 ^ 16)) s))) ∧
    (at_ → anchorLive s k = false → Happens .pendingCountEnd s (settle (countEcnt k s))) ∧
    (at_ → instOnCore s gr tab.ahit = some q → putRecord q.1.gid (m.arg.setWidth 128) s = some u →
      Happens .anyHitCandidate s u) ∧
    (anchorState s k = 2 → pendOf s k = 0 → settle s = setAnchorState k 3 (deliverHit gr tab k off s)) ∧
    ((anchorState s k ≠ 2 ∨ pendOf s k ≠ 0) → settle s = s) ∧
    (isLsKey k = true → farOff s m = false → touchedBy s m = [r] → farOff (niPosted m s) m = false →
      Happens .postedStore s (settleAnchor r.group r.table r.key r.off (niPosted m s))) ∧
    (isLsKey k = true → isLsKey (k + 12) = true → keyCore (k + 12) = keyCore k → mirrorOf s (keyCore k) = none →
      word32 (setPend k (pendOf s k - 1) (niSet k 8 bound s)) (k + 8) = pendOf s k - 1 ∧
      SameMemoryBut k 12 s (setPend k (pendOf s k - 1) (niSet k 8 bound s))))

/-- R285, R150, R275: `climb` and where rays go. Each lane whose anchor record is free and whose ray is well formed starts a climber and
gets 0; a record in use gives 1, a malformed ray 2. A ray that arrives for a running launch takes the lowest free slot, or is
spilled; placed climbers enter one of 16 contexts in order and issue; spilled ones come back in order, but one whose line cannot be
read. The lowest free slot and the layout of the spill ring (log 49), and the fate of a spilled ray that cannot be read (log 89),
are the model's choices. -/
def Obligations.RayPlacement : Prop :=
  ∀ (g : Guard) (d a b c : RegNo) (tab : Anchors) (m : Msg) (core k : Nat) (ks : List Nat) (w : DWord) (s : State),
    let X (l : Nat) : Word := src s b.toNat l
    let entry : Word := src s (c.toNat + 1) (firstLane s g)
    let lanes : List Nat := active s g
    let C (l j : Nat) : Word := src s (a.toNat + j) l
    let ray := lanes.foldl (climbLane entry X C (src s c.toNat)) (s, [])
    let one (l : Nat) := climbLane entry X C (src s c.toNat) (s, []) l
    let rec_ (l : Nat) : Nat := lsKey s.curCore (X l).toNat
    let home : Nat := (s.frameOf m.id m.point).getD (keyCore m.tgt)
    let payload : Nat := bytesToNat (m.bytes.map (·.2))
    let count (u : State) : State := u.updCore home fun c => { c with raysReceived := c.raysReceived + 1 }
    let cc : Core := s.core core
    let old : State := touch (hbmAddr cc 0 / 128) 0 (pointOf s (hbmAddr cc 0) 0) s
    (s.badLs = [] → Issues (.climb g d a b c) s → s.curGroup.bind (·.anchors) = some tab →
      (∀ l ∈ lanes, (X l).toNat % 32 = 0 ∧ tab.base ≤ (X l).toNat ∧ (X l).toNat < tab.base + 32 * tab.count) → entry.toNat % 8 = 0 →
      Completes (.climb g d a b c) s (putLanes ray.1 lanes d.toNat fun l => ((ray.2.find? fun q => q.1 == l).map (·.2)).getD 0)) ∧
    (∀ l, (anchorLive s (rec_ l) = true → one l = (s, [(l, 1)])) ∧
      (anchorLive s (rec_ l) = false → badRay (C l) (src s c.toNat l) = true → one l = (s, [(l, 2)])) ∧
      (anchorLive s (rec_ l) = false → badRay (C l) (src s c.toNat l) = false → (one l).2 = [(l, 0)])) ∧
    (s.arg = .msg m → savedAt s m.id m.point = none → (s.core home).sealed = false →
      (∀ l, s.launch? m.id = some l → l.phase = .running → Happens .ray s (placeRay home m.id payload (count s))) ∧
      (s.launch? m.id = none → Happens .ray s (count s))) ∧
    (s.arg = .msg m → savedAt s m.id m.point = none → (s.core home).sealed = true → Happens .ray s
      { s with discarded := Sparse.upd 0 s.discarded (coreDie home) (· + 1) }) ∧
    (cc.spill = [] → cc.hbmSpill = [] → raySlot s core m.id = some k → placeRay core m.id payload s = fillSlot core k m.id payload s) ∧
    (cc.spill = [] → cc.hbmSpill = [] → raySlot s core m.id = none → placeRay core m.id payload s =
      (s.setLs core (0x2F8000 + cc.spillHead % 192 * 128) 128 payload).updCore core fun c => { c with spill := [m.id] }) ∧
    (s.arg = .nums [core] → cc.placedQ = k :: ks → cc.active.length < 16 → s.issuing core = true → Happens .climberContextEntry s
      ((s.setCst core k 2).updCore core fun c => { c with active := c.active ++ [k], placedQ := ks })) ∧
    (s.arg = .nums [core] → s.issuing core = true → cc.active.find? (climberReady s core) = some k → (s.climber core k).failed = none →
      (s.cpc core k).toNat < s.xbnd core → wordAt (s.climber core k).buf (s.cpc core k).toNat = some w → s.Inv →
      ∃ t, Happens .climberIssue s t ∧ t.cur = .climber core k ∧ t.ir = w ∧ t.mem = s.mem ∧ t.climbers = s.climbers) ∧
    (s.arg = .nums [core] → cc.spill = [] → Happens .climberSlotFree s s) ∧
    (∀ lid, s.arg = .nums [core] → cc.spill = [lid] → raySlot s core lid = some k → ∃ t, Happens .climberSlotFree s t ∧
      (s.Inv → (t.core core).spill = [] ∧ k ∈ (t.core core).placedQ)) ∧
    (s.arg = .msg m → m.bytes = [] → Happens .raySpillWrite s s) ∧
    (∀ t, s.arg = .msg m → homeWrite s (m.tgt / 128) 0 (pointOf s m.tgt 0) m.bytes .device 0 = some t → Happens .raySpillWrite s t) ∧
    (s.arg = .nums [core] → mayReload s core = true →
      let next (u : State) : State := u.updCore core fun c =>
        { c with hbmSpill := c.hbmSpill.tail, hbmHead := (c.hbmHead + 1) % (max 1 (c.spillBytes / 128)) }
      (readFault old (hbmAddr cc 0) 0 = none → Happens .raySpillReload s
        (next ((old.setLs core (spillAddr cc cc.spill.length) 128 (old.devRead (hbmAddr cc 0) 128 0)).updCore core fun c =>
          { c with spill := c.spill ++ c.hbmSpill.take 1 }))) ∧
      (readFault old (hbmAddr cc 0) 0 ≠ none → Happens .raySpillReload s (countFault (next old) (cc.hbmSpill.headD 0))))

/-- R282, R283, R291: the canopy table and page-ins. A lookup that the hall unit has cached is answered from the cache and counts a
visit; a page-in reads its image line by line into the arena and then completes, a replica once it is subscribed; an update is a
compare-and-swap of the entry; the timers of waiting climbers, of replication and of the visit counts act at their time and do
nothing before it. Granularity, waiters and what becomes of a full table are the model's choices (logs 50, 81). -/
def Obligations.TreeletPaging : Prop :=
  ∀ (m : Msg) (hall id lid : Nat) (c : Canopy) (p : PageIn) (e : CanopyEntry) (s : State),
    let h : Hall := s.hall hall
    let near : Nat := hallOf m.src.core
    let mine (x : Canopy) : Bool := x.lid == m.key && x.id == m.arg.toNat
    let visit (x : Canopy) : Canopy := if mine x then { x with visits := x.visits + 1 } else x
    let seen : State := s.updHall near fun h => { h with canopy := h.canopy.map visit }
    let paging : Prop := h.pageIns.find? (fun p => p.lid == lid && p.id == id) = some p ∧ CanopyEntry.ofBits p.entry.toNat = some e
    (s.arg = .msg m → (s.hall near).canopy.find? mine = some c → Happens .canopyLookup s (seen.postAll [answerMsg m c.entry.toNat 0])) ∧
    (s.arg = .msg m → (s.hall near).canopy.find? mine = none → canopyOf s m.key = none →
      Happens .canopyLookup s (s.postAll [answerMsg m (2 ^ 127) 0])) ∧
    (s.arg = .msg m → (s.hall m.point).pageIns = [] → canopyOf s m.key = none → Happens .canopyUpdate s s) ∧
    (s.arg = .msg m → (s.hall m.point).pageIns.find? (fun p => p.lid == m.key && p.id == m.id) = none → Happens .treeletPageInFill s s) ∧
    (∀ t v, s.arg = .msg m → (s.hall m.point).pageIns.find? (fun p => p.lid == m.key && p.id == m.id) = some p →
      CanopyEntry.ofBits p.entry.toNat = some e → (s.core p.core).sealed = false →
      readVa s m.point (launchCtx s p.lid) (e.img + p.done) 128 = (t, .ok v) → v < 2 ^ 1024 → t.memWf → ∃ u, Happens .treeletPageInFill s u ∧
        u.ls p.core (e.slot * 4096 + p.done) 128 = v ∧ u.agenda = t.agenda ++ [if p.done + 128 < (e.size + 1) * 4096
          then ⟨.treeletPageInFill, .msg m⟩ else ⟨.pageInComplete, .nums [m.point, m.id, p.lid]⟩]) ∧
    (∀ t, s.arg = .nums [hall, id, lid] → paging → p.replica = true → subscribeReplica p e s = (t, false) →
      Happens .pageInComplete s (dropPageIn hall p.lid id (dropReplica p.core id e t))) ∧
    (∀ t, s.arg = .nums [hall, id, lid] → paging → p.replica = true → subscribeReplica p e s = (t, true) → ∃ q : Msg,
      q.key = p.lid ∧ q.id = id ∧ q.kind = 2 ∧ q.arg = BitVec.ofNat 128 p.entry.toNat ∧ Happens .pageInComplete s
        ((addTreelet p.core id e.slot e.size t).postAll [⟨.canopyUpdate, .msg q⟩])) ∧
    (s.arg = .nums [hall, id, lid] → paging → p.replica = false → ∃ q : Msg, q.key = p.lid ∧ q.id = id ∧ q.kind = 1 ∧
      q.arg = BitVec.ofNat 128 (withState p.entry.toNat 1) ∧ Happens .pageInComplete s
        ((addTreelet p.core id e.slot e.size s).postAll [⟨.canopyUpdate, .msg q⟩])) ∧
    (s.arg = .nums [hall, id] → h.parked = [] → Happens .pagingReread s s) ∧
    (s.arg = .nums [hall, id] → h.parked = [] → Happens .pagingWaiterTimeout s s) ∧
    (s.arg = .nums [hall, id] → (∀ x ∈ h.canopy, x.visits < 4096) → Happens .replicationThreshold s s) ∧
    (∀ v t u va len, s.arg = .msg m → (s.hall m.point).pageIns = [] → canopyOf s m.key = some (va, len) → m.id < len →
      readVa s m.point (launchCtx s m.key) (va + 16 * m.id) 16 = (t, .ok v) → v = m.arg.toNat → canopyOf t m.key = some (va, len) →
      writeVa t m.point (launchCtx t m.key) (va + 16 * m.id) 16 m.arg2.toNat = (u, none) → Happens .canopyUpdate s u) ∧
    (∀ q since t v, s.arg = .nums [hall, id] → h.parked = [q] → q.id = id → h.pageIns = [] → h.rereads = [(q.lid, id, since)] →
      1024 ≤ s.clkSince since → readCanopy s hall q.lid id = (t, .ok v) → v % 4 ≠ 1 →
      Happens .pagingReread s (wakeWaiters hall q.lid id t)) ∧
    (∀ q v, s.arg = .nums [hall, id] → h.parked = [q] → q.id = id → 2 ^ 20 ≤ s.clkSince q.since →
      (readCanopy s hall q.lid id).2 = .ok v → v % 4 = 1 →
      Happens .pagingWaiterTimeout s (failClimber (s.updHall hall fun h => { h with parked := [] }) q.core q.slot 4 0)) ∧
    (∀ x q, s.arg = .nums [hall, id] → h.canopy = [x] → x.id = id → 4096 ≤ x.visits → h.pageIns = [] →
      CanopyEntry.ofBits x.entry.toNat = some e → 2 ≤ e.state → e.pol = 1 → e.nown < 4 →
      (imagePieces s (launchCtx s x.lid) 8 e.img ((e.size + 1) * 4096)).isSome = true →
      (pagingOrder s x.lid (imageDie s (launchCtx s x.lid) e.img) hall).find? (fun q => arenaFree s x.lid q.2 e.slot e.size) = some q →
      ∃ u, Happens .replicationThreshold s u ∧ (u.hall hall).pageIns = [⟨x.lid, id, q.2, x.entry, 0, true⟩] ∧
        u.agenda = s.agenda ++ [⟨.treeletPageInFill, .msg { src := deviceAt q.2 0xFFFF, point := hall, key := x.lid, id := id }⟩]) ∧
    (s.arg = .nums [hall] → 2 ^ 20 ≤ s.clkSince h.visitsAt → Happens .visitCountClear s (s.updHall hall fun h =>
      { h with visitsAt := s.clk, canopy := h.canopy.map fun x => { x with visits := 0 } })) ∧
    (s.arg = .nums [hall] → s.clkSince h.visitsAt < 2 ^ 20 → Happens .visitCountClear s s)

/-- R301, R306, R309: submission. `lnch` checks the address, sends the record with the wave's privilege, context and priority, waits for
the outcome and gives it; `lnchw` also waits for the launch to be over. A valid submission enters the arbiter's table under the next
id; an invalid one gives its reason, and a host ring's is reported. The host commits position p of a ring with p + 1; any other
value, or a position past the ring's next n, is counted. A submission of a wave or a ring has the lesser of PRIO and its bound; a
restart keeps its launch's. The order in which a record's faults are looked for (log 51) and a report's ARG (log 98) are the model's
choices. -/
def Obligations.Submissions : Prop :=
  ∀ (g : Guard) (d a : RegNo) (v x r id reason : Nat) (sub : Submission) (i slot value : Nat) (s t : State),
    let va : DWord := src64 s a.toNat (firstLane s g)
    let out (x : Nat) : State := putLanes s (active s g) d.toNat fun _ => BitVec.ofNat 32 x
    let sent (u : State) : State := (setAwait (.sent u.nextId) (submitHere va.toNat v u.nextId u).freshId)
    let read (u : State) : Prop := readVa s (hallOf s.curCore) s.curCtx va.toNat 128 = (u, .ok v)
    let good : Prop := ptrKind va = 0 ∧ va.toNat < 2 ^ 57 ∧ va.toNat % 128 = 0
    let free : Bool := readable s (hallOf s.curCore) s.curCtx va.toNat 128
    let served (u : State) : State := { u with ringTurn := Sparse.set 0 u.ringTurn sub.prio i }
    let bits (lo n : Nat) : Nat := bitsAt sub.record.toNat lo n
    let n : Nat := 2 ^ (ringOf s i).log2n
    let c : Word := ringWord s i 12
    let rec_ : BitVec 1024 := BitVec.ofNat 1024 (Memory.load s.mem (ringKey i (0x2000 + 128 * slot)) 128)
    (Issues (.lnch g d a) s → s.curAwait = .answered id x r → Completes (.lnch g d a) s (out x)) ∧
    (Issues (.lnchw g d a) s → s.curAwait = .answered id x r → launchOver s x = true → Completes (.lnchw g d a) s (out x)) ∧
    (Issues (.lnchw g d a) s → s.curAwait = .answered id x r → launchOver s x = false → Waits (.lnchw g d a) s 16 s) ∧
    (Issues (.lnch g d a) s → s.curAwait = .sent id → Waits (.lnch g d a) s 16 s) ∧
    (Issues (.lnch g d a) s → s.curAwait = .none → ptrKind va = 2 → s.privileged = false → Traps (.lnch g d a) s 0x18 va) ∧
    (Issues (.lnch g d a) s → s.curAwait = .none → (ptrKind va ≠ 2 ∨ s.privileged = true) → (ptrKind va ≠ 0 ∨ 2 ^ 57 ≤ va.toNat) →
      Traps (.lnch g d a) s 0x17 va) ∧
    (Issues (.lnch g d a) s → s.curAwait = .none → ptrKind va = 0 → va.toNat < 2 ^ 57 → va.toNat % 128 ≠ 0 →
      Traps (.lnch g d a) s 0x06 va) ∧
    (Issues (.lnch g d a) s → s.curAwait = .none → good → free = true → read t → Waits (.lnch g d a) s 16 (sent t)) ∧
    (Issues (.lnchw g d a) s → s.curAwait = .none → good → free = true → read t → Waits (.lnchw g d a) s 16 (sent t)) ∧
    (Issues (.lnch g d a) s → s.curAwait = .none → good → free = false → Waits (.lnch g d a) s 16 s) ∧
    (Issues (.lnchw g d a) s → s.curAwait = .none → good → free = false → Waits (.lnchw g d a) s 16 s) ∧
    (s.arg = .submit sub → sub.ring = none → isAgent sub.src = true → validate s sub = 0 → Happens .launchSubmit s
      ((acceptLaunch sub s).postAll [answerMsg { src := sub.src, id := sub.id } ((s.accepted + 1) % 2 ^ 31) 0])) ∧
    (s.arg = .submit sub → sub.ring = none → isAgent sub.src = true → validate s sub = reason → reason ≠ 0 → Happens .launchSubmit s
      (s.postAll [answerMsg { src := sub.src, id := sub.id } (2 ^ 31 + reason) 0])) ∧
    (s.arg = .submit sub → sub.ring = some i → validate s sub = 0 → Happens .launchSubmit s (served (acceptLaunch sub s))) ∧
    (s.arg = .submit sub → sub.ring = some i → validate s sub = reason → reason ≠ 0 → Happens .launchSubmit s
      (report (served s) (reportBits 1 0 0 0 reason i 0 sub.va s.clk 0))) ∧
    (s.arg = .submit sub → sub.ring = none → isAgent sub.src = false → validate s sub = reason → reason ≠ 0 → Happens .launchSubmit s
      (report s (reportBits 1 0 0 0 reason 0 0 sub.va s.clk 0))) ∧
    (∃ l : Launch, (acceptLaunch sub s).launches = s.launches ++ [l] ∧ (acceptLaunch sub s).accepted = s.accepted + 1 ∧
      l.lid = (s.accepted + 1) % 2 ^ 31 ∧ l.record = sub.record ∧ l.phase = .pending ∧ l.next = 0 ∧ l.order = s.accepted + 1 ∧
      l.sys = sub.record.getLsbD 25 ∧ ((sub.ring ≠ none ∨ isAgent sub.src = true) → l.prio = min (bits 16 4) sub.prio) ∧
      (sub.ring = none → isAgent sub.src = false → l.prio = sub.prio)) ∧
    (bits 0 8 ≠ 1 → validate s sub = 1) ∧
    (bits 0 8 = 1 → recReserved sub.record = false → recFieldsOk sub.record = true → recLevelsOk sub.record = false →
      validate s sub = 2) ∧
    (bits 0 8 = 1 → recReserved sub.record = false → recFieldsOk sub.record = false → validate s sub = 3) ∧
    (validate s sub = 0 → sub.priv = false → recSys sub.record = false) ∧
    (s.arg = .nums [i, slot, value] → i < 64 → (ringOf s i).log2n ≤ 8 → slot = c.toNat % n → BitVec.ofNat 32 value = c + 1 →
      ringWord s i (64 + 4 * ((c + 1).toNat % n)) ≠ c + 2 → s.memWf → ∃ u, Happens .hostRingCommit s u ∧ ringWord u i 12 = c + 1 ∧
        u.agenda = s.agenda ++ [⟨.launchSubmit, .submit { record := rec_, va := 0, ring := some i, src := .device
                                                          priv := (ringOf s i).priv, ctx := recCtx rec_, prio := (ringOf s i).prio }⟩]) ∧
    (s.arg = .nums [i, slot, value] → i < 64 → (ringOf s i).log2n ≤ 8 → slot < n →
      ((BitVec.ofNat 32 value - 1).toNat % n ≠ slot ∨ n ≤ (BitVec.ofNat 32 value - 1 - c).toNat) → s.memWf → ∃ u, Happens .hostRingCommit s u ∧ ringWord u i 52 = ringWord s i 52 + 1 ∧ u.agenda = s.agenda)

/-- R307, R310, R311, R345: placement. The gang at the head is placed whole, each group on the core the plan gives it; a placed group
takes the next id, enters the frame table, in which all of its logical hall that is not resident names the physical one, and its
waves start at ENTRY with every lane. A saved gang resumes whole. The plan is the model's choice where the spec leaves the core open
(logs 4, 30). -/
def Obligations.Placement : Prop :=
  ∀ (lid num lcore core gid : Nat) (l : Launch) (p : Plan) (q : Saved × Nat) (qs : List (Saved × Nat)) (s : State),
    let begun : State := s.updLaunch lid fun l => { l with phase := .running, next := l.next + p.cores.length }
    let u : State := commitGroup l num lcore core s
    let r : BitVec 1024 := l.record
    (s.arg = .nums [lid] → headLaunch s = some l → l.lid = lid → savedGang s l = [] → headPlan s l = some p →
      Happens .gangPlace s (p.cores.foldl (fun s q => commitGroup l q.1 (recCore s.pkg l.record q.1) q.2 s) begun)) ∧
    (s.arg = .nums [lid] → (headLaunch s = none ∨ (headLaunch s = some l ∧ (l.lid ≠ lid ∨ headPlan s l = none ∨ savedGang s l ≠ []))) →
      Happens .gangPlace s s) ∧
    (∃ g : Group, u.groups = s.groups ++ [g] ∧ u.placements = s.placements + 1 ∧ g.gid = s.placements + 1 ∧ g.lid = l.lid ∧
      g.num = num ∧ g.core = core ∧ g.lcore = lcore ∧ g.waves = recWaves r ∧ g.regs = recRegs r ∧ g.pb = recLsbase r ∧
      g.pl = recLsb r ∧ g.tvec = 0 ∧ g.pair = none ∧ g.slots.length ≤ recWaves r) ∧
    (⟨l.lid, lcore, core, none⟩ ∈ u.frames ∧ (∀ f ∈ s.frames, f.lid ≠ l.lid ∨ hallOf f.logical ≠ hallOf lcore → f ∈ u.frames) ∧
      (∀ f ∈ u.frames, f.lid = l.lid → f.logical = lcore → f.physical = core) ∧
      ∀ f ∈ u.frames, f.lid = l.lid → hallOf f.logical = hallOf lcore → (∀ r ∈ s.groups, r.lid = l.lid → r.lcore ≠ f.logical) →
        hallOf f.physical = hallOf core) ∧
    (∀ w ∈ openSlots s core, (s.wave core w).live = false ∧ (s.core core).supervisor ≠ some w ∧ w < 16) ∧
    (∀ gid index entry, (startWave gid index entry).live = true ∧ (startWave gid index entry).launchMask = 0xFFFFFFFF ∧
      (startWave gid index entry).splits.head? = some { live := true, pc := entry, mask := 0xFFFFFFFF }) ∧
    (s.arg = .nums [gid] → resumePlan s = some (l, q :: qs) → q.1.gid = gid →
      Happens .groupResume s ((q :: qs).foldl (fun s q => resumeOn l q.1 q.2 s) s)) ∧
    (s.arg = .nums [gid] → resumePlan s = none → Happens .groupResume s s) ∧
    (∀ a b, headLaunch s = some a → b ∈ s.launches → wantsPlace s b = true →
      launchRank b < launchRank a ∨ (launchRank b = launchRank a ∧ a.order ≤ b.order))

/-- R308, R352: the end of a launch. When its last group has exited and its operations are complete, CMPL is incremented, once, and its
frame goes. A launch that ends on a fault first stops, and, its operations answered, is reported and completes. -/
def Obligations.LaunchEnds : Prop :=
  ∀ (l : Launch) (r : EndReq) (s : State),
    let closed : State := closeLaunch l.lid s
    (s.arg = .nums [l.lid] → s.launch? l.lid = some l → mayComplete s l = true →
      Happens .launchCompletion s (closeLaunch l.lid (incrementCmpl l s))) ∧
    (s.arg = .nums [l.lid] → s.launch? l.lid = some l → mayComplete s l = false → Happens .launchCompletion s s) ∧
    (recCmpl l.record = 0 → incrementCmpl l s = s) ∧
    (∀ k slot, (recCmpl l.record).toNat % 4 = 0 → recCmpl l.record ≠ 0 → ptrKind (recCmpl l.record) = 1 →
      lsTarget s l.lid (recCmpl l.record) = some (k, slot) → isLsKey k = true → ∃ m : Msg, m.tgt = k ∧ m.va = recCmpl l.record ∧
        m.arg = 1 ∧ m.aop = .add ∧ m.sz = .w ∧ incrementCmpl l s = s.freshId.post .lsReductionAtomic (.msg m)) ∧
    (closed.frames = s.frames.filter (fun f => f.lid != l.lid) ∧
      closed.launches = s.launches.map (fun x => if x.lid == l.lid then { x with phase := .done, ops := [] } else x)) ∧
    (s.arg = .ending r → s.launch? r.lid = none → Happens .launchEndOnFault s s) ∧
    (s.arg = .ending r → s.launch? r.lid = some l → l.phase = .done → Happens .launchEndOnFault s s) ∧
    (s.arg = .ending r → s.launch? r.lid = some l → (l.phase = .pending ∨ l.phase = .running) →
      Happens .launchEndOnFault s (stopLaunch { r with core := recCore s.pkg l.record r.g } s)) ∧
    (s.arg = .ending r → s.launch? r.lid = some l → l.phase = .ending → l.fault = some r → launchQuiet l = true →
      Happens .launchEndOnFault s (finishEnding l r s)) ∧
    (s.arg = .ending r → s.launch? r.lid = some l → l.phase = .ending → (l.fault ≠ some r ∨ launchQuiet l = false) →
      Happens .launchEndOnFault s s) ∧
    (∀ x ∈ (stopLaunch r s).groups, x.lid ≠ r.lid) ∧
    (∀ v ∈ (stopLaunch r s).saved, v.group.lid ≠ r.lid) ∧
    (bitsAt l.record.toNat 448 64 = 0 → finishEnding l r s = closeLaunch l.lid (incrementCmpl l
      (report s (reportBits 2 r.core r.slot r.cause r.reason r.g r.lid r.faddr.toNat r.clk r.pc))))

/-- R71, R305, R307, R343-R346: pre-emption and saved groups. The gangs that the arbiter chooses are saved when nothing of them is in
flight, together or not at all; a paired one first closes its interval. `ctxsv` and `ctxld` give the image's bytes and the lowest
wave slot, or why not. Victims, order, the sub-layout of the image and what an image brings that the package keeps nothing of are
the model's choices (logs 29, 55, 56, 91). -/
def Obligations.SavedGroups : Prop :=
  ∀ (g : Guard) (d a : RegNo) (lid k x r id core logical physical img h : Nat) (l : Launch) (gr : Group) (v : Saved) (m : Msg) (s t u : State),
    let va : DWord := src64 s a.toNat (firstLane s g)
    let third : Word := src s (a.toNat + 2) (firstLane s g)
    let out (u : State) (x : Nat) : State := putLanes u (active u g) d.toNat fun _ => BitVec.ofNat 32 x
    let gs : List Group := gangGroups s l k
    let read (u : State) (n h : Nat) : Prop := readVa s (hallOf s.curCore) s.curCtx va.toNat n = (u, .ok h)
    let names (o : Option Group) : Prop := ptrKind va = 0 ∧ va.toNat < 2 ^ 57 ∧ va.toNat % 128 = 0 ∧
      (residents s s.curCore).find? (fun t => t.slots.contains (third.toNat % 32)) = o
    let loads : Prop := ptrKind va = 0 ∧ va.toNat < 2 ^ 57 ∧ va.toNat % 128 = 0 ∧
      readable s (hallOf s.curCore) s.curCtx va.toNat 256 = true
    let finds : Prop := loads ∧ third = 0 ∧ read t 256 h ∧ headerNames t va.toNat t.curCtx h = some (l, v)
    let leaves : Prop := names (some gr) ∧ gr.gid ≠ s.curWave.gid ∧ gangShared s gr = false
    let writable : Prop := gr.pair = none ∧ mayLeave s gr = true ∧ vaFree s s.curCtx va.toNat (imageLength s gr) = true ∧
      sectionsBad s gr = false
    let trouble : State × Option Nat := lineTrouble (hallOf s.curCore) s.curCtx (imageLength s gr / 128) s va.toNat
    (s.arg = .nums [lid, k] → s.launch? lid = some l → (victims s).contains (lid, k) = false → Happens .gangPreempt s s) ∧
    (s.arg = .nums [lid, k] → s.launch? lid = some l → (victims s).contains (lid, k) = true → (∀ x ∈ gs, x.pair = none) →
      gs.all (mayLeave s) = true → Happens .gangPreempt s (saveAll gs s)) ∧
    (s.arg = .nums [lid, k] → s.launch? lid = some l → (victims s).contains (lid, k) = true → (∃ x ∈ gs, x.pair.isSome = true) →
      Happens .gangPreempt s ((gs.filter fun g => g.pair.isSome).foldl (fun s g => closePairing g s) s)) ∧
    (gs.any (sectionsBad s) = false → imagePlaces s gs [] = none → saveAll gs s = s) ∧
    (gs.any (sectionsBad s) = true → saveAll gs s = (gs.filter (sectionsBad s)).foldl (fun s g => sealCore g.core s) s) ∧
    (s.arg = .ctrl (.preempt gr.gid) → s.group? gr.gid = some gr → (gangWith s gr).all (mayLeave s) = true →
      Happens .preemptionSealFrameCommand s (saveAll (gangWith s gr) s)) ∧
    (s.arg = .ctrl (.seal core) → Happens .preemptionSealFrameCommand s (sealCore core s)) ∧
    (s.arg = .ctrl (.frame lid logical physical) → Happens .preemptionSealFrameCommand s
      (setFrame lid logical physical s)) ∧
    (s.arg = .msg m → isLsKey m.tgt = true → isAgent m.src = false → Happens .preemptionSaveRestoreLine s
      { s with mem := Memory.writeCells s.mem m.bytes }) ∧
    (s.arg = .msg m → isLsKey m.tgt = false → homeWrite s (m.tgt / 128) m.key m.point m.bytes .device 0 = some u → isAgent m.src = true →
      Happens .preemptionSaveRestoreLine s (u.postAll [answerMsg m m.arg.toNat 0])) ∧
    (Issues (.ctxsv g d a) s → s.curAwait = .answered id x r → Completes (.ctxsv g d a) s (out s x)) ∧
    (Issues (.ctxsv g d a) s → s.curAwait = .sent id → Waits (.ctxsv g d a) s 16 s) ∧
    (Issues (.ctxsv g d a) s → s.curAwait = .none → (ptrKind va ≠ 0 ∨ 2 ^ 57 ≤ va.toNat) → Traps (.ctxsv g d a) s 0x17 va) ∧
    (Issues (.ctxsv g d a) s → s.curAwait = .none → ptrKind va = 0 → va.toNat < 2 ^ 57 → va.toNat % 128 ≠ 0 →
      Traps (.ctxsv g d a) s 0x06 va) ∧
    (Issues (.ctxsv g d a) s → s.curAwait = .none → (names none ∨ (names (some gr) ∧ gr.gid = s.curWave.gid)) →
      Completes (.ctxsv g d a) s (out s 0x80000001)) ∧
    (Issues (.ctxsv g d a) s → s.curAwait = .none → names (some gr) → gr.gid ≠ s.curWave.gid →
      gangShared s gr = true → Completes (.ctxsv g d a) s (out s 0x80000003)) ∧
    (Issues (.ctxsv g d a) s → s.curAwait = .none → leaves → gr.pair.isSome = true → Waits (.ctxsv g d a) s 16 (closePairing gr s)) ∧
    (Issues (.ctxsv g d a) s → s.curAwait = .none → leaves → gr.pair = none →
      (mayLeave s gr = false ∨ vaFree s s.curCtx va.toNat (imageLength s gr) = false) → Waits (.ctxsv g d a) s 16 s) ∧
    (Issues (.ctxsv g d a) s → s.curAwait = .none → leaves → writable → trouble = (t, some r) →
      Completes (.ctxsv g d a) s (out t (0x80000005 + r * 16))) ∧
    (Issues (.ctxsv g d a) s → s.curAwait = .none → leaves → writable → trouble = (t, none) →
      Waits (.ctxsv g d a) s 16 (saveGroup gr t.curCtx va.toNat false (issuerOf t 0x7D 0) t.nextId (setAwait (.sent t.nextId) t.freshId))) ∧
    (Issues (.ctxld g d a) s → (ptrKind va ≠ 0 ∨ 2 ^ 57 ≤ va.toNat) → Traps (.ctxld g d a) s 0x17 va) ∧
    (Issues (.ctxld g d a) s → loads → third = 0 → read t 256 h → headerNames t va.toNat t.curCtx h = none →
      Completes (.ctxld g d a) s (out t 0x80000001)) ∧
    (Issues (.ctxld g d a) s → finds → fitsBut t l v s.curCore = false → Completes (.ctxld g d a) s (out t 0x80000003)) ∧
    (Issues (.ctxld g d a) s → finds → fitsBut t l v s.curCore = true → fitsSaved t l v s.curCore = false →
      Waits (.ctxld g d a) s 16 (if v.turn.isSome then setAwait .resuming t else t)) ∧
    (Issues (.ctxld g d a) s → finds → fitsSaved t l v s.curCore = true →
      readImage (hallOf s.curCore) v t = (u, .ok img) →
      Completes (.ctxld g d a) s (out (restoreGroup l v s.curCore img u) (((newSlots u v s.curCore).map (·.2)).headD 0))) ∧
    (Issues (.ctxld g d a) s → finds → fitsSaved t l v s.curCore = true →
      readImage (hallOf s.curCore) v t = (u, .error r) → Completes (.ctxld g d a) s (out u 0x80000001)) ∧
    (Issues (.ctxld g d a) s → loads → third = 0 → readVa s (hallOf s.curCore) s.curCtx va.toNat 256 = (t, .error r) →
      Completes (.ctxld g d a) s (out t 0x80000001)) ∧
    (Issues (.ctxld g d a) s → loads → third ≠ 0 → Traps (.ctxld g d a) s 0x01 s.ir) ∧
    (∀ g ∈ s.groups, mayLeave s g = true → g.pair = none ∧
      ∀ w ∈ g.slots, (s.wave g.core w).block = none ∧ (s.wave g.core w).leases = [] ∧ (s.wave g.core w).atms = [])

/-- R347, R349, R351, R374: halting and sealing. `halt` stops its core and `halt_all` every core of the package; commands resume them,
not while the package is too hot. A sealed core's supervisor takes the lowest healthy core of the die with room for it, made where
there is none, and ends the launches that had a group there; sealing twice is sealing once. What the supervisor's wave needs of a
core (log 34), when a core has stopped (log 57) and the layouts of the mailbox (log 44) are the model's. -/
def Obligations.Halting : Prop :=
  ∀ (g : Guard) (core temp die : Nat) (s : State),
    let halted (u : State) : State := u.updCore core fun c => { c with halted := true }
    let resumed (u : State) : State := u.updCore core fun c => { c with halted := false, haltBy := none }
    let hot : State := (allCores s).foldr setHalted s
    let byMe (u : State) : State := u.updCore s.curCore fun c => { c with haltBy := some (s.cur.slot * 4 + s.cur.split) }
    let answered (u : State) (status : Nat) : State := { u with reply := some ⟨0xC030, status, [], .success⟩ }
    let healthy : List Nat := ((List.range 40).flatMap fun i => hallCores s.pkg (die * 40 + i)).filter fun c => !s.outOfService c
    let placed (c : Nat) : State := ({ s with supervisors := Sparse.set none s.supervisors die (some c) }).updCore c fun v =>
      { v with supervisor := (openSlots s c).head? }
    (Issues (.halt g) s → Completes (.halt g) s (byMe (s.updCore s.curCore fun c => { c with halted := true }))) ∧
    (Issues (.haltAll g) s → Completes (.haltAll g) s (byMe (hot.updCore s.curCore fun c => { c with halted := true }))) ∧
    (∀ slot p, (s.core core).halted = true → (s.core core).haltBy = some (slot * 4 + p) → mayIssue s core slot p = false) ∧
    (s.Inv → core ∈ allCores s → (hot.core core).halted = true) ∧
    (s.stopped core = true → s.issuing core = false) ∧
    (s.arg = .nums [core, temp] → (s.thermal = false ∨ temp < 95) → Happens .ieee11491Resume s (resumed { s with thermal := false })) ∧
    (s.arg = .nums [core, temp] → s.thermal = true → 95 ≤ temp → Happens .ieee11491Resume s s) ∧
    (s.min = false → s.arg = .nums [core, 0, temp] → coreExists core = true → Happens .haltOrResume s (answered (halted s) 0)) ∧
    (s.min = false → s.arg = .nums [core, 1, temp] → coreExists core = true → (s.thermal = false ∨ temp < 95) →
      Happens .haltOrResume s (answered (resumed { s with thermal := false }) 0)) ∧
    (s.min = false → s.arg = .nums [core, 1, temp] → coreExists core = true → s.thermal = true → 95 ≤ temp →
      Happens .haltOrResume s (answered s 2)) ∧
    (s.thermal = true → Happens .thermalHalt s s) ∧
    (s.thermal = false → Happens .thermalHalt s
      (report { hot with thermal := true, msix := s.msix ++ [2] } (reportBits 8 0 0 0 0 0 0 0 s.clk 0))) ∧
    (s.arg = .nums [die, core] → ((∃ c ∈ healthy, (s.core c).supervisor.isSome = true) ∨ healthy = []) →
      Happens .supervisorPlace s (supervise die core s)) ∧
    (s.arg = .nums [die, core] → (∀ c ∈ healthy, (s.core c).supervisor = none) → healthy.find? (supervisorFits s) = some temp →
      Happens .supervisorPlace s ((placed temp).post .supervisorPlace (.nums [die, core]))) ∧
    (s.arg = .nums [die, core] → (∀ c ∈ healthy, (s.core c).supervisor = none) → healthy ≠ [] → healthy.find? (supervisorFits s) = none →
      Happens .supervisorPlace s ((preemptGang (supervisorVictims s die) s).post .supervisorPlace (.nums [die, core]))) ∧
    (∀ r ∈ residents s core, ∃ e : EndReq, e.lid = r.lid ∧ e.g = r.num ∧ e.cause = 0x19 ∧
      ⟨.launchEndOnFault, .ending e⟩ ∈ (supervise die core s).agenda) ∧
    ((s.core core).sealed = true → sealCore core s = s) ∧
    ((s.core core).sealed = false → ∃ u : State, sealCore core s =
      (report u (reportBits 3 core 0 0x19 0 0 0 0 u.clk 0)).post .supervisorPlace (.nums [coreDie core, core]))

/-- R353-R357: `pair`, `unpair`, `fpck` and intervals. `pair` gives 3, 2 or 4 where it is refused, waits for its partner, and gives 0
once paired or 1 after 2^20 counts; an interval closes when both groups are done with it, matches when the fingerprints are equal,
and is otherwise rolled back; `unpair` gives 1, and `fpck` 0, with no pairing, and both wait for the open interval to match. A
pairing starts with nothing matched and a checkpoint of the registers, CSRs, barriers, bindings, stacks and save areas; a rollback
puts them back, and undoes the interval's stores in the local store; the second mismatch of an interval ends the pairing and raises
PAIR_MISMATCH in both groups. Details of pairing are the model's choices (log 58). -/
def Obligations.Pairing : Prop :=
  ∀ (g : Guard) (d a : RegNo) (gr h : Group) (id x r n w dir since : Nat) (ps : List Nat) (p : Sys2Proof.Machine.Pairing) (a' b' : DWord) (s : State),
    let v : Word := src s a.toNat (firstLane s g)
    let out (x : Nat) : State := putLanes s (active s g) d.toNat fun _ => BitVec.ofNat 32 x
    let free (u : State) : State := u.updCurWave (unask s.cur.split)
    let mask : List Nat := active s g
    let late (w : Wave) (p : Nat) : Wave := w.updSplit p fun sp => { sp with await := .answered 0 1 0 }
    let asked : State := if ps.contains s.cur.split then s else
      s.updCurWave fun w => { w with pairing := some (dir, since, ps ++ [s.cur.split]) }
    let asking : Prop := s.curGroup = some gr ∧ s.curAwait = .none ∧ s.curWave.pairing = some (dir, since, ps) ∧ gr.pair = none
    let u : State := joinPair gr h dir s
    let c : Checkpoint := p.check
    let b : State := rollBack gr.gid s
    let marked (s : State) (gid : Nat) : State :=
      showPairing gid (s.updGroup gid fun g => { g with pair := g.pair.map fun p => { p with roll := true, rerun := true } })
    let fresh (q : Sys2Proof.Machine.Pairing) (x y : Group) (e : Nat) : Prop := q.partner = y.core ∧ q.dir = e ∧ q.low = decide (x.lcore < y.lcore) ∧
      q.matched = 0 ∧ q.roll = false ∧ q.rerun = false ∧ q.held = [] ∧ q.leaving = false ∧ q.check.log = [] ∧
      q.check.regs = (x.slots.map fun w => (w, Sparse.get [] s.regs (waveKey x.core w))) ∧
      q.check.csrs = [x.tvec, x.cregb, x.cregl, x.ifw, x.ifh, x.coalt] ∧ q.check.bars = x.bars ∧ q.check.binds = x.binds ∧
      q.check.stackBytes = x.slots.map fun w => (w, s.ls x.core (stackAddr w 0 0) 256, s.ls x.core (saveArea w) 192)
    let lo : Group := if gr.pair.any (·.low) then gr else h
    let hi : Group := if gr.pair.any (·.low) then h else gr
    (Issues (.pair g d a) s → s.curGroup = some gr → s.curAwait = .answered id x r → Completes (.pair g d a) s (free (out x))) ∧
    (Issues (.pair g d a) s → s.curGroup = some gr → s.curAwait = .none → s.curWave.pairing = none → pairRefuses s gr v = some x →
      Completes (.pair g d a) s (free (out x))) ∧
    (Issues (.pair g d a) s → s.curGroup = some gr → s.curAwait = .none → s.curWave.pairing = none → pairRefuses s gr v = none →
      Waits (.pair g d a) s 16 (s.updCurWave fun w => { w with pairing := some (v.toNat % 4, s.clk, [s.cur.split]) })) ∧
    (Issues (.pair g d a) s → s.curGroup = some gr → s.curAwait = .none → s.curWave.pairing = some (dir, since, ps) →
      gr.pair.isSome = true → Completes (.pair g d a) s (free (out 0))) ∧
    (Issues (.pair g d a) s → asking → partnerGroup asked gr dir = none → Waits (.pair g d a) s 16 asked) ∧
    (Issues (.pair g d a) s → asking → partnerGroup asked gr dir = some h →
      (allAsk asked gr dir && allAsk asked h ((dir + 2) % 4)) = false → Waits (.pair g d a) s 16 asked) ∧
    (Issues (.pair g d a) s → asking → partnerGroup asked gr dir = some h →
      (allAsk asked gr dir && allAsk asked h ((dir + 2) % 4)) = true → Waits (.pair g d a) s 16 (joinPair gr h dir asked)) ∧
    (s.group? gr.gid = some gr → s.group? h.gid = some h → gr.gid ≠ h.gid → ∃ p q : Sys2Proof.Machine.Pairing,
      u.group? gr.gid = some { gr with pair := some p } ∧ u.group? h.gid = some { h with pair := some q } ∧
      fresh p gr h dir ∧ fresh q h gr ((dir + 2) % 4) ∧ u.mem = s.mem ∧ u.regs = s.regs ∧ u.agenda = s.agenda) ∧
    ((4 ≤ v.toNat ∨ gr.pair.isSome = true) → pairRefuses s gr v = some 3) ∧
    (Issues (.unpair g d) s → s.curAwait = .none → matchedHere s = none → Completes (.unpair g d) s (out 1)) ∧
    (Issues (.unpair g d) s → s.curAwait = .none → matchedHere s = some n →
      Waits (.unpair g d) s 16 (stopHere n (fun p => { p with leaving := true }) s)) ∧
    (Issues (.unpair g d) s → s.curAwait = .answered id x r → matchedHere s = none → Completes (.unpair g d) s (out 0)) ∧
    (Issues (.unpair g d) s → s.curAwait = .answered id x r → matchedHere s = some n → (r = 0x201 ∨ x < n) →
      Completes (.unpair g d) s (out 0)) ∧
    (Issues (.unpair g d) s → s.curAwait = .answered id x r → matchedHere s = some n → r ≠ 0x201 → n ≤ x →
      Waits (.unpair g d) s 16 (stopHere x (fun p => { p with leaving := true }) s)) ∧
    (Issues (.fpck g d) s → s.curAwait = .none → matchedHere s = none →
      Completes (.fpck g d) s (putLanes64 s mask d.toNat fun _ => 0)) ∧
    (Issues (.fpck g d) s → s.curAwait = .none → matchedHere s = some n → Waits (.fpck g d) s 16 (stopHere n (fun p => p) s)) ∧
    (Issues (.fpck g d) s → s.curAwait = .answered id x 0x200 → matchedHere s = some n → x < n →
      Completes (.fpck g d) s (putLanes64 s mask d.toNat fun _ => lastPrint s)) ∧
    (Issues (.fpck g d) s → s.curAwait = .answered id x 0x201 →
      Completes (.fpck g d) s (putLanes64 s mask d.toNat fun _ => BitVec.ofNat 64 x)) ∧
    (Issues (.fpck g d) s → s.curAwait = .answered id x 0x200 → matchedHere s = none →
      Completes (.fpck g d) s (putLanes64 s mask d.toNat fun _ => 0)) ∧
    (Issues (.fpck g d) s → s.curAwait = .answered id x 0x200 → matchedHere s = some n → n ≤ x →
      Waits (.fpck g d) s 16 (stopHere x (fun p => p) s)) ∧
    (s.arg = .nums [gr.gid] → s.group? gr.gid = some gr → gr.slots = [w] → pairLate s gr = true →
      (s.wave gr.core w).pairing = some (dir, since, ps) →
      Happens .pairTimeout s (s.updWave gr.core w fun w => { ps.foldl late w with pairing := none })) ∧
    (s.arg = .nums [gr.gid] → s.group? gr.gid = some gr → pairLate s gr = false → Happens .pairTimeout s s) ∧
    (s.arg = .nums [gr.gid] → s.group? gr.gid = some gr → mateOf s gr = some h → groupQuiet s gr = true → groupQuiet s h = true →
      groupPrint s lo = groupPrint s hi → Happens .pairIntervalClose s (settlePair lo hi (matchInterval lo hi (groupPrint s lo) s))) ∧
    (s.arg = .nums [gr.gid] → s.group? gr.gid = some gr → mateOf s gr = some h → groupQuiet s gr = true → groupQuiet s h = true →
      groupPrint s lo ≠ groupPrint s hi → Happens .pairIntervalClose s (failInterval lo hi (groupPrint s lo) (groupPrint s hi) s)) ∧
    (s.arg = .nums [gr.gid] → s.group? gr.gid = some gr → mateOf s gr = some h → (groupQuiet s gr = false ∨ groupQuiet s h = false) →
      Happens .pairIntervalClose s s) ∧
    (s.arg = .nums [gr.gid] → s.group? gr.gid = some gr → mateOf s gr = none →
      Happens .pairIntervalClose s (endIfOver gr.gid (endPairing gr.gid s))) ∧
    (h.pair = some p → p.rerun = false → failInterval h gr a' b' s = marked (marked (rollBack gr.gid (rollBack h.gid s)) h.gid) gr.gid) ∧
    (h.pair = some p → p.rerun = true → failInterval h gr a' b' s = raiseMismatch gr.gid (a' ^^^ b') (raiseMismatch h.gid (a' ^^^ b')
      (endPairing gr.gid (endPairing h.gid (rollBack gr.gid (rollBack h.gid s)))))) ∧
    (s.group? gr.gid = some gr → gr.pair = some p → rises s.regs = true →
      (b.group? gr.gid = some { withCsrs gr c.csrs with
        bars := c.bars, binds := c.binds, pair := some { p with held := [], leaving := false, check := { c with log := [] } } }) ∧
      ((c.regs.map (·.1)).Nodup → ∀ w v, (w, v) ∈ c.regs → Sparse.get [] b.regs (waveKey gr.core w) = v) ∧
      (∃ r : State, r.mem = Memory.writeCells s.mem c.log ∧ b.mem = (c.stackBytes.foldl (fun s (q : Nat × Nat × Nat) =>
        (s.setLs gr.core (stackAddr q.1 0 0) 256 q.2.1).setLs gr.core (saveArea q.1) 192 q.2.2) r).mem) ∧
      (p.low = false → ∀ t ∈ b.agenda, t ∈ s.agenda))

/-- R77, R78, R82, R348: shootdowns. `tlbi` waits until its shootdown completes and gives 0; a shootdown drops the cached translations
of its range everywhere, and completes when no operation translated before it is still on its way, whatever its message has become,
or held by a pair or a bias flip. A walk reads its entries through their homes, and one that succeeds is cached. The purge at the
start (log 39) and which entries a full cache keeps (log 71) are the model's choices. -/
def Obligations.Shootdowns : Prop :=
  ∀ (g : Guard) (dom : Bool) (d a : RegNo) (h ctx va len id x r all : Nat) (f : Leaf) (sh : Shoot) (i : Issuer) (s : State),
    let l : Nat := firstLane s g
    let at_ : Nat := (src64 s a.toNat l).toNat / 65536 * 65536
    let n : Nat := ((src s (a.toNat + 2) l).toNat + 65535) / 65536 * 65536
    let c : Nat := (src s (a.toNat + 3) l).toNat
    let done : State := { s with shoots := s.shoots.filter fun g => g.id != id }
    let u : State := startShoot ctx va len false .host s
    let wc : List WalkEntry := (s.hall h).walks
    let home (s : State) (a : Nat) : State := touch (a / 128) 0 (packageHall (a / 128 % 2 ^ 33)) s
    let read : State := (walkReads s wc ctx va walkLevels (s.root ctx)).foldl home s
    let begun : State := startShoot ctx (va / 65536 * 65536) ((len + 65535) / 65536 * 65536) (all == 1) .host s
    (Issues (.tlbi g dom d a) s → s.curAwait = .none → c < 512 → Waits (.tlbi g dom d a) s 16
      (setAwait (.sent s.nextId) (startShoot (c % 256) at_ n (c / 256 == 1) (.wave (issuerOf s 0x7C 0)) s))) ∧
    (Issues (.tlbi g dom d a) s → s.curAwait = .none → 512 ≤ c → Traps (.tlbi g dom d a) s 0x01 s.ir) ∧
    (Issues (.tlbi g dom d a) s → s.curAwait = .sent id → Waits (.tlbi g dom d a) s 16 s) ∧
    (Issues (.tlbi g dom d a) s → s.curAwait = .answered id x r → Completes (.tlbi g dom d a) s (putLanes s (active s g) d.toNat fun _ => 0)) ∧
    (∀ w ∈ u.halls, ∀ t ∈ w.2.tlb, t.ctx = ctx → len ≠ 0 → (va + len ≤ t.va ∨ t.va + t.bytes ≤ va)) ∧
    (∀ w ∈ u.halls, ∀ t ∈ w.2.tlb, len = 0 → t.ctx ≠ ctx) ∧
    (u.mem = s.mem ∧ u.agenda = s.agenda ∧ u.cores = s.cores ∧ u.regs = s.regs) ∧
    (s.arg = .nums [id] → s.shoots.find? (fun h => h.id == id && shootDone s h) = some sh → sh.why = .wave i →
      Happens .shootdownComplete s (answer done i sh.id 0 0)) ∧
    (s.arg = .nums [id] → s.shoots.find? (fun h => h.id == id && shootDone s h) = some sh → sh.why = .host →
      Happens .shootdownComplete s (endBackground 0 [] done)) ∧
    (s.arg = .nums [id] → s.shoots.find? (fun h => h.id == id && shootDone s h) = none → Happens .shootdownComplete s s) ∧
    ((∀ t ∈ sh.left, ∀ x ∈ unapplied s sh.why, sameOp t x = false) ↔ shootDone s sh = true) ∧
    (∀ t w, (t ∈ s.agenda ∨ (∃ x ∈ s.lines, t ∈ x.2.queue) ∨ (∃ y ∈ s.groups, ∃ p, y.pair = some p ∧ t ∈ p.held) ∨
      (∃ p ∈ s.pageOps, p.move = false ∧ w ≠ .flip p.id ∧ t ∈ p.queue)) → t ∈ unapplied s w) ∧
    (s.min = false → s.background = none → s.arg = .nums [ctx, va, len, all] → ctx < 256 → Happens .hostShootdown s
      { begun with background := some 0xC015, reply := some ⟨0xC015, 0, [], .backgroundStarted⟩ }) ∧
    (s.min = false → s.background.isSome = true → Happens .hostShootdown s { s with reply := some ⟨0xC015, 4, [], .success⟩ }) ∧
    (∀ t, s.arg = .nums [h, ctx, va] → cached (s.hall h) ctx va = some t → Happens .pageWalk s s) ∧
    (s.arg = .nums [h, ctx, va] → cached (s.hall h) ctx va = none → walkWith s wc ctx va = .ok f → Happens .pageWalk s
      (read.updHall h fun x => cacheLeaf x ctx va f)) ∧
    (∀ e, s.arg = .nums [h, ctx, va] → cached (s.hall h) ctx va = none → walkWith s wc ctx va = .error e → Happens .pageWalk s read)

/-- R69, R72, R85, R88-R91: what the host writes of translations, and page operations. A root is the context's from then on; a key slot
holds its key unless the slots are locked; a region entry takes its place; a bias flip and a page move begin by marking the page, go
on when the page is quiet, and hand the requests they held to the page's home. The mailbox layouts and the steps of a flip are the
model's choices (logs 40, 44). -/
def Obligations.PageOperations : Prop :=
  ∀ (ctx root slot va dpa retire r e id : Nat) (value : Option (BitVec 512)) (lock secured : Bool) (f : Leaf) (p : PageOp) (s : State),
    let answered (op status : Nat) (u : State) : State := { u with reply := some ⟨op, status, [], .success⟩ }
    let started (op : Nat) (u : State) : State := { u with background := some op, reply := some ⟨op, 0, [], .backgroundStarted⟩ }
    let flip : PageOp := pageOpOf s ctx va f false false (ptePa f.pte)
    let moving : PageOp := pageOpOf s ctx va f true (retire == 1) dpa
    let keyed : State := { s with
      keys := Sparse.set none s.keys slot value
      lines := s.lines.map fun (l : Nat × Line) =>
        if l.2.tag = slot && l.2.state = .dirty then (l.1, { l.2 with key := value }) else l }
    let port : Link := Sparse.get {} s.ports (e / 2 ^ 60 % 4)
    let old : Nat := (Sparse.get 0 s.regions r).toNat / 2 ^ 62
    let k : Nat := pteKey (s.devRead p.pte 16 0)
    let shot : State := { s with shoots := s.shoots.filter fun g => g.id != id }
    s.min = false →
    (s.arg = .nums [ctx, root] → ctx < 256 → root < 2 ^ 64 → rises s.roots = true →
      ∃ u, Happens .setContextRoot s (answered 0xC010 0 u) ∧ u.root ctx = root ∧ (∀ c, c ≠ ctx → u.root c = s.root c) ∧ u.mem = s.mem) ∧
    (s.arg = .nums [ctx, root] → 256 ≤ ctx → Happens .setContextRoot s (answered 0xC010 1 s)) ∧
    (s.arg = .key slot value lock secured → s.keyLock = true → (secured = false ∨ s.spdm.session = false) →
      Happens .loadKeySlot s (answered 0xC011 3 s)) ∧
    (s.arg = .key slot value false secured → s.keyLock = false → 0 < slot → slot < 64 → Happens .loadKeySlot s (answered 0xC011 0 keyed)) ∧
    (s.arg = .key slot value true secured → s.keyLock = false → Happens .loadKeySlot s (answered 0xC011 0 { s with keyLock := true })) ∧
    (s.arg = .nums [r, e] → r < 4096 → e < 2 ^ 64 → e / 2 ^ 62 ≠ 0 → (old ≠ 2 ∨ e / 2 ^ 62 ≠ 1 ∨ port.active = true) →
      Happens .writePoolRegionEntry s (answered 0xC012 0 { s with regions := Sparse.set 0 s.regions r (BitVec.ofNat 64 e) })) ∧
    (s.arg = .nums [r, e] → r < 4096 → e < 2 ^ 64 → old = 2 → e / 2 ^ 62 = 1 → port.active = false →
      Happens .writePoolRegionEntry s (answered 0xC012 2 s)) ∧
    (s.arg = .nums [r, e] → r < 4096 → e < 2 ^ 62 → Happens .writePoolRegionEntry s
      (answered 0xC012 0 (dropRegion r (BitVec.ofNat 64 e) s))) ∧
    (s.arg = .nums [r, e] → (4096 ≤ r ∨ 2 ^ 64 ≤ e) → Happens .writePoolRegionEntry s (answered 0xC012 1 s)) ∧
    (s.arg = .nums [ctx, va] → s.background = none → pageFor s ctx va = some f →
      Happens .biasFlip s (started 0xC013 { s with pageOps := s.pageOps ++ [flip], nextId := s.nextId + 1 })) ∧
    (s.arg = .nums [ctx, va] → s.background = none → pageFor s ctx va = none → Happens .biasFlip s (answered 0xC013 1 s)) ∧
    (s.arg = .nums [ctx, va] → s.background.isSome = true → Happens .biasFlip s (answered 0xC013 4 s)) ∧
    (s.arg = .nums [ctx, va, p.id] → s.pageOps = [p] → p.move = false → p.step = 1 → pageQuiet s p = true →
      Happens .biasFlip s (flipOn p s)) ∧
    (s.arg = .nums [ctx, va, p.id] → s.pageOps = [p] → pageQuiet s p = false → Happens .biasFlip s s) ∧
    (s.arg = .nums [id] → s.pageOps = [p] → p.id = id → p.move = true → p.step = 2 → pageQuiet s p = true → lineFault s p.old k = some slot →
      Happens .pageMoveCopyDone s (endBackground 1 [slot] (release p (rehome p)
        { writePte p (setBit 6 false) s with pageOps := [] }))) ∧
    (s.arg = .nums [ctx, va, dpa, retire] → s.background = none → pageFor s ctx va = some f → dpaSpace dpa = 0 → dpa % 2 ^ f.page = 0 →
      dpa < 2 ^ 54 → ∃ u, Happens .movePage s (started 0xC014 (startShoot ctx moving.va moving.bytes false (.move moving.id) u)) ∧
        u = writePte moving (setBit 6 true) { s with pageOps := s.pageOps ++ [moving], nextId := s.nextId + 1 }) ∧
    (s.arg = .nums [ctx, va, dpa, retire] → s.background = none → pageFor s ctx va = none → Happens .movePage s (answered 0xC014 1 s)) ∧
    (s.arg = .nums [id] → s.pageOps = [p] → p.id = id → p.move = true → p.step = 2 → pageQuiet s p = true → lineFault s p.old k = none →
      lineFault s p.new k = none → ∃ u, u = transferPage p (writePte p (fun e => setPa p.new (setBit 6 false e)) (copyPage p k s)) ∧
        Happens .pageMoveCopyDone s (startShoot p.ctx p.va p.bytes false (.move id)
          (release p (fun s m => forwardMsg s p m) (updPageOp id (fun q => { q with step := 3, queue := [] }) u)))) ∧
    (s.arg = .nums [id] → s.pageOps = [] → Happens .pageMoveCopyDone s s) ∧
    (∀ sh, s.arg = .nums [id] → s.shoots.find? (fun h => h.id == id && shootDone s h) = some sh → sh.why = .move p.id → s.pageOps = [p] →
      (p.step = 1 → Happens .shootdownComplete s (updPageOp p.id (fun q => { q with step := 2 }) shot)) ∧
      (p.step ≠ 1 → Happens .shootdownComplete s (endBackground 0 [] { shot with pageOps := [] }))) ∧
    (∀ sh, s.arg = .nums [id] → s.shoots.find? (fun h => h.id == id && shootDone s h) = some sh → sh.why = .flip p.id → s.pageOps = [p] →
      Happens .shootdownComplete s (endBackground 0 [] (release p (rehome p) { shot with pageOps := [] }))) ∧
    (∀ e b, (setBit 6 b e) / 2 ^ 6 % 2 = b.toNat)

/-- R165, R201, R206, R313, R328: what a core does between instructions. Splits at one place with equal stacks merge; a split goes on
behind a join after 256 cycles and wakes at its target, its age then starting anew; a missing block of code is fetched; the split
that issues is the oldest when its age reaches the number of ready ones, those that a stall holds among them, and otherwise of the
best class, least recently issued. Which park states merge (log 20), when a split counts as ready (log 21) and joins released
together (log 16) are the model's readings. -/
def Obligations.Selection : Prop :=
  ∀ (core slot i j p k a q1 q2 : Nat) (ready : List (Nat × Nat)) (w : DWord) (s : State),
    let sp (q : Nat × Nat) : Split := (s.wave core q.1).splits.getD q.2 {}
    let x : Split := sp (slot, i)
    let y : Split := sp (slot, j)
    let merged : State := mergePair core slot i j s
    let c : Climber := s.climber core k
    let aged (q : Nat × Nat) : Nat := ageOf s core (sp q)
    let woken (v : Split) : Split := { v with pc := v.pc + 8, park := .running, stamp := s.clk }
    let u : State := (liveSlots s core).foldl (fun s w => releaseJoins core w (mergeWave core w s)) s
    let z : Split := (u.wave core q1).splits.getD q2 {}
    (s.arg = .nums [core, slot] → Happens .splitMerge s (mergeWave core slot s)) ∧
    (mergeable s core slot i j = false → merged = s) ∧
    (s.Inv → mergeable s core slot i j = true → i ≠ j → i < (s.wave core slot).splits.length → j < (s.wave core slot).splits.length →
      ∃ v, merged = arriveMerged core slot x y v ∧ ((v.wave core slot).splits.getD i {}).mask = x.mask ||| y.mask ∧
        ((v.wave core slot).splits.getD i {}).depth = x.depth ∧ ((v.wave core slot).splits.getD j {}).live = false) ∧
    (mergeable s core slot i j = true → x.live = true ∧ y.live = true ∧ x.pc = y.pc ∧ x.depth = y.depth) ∧
    (∀ since, s.arg = .nums [core, slot, p] → (sp (slot, p)).park = .join since → cyclesPassed s core since 256 = true →
      Happens .joinTimeout s (s.updSplit core slot p woken)) ∧
    (∀ since, s.arg = .nums [core, slot, p] → (sp (slot, p)).park = .join since → cyclesPassed s core since 256 = false →
      Happens .joinTimeout s s) ∧
    (∀ target, s.arg = .nums [core, slot, p] → (sp (slot, p)).park = .sleep target → target ≤ s.clk →
      Happens .sleepExpiry s (s.updSplit core slot p fun sp => { sp with park := .running, stamp := s.clk })) ∧
    (∀ target, s.arg = .nums [core, slot, p] → (sp (slot, p)).park = .sleep target → s.clk < target → Happens .sleepExpiry s s) ∧
    (s.badLs = [] → s.arg = .nums [core, slot, p] → p ≠ 4 → (sp (slot, p)).live = true →
      wantBlock (s.xbnd core) (sp (slot, p)).buf (sp (slot, p)).pc.toNat = some a → Happens .fetchBlock s (s.updSplit core slot p fun v =>
        { v with buf := fillBuffer (sp (slot, p)).buf (sp (slot, p)).pc.toNat a (BitVec.ofNat 256 (s.ls core a 32))
                 stamp := if (wordAt v.buf v.pc.toNat).isNone then s.clk else v.stamp })) ∧
    (s.badLs = [] → s.arg = .nums [core, k, 4] → wantBlock (s.xbnd core) c.buf (s.cpc core k).toNat = some a → Happens .fetchBlock s
      (s.updClimber core k fun v => { v with buf := fillBuffer c.buf (s.cpc core k).toNat a (BitVec.ofNat 256 (s.ls core a 32)) })) ∧
    (∀ n buf pc v, wantBlock n buf pc = some a → a < n ∧ (a = pc / 32 * 32 ∨ a = pc / 32 * 32 + 32) ∧
      (buf.find? (fun b => b.1 == a)).isNone = true ∧ ((a, v) ∈ fillBuffer buf pc a v ∨ 2 ≤ (buf.filter fun b => b.1 != a).length)) ∧
    (s.arg = .nums [core] → s.issuing core = true → waitingSplits u core = [] →
      selectSplit u core ((readySplits u core).length + (heldSplits u core).length)
        (allSplits.filter (readySplits u core ++ freedSplits u core).contains) = some (q1, q2) →
      z.pc.toNat < u.xbnd core → wordAt z.buf z.pc.toNat = some w → u.Inv → ∃ t, Happens .issueSelect s t ∧
        t.cur = .wave core q1 q2 ∧ t.ir = w ∧ t.mem = u.mem ∧ t.regs = u.regs ∧ t.agenda = u.agenda) ∧
    (s.arg = .nums [core] → s.issuing core = false → Happens .issueSelect s s) ∧
    (∀ n q, selectSplit s core n ready = some q → q ∈ ready) ∧
    (∀ n, ready ≠ [] → (selectSplit s core n ready).isSome = true) ∧
    (∀ n q r, selectSplit s core n ready = some q → n ≤ 64 → (∃ o ∈ ready, n ≤ aged o) → r ∈ ready →
      aged r < 2 ^ 64 → aged r ≤ aged q) ∧
    (∀ n q r, selectSplit s core n ready = some q → (∀ o ∈ ready, aged o < n) → r ∈ ready →
      splitClass s core q < splitClass s core r ∨ (splitClass s core q = splitClass s core r ∧ (sp q).issued ≤ (sp r).issued))

/-- R142, R143, R152-R154, R333: channel words and credits, malformed messages, and the sampler. A word joins the neighbour's buffer,
which keeps order, unless its reads are of poison already; a credit comes back, at most two; a message with a header that is never
produced is counted, the fields of a header being as R142 lays them out; a sampling instant that has not come does nothing. The
times of samples are free (log 23). -/
def Obligations.ChannelTraffic : Prop :=
  ∀ (m : Msg) (x : Header) (core ch t w : Nat) (s : State),
    let c : Channel := s.chan (keyCore m.tgt) m.kind
    let h : Channel := s.chan core ch
    let word : BitVec 1024 := BitVec.ofNat 1024 (bytesToNat (m.bytes.map (·.2)))
    (s.arg = .msg m → targetSealed s m = false → c.readTrapped = true → Happens .channelWord s s) ∧
    (s.arg = .msg m → targetSealed s m = false → c.readTrapped = false → Happens .channelWord s
      (s.setChan (keyCore m.tgt) m.kind { c with words := c.words ++ [word] })) ∧
    (s.arg = .msg m → targetSealed s m = true → Happens .channelWord s s) ∧
    (s.arg = .nums [core, ch] → h.credits < 2 → Happens .channelCreditReturn s (s.setChan core ch { h with credits := h.credits + 1 })) ∧
    (s.arg = .nums [core, ch] → 2 ≤ h.credits → Happens .channelCreditReturn s (s.setChan core ch { h with credits := 2 })) ∧
    (s.arg = .nums [core, w] → headerOk (Header.ofBits (BitVec.ofNat 256 w)) = false →
      Happens .malformedMessage s (s.updCore core fun c => { c with malformed := c.malformed + 1 })) ∧
    (s.arg = .nums [core, w] → headerOk (Header.ofBits (BitVec.ofNat 256 w)) = true → Happens .malformedMessage s s) ∧
    (x.dest < 2 ^ 64 → x.tgt < 2 ^ 27 → x.src < 2 ^ 27 → x.kind < 64 → x.vc < 8 → x.len < 8 → x.sseq < 2 ^ 16 → x.wave < 16 →
      x.tag < 16 → x.anch < 2 ^ 64 → x.imm < 2 ^ 32 → Header.ofBits x.bits = x) ∧
    (headerOk x = true ↔ ∃ lens, kindForm x.kind = some (x.vc, lens) ∧ x.len ∈ lens) ∧
    (s.arg = .nums [core] → nextSample (s.core core) = none → Happens .sampleInstant s s) ∧
    (s.arg = .nums [core] → nextSample (s.core core) = some t → s.reached t = false → Happens .sampleInstant s s) ∧
    (s.arg = .nums [core] → nextSample (s.core core) = some t → s.reached t = true →
      nextSampled (s.updCore core fun c => { c with sampledAt := t }) core = none →
      Happens .sampleInstant s (s.updCore core fun c => { c with sampledAt := t })) ∧
    (∀ r, s.arg = .nums [core] → nextSample (s.core core) = some t → s.reached t = true →
      nextSampled (s.updCore core fun c => { c with sampledAt := t }) core = some w →
      sampleOf ((s.updCore core fun c => { c with sampledAt := t }).updCore core fun c => { c with sampled := w }) core w t = some r →
      Happens .sampleInstant s
        (writeSample core r ((s.updCore core fun c => { c with sampledAt := t }).updCore core fun c => { c with sampled := w })))

/-- R84, R86, R92, R96, R359, R360: the host's accesses and the pool's. A host read gives the bytes of a line of HBM, or of a ring
window, and a poisoned line gives none; it waits behind a lease, a fill or the line's other requests; a host write is served at the
home of its line, a write of a sequence word committing its record at once; snoops wait as reads do, a pool device's also for the
link that a dirty line is written back over, and the port answers a pool device's. When a pool link is lost its regions leave the
online state, for good, and its lines leave the hall stores. The port's answer numbers and pool writes while a link is down (log
42), the form of the answers (log 44), a BISnpCur's answer and its leaving the line as it is (log 94), the drop of writes to a ring
window's header and to a part of a sequence word (log 88), and what is left of lines lost with a link (logs 7, 74), are the model's
choices. -/
def Obligations.HostAccesses : Prop :=
  ∀ (a n k own l kind port : Nat) (m : Msg) (s : State),
    let served : Prop := s.up = true ∧ s.min = false
    let answer (t : State) (status : Nat) (v : List Nat) : State := { t with reply := some ⟨0, status, v, .success⟩ }
    let host (m : Msg) : Msg := { m with key := 0, src := .device }
    let free (l : Nat) : Prop := (s.line l).lease = none ∧ (s.line l).state ≠ .filling ∧ (s.line l).queue = []
    let fresh : State := if (s.line (a / 128)).state = .invalid then repairLine (a / 128) s else retag (a / 128) 0 s
    let held : Task := ⟨.hostCxlMemRead, .nums [a, n]⟩
    let off (k : Nat) : Nat := (k - 2 ^ 64) % 65536
    let ring : Nat := (m.tgt - 2 ^ 64) / 65536
    let queued (l : Nat) (t : Task) : State := s.updLine l fun x => { x with queue := x.queue ++ [t] }
    let lost : State := losePort port s
    (s.arg = .nums [a, n] → served → 2 ^ 64 ≤ a → Happens .hostCxlMemRead s (answer s 0 ((Memory.read s.mem a n).map (·.toNat)))) ∧
    (s.arg = .nums [a, n] → served → a < 2 ^ 56 → hostHbm s a = true → free (a / 128) → readFault fresh a 0 = none →
      Happens .hostCxlMemRead s (answer fresh 0 ((natToBytes n (fresh.devRead a n 0)).map (·.toNat)))) ∧
    (s.arg = .nums [a, n] → served → a < 2 ^ 56 → hostHbm s a = true → free (a / 128) → readFault fresh a 0 ≠ none →
      Happens .hostCxlMemRead s (answer fresh 5 [])) ∧
    (s.arg = .nums [a, n] → served → a < 2 ^ 56 → hostHbm s a = true → ¬ free (a / 128) →
      Happens .hostCxlMemRead s (queued (a / 128) held)) ∧
    (s.arg = .nums [a, n] → ¬ served → Happens .hostCxlMemRead s s) ∧
    (s.arg = .msg m → served → m.tgt < 2 ^ 56 → hostHbm s m.tgt = true →
      Happens .hostCxlMemWrite s (atHome .hostCxlMemWrite (host m) s)) ∧
    (s.arg = .msg m → served → 2 ^ 64 ≤ m.tgt → ring < 64 → (∀ c ∈ m.bytes, 0x2000 ≤ off c.1) → Happens .hostCxlMemWrite s
      { s with mem := Memory.writeCells s.mem m.bytes }) ∧
    (∀ i slot b0 b1 b2 b3, s.arg = .msg m → served → i < 64 → slot < 256 → m.tgt = ringKey i (64 + 4 * slot) →
      m.bytes = [(m.tgt, b0), (m.tgt + 1, b1), (m.tgt + 2, b2), (m.tgt + 3, b3)] →
      Happens .hostCxlMemWrite s (commitRing i slot (b3 ++ b2 ++ b1 ++ b0) s)) ∧
    (s.arg = .msg m → served → 2 ^ 64 ≤ m.tgt → (∀ c ∈ m.bytes, off c.1 < 64) → Happens .hostCxlMemWrite s s) ∧
    (s.arg = .msg m → ¬ served → Happens .hostCxlMemWrite s s) ∧
    (s.arg = .nums [k, own] → served → free (k / 2) → Happens .hostCxlCacheSnoop s
      { s with sectors := Sparse.set 0 s.sectors k (if own = 1 then 2 else 1) }) ∧
    (s.arg = .nums [k, own] → served → ¬ free (k / 2) → Happens .hostCxlCacheSnoop s
      (queued (k / 2) ⟨.hostCxlCacheSnoop, .nums [k, own]⟩)) ∧
    (s.arg = .nums [l, kind] → s.min = true → Happens .backInvalidationSnoop s s) ∧
    (s.arg = .nums [l, kind] → s.min = false → dpaSpace (l * 128) = 2 → (s.line l).state = .dirty → linkUp s l = false →
      Happens .backInvalidationSnoop s (queued l ⟨.backInvalidationSnoop, .nums [l, kind]⟩)) ∧
    (s.arg = .nums [l, kind] → s.min = false → dpaSpace (l * 128) = 2 → free l → ((s.line l).state = .dirty → linkUp s l = true) →
      Happens .backInvalidationSnoop s (servePool l kind s)) ∧
    (s.arg = .nums [l, kind] → s.min = false → dpaSpace (l * 128) = 2 → ¬ free l →
      Happens .backInvalidationSnoop s (queued l ⟨.backInvalidationSnoop, .nums [l, kind]⟩)) ∧
    (kind ≠ 2 → (servePool l kind s).mem = s.mem) ∧
    (l ≠ 0 → Sparse.get (0, 0) (servePool l kind s).birsp (s.regionPort (poolRegion (l * 128))) =
      (l, if ((servePool l kind s).line l).state = .invalid then 0 else if kind = 0 then 2 else 1)) ∧
    (kind = 2 → ((servePool l kind s).line l).state = .invalid) ∧
    (s.arg = .nums [port] → (Sparse.get ({} : Link) s.ports port).lost = false → Happens .poolLinkLoss s lost) ∧
    (s.arg = .nums [port] → (Sparse.get ({} : Link) s.ports port).lost = true → Happens .poolLinkLoss s s) ∧
    (rises s.regions = true → ∀ r, (lost.regionOnline r = true → s.regionOnline r = true ∧ s.regionPort r ≠ port) ∧
      (s.regionOnline r = true → s.regionPort r ≠ port → lost.regionOnline r = true)) ∧
    (linkOf false lost port).lost = true ∧ (linkOf false lost port).active = false

/-- R11, R364-R368, R373, R374: clocks, links, membership. An island goes down by 25 MHz, never below its floor, when power is above the
cap, looked at every 2^16 counts, or its junction is hot, and up by 25 MHz when there is room; a link down for 2,000,000 counts is
lost; a rank whose package has been outside the domain for 2,000,000 counts loses LIVE and the epoch advances; a package corrects
what an exchange found, every 2^20 counts, by one count at most once in 1,024. That a lost flight link stays lost when it comes back
(log 59), the counting of flit replays (log 95), and when a package counts as lost to this one (log 96) are the model's choices;
which packages train and what an exchange finds are free (logs 5, 8). -/
def Obligations.PowerAndDomain : Prop :=
  ∀ (i power hottest behind ahead l flight active t rank n : Nat) (a : Nat × Nat) (s : State),
    let v : Island := Sparse.get {} s.islands i
    let k : Link := linkOf (flight == 1) s l
    let f : Link := linkOf true s l
    let table : Members := Sparse.get {} s.tables t
    let p : Nat := (table.ranks.getD rank (0, false)).1
    let removed : Members := Members.of (table.epoch + 1) (table.ranks.set rank (p, false))
    let live : Bool := (table.ranks.getD rank (0, false)).2
    let at_ (m : Nat) : State := { s with islands := Sparse.set {} s.islands i { v with mhz := m } }
    let tick : State := { s with powerAt := s.clk }
    let due : Prop := 2 ^ 16 ≤ s.clkSince s.powerAt
    let may : Prop := n ≠ 0 ∧ 1024 ≤ s.clkSince s.slewed
    let at2 (m : Nat) : State := { tick with islands := Sparse.set {} s.islands i { v with mhz := m } }
    (v.floor < v.mhz → max v.floor (v.mhz - 25) ≠ v.floor → lowerIsland i s = at_ (v.mhz - 25)) ∧
    (v.floor < v.mhz → max v.floor (v.mhz - 25) = v.floor → lowerIsland i s = { at_ v.floor with msix := s.msix ++ [2] }) ∧
    (v.mhz ≤ v.floor → lowerIsland i s = s) ∧
    (s.arg = .nums [i] → i < 16 → Happens .junctionThrottle s (lowerIsland i s)) ∧
    (s.arg = .nums [power, hottest] → s.clkSince s.powerAt < 2 ^ 16 → Happens .powerControlTick s s) ∧
    (s.arg = .nums [power, i] → due → i < 16 → s.cap < power → Happens .powerControlTick s (lowerIsland i tick)) ∧
    (s.arg = .nums [power, hottest] → due → power ≤ s.cap → s.cap * 95 ≤ power * 100 → Happens .powerControlTick s tick) ∧
    (s.arg = .nums [power, hottest] → due → power ≤ s.cap → power * 100 < s.cap * 95 → slowestIsland s = some i →
      Happens .powerControlTick s (at2 (min v.ceiling (v.mhz + 25)))) ∧
    (s.arg = .nums [power, hottest] → due → power ≤ s.cap → power * 100 < s.cap * 95 → slowestIsland s = none →
      Happens .powerControlTick s tick) ∧
    (∀ j, slowestIsland s = some i → j < 16 → (Sparse.get ({} : Island) s.islands j).mhz < (Sparse.get ({} : Island) s.islands j).ceiling →
      v.mhz ≤ (Sparse.get ({} : Island) s.islands j).mhz) ∧
    (s.arg = .nums [ahead, behind] → s.clkSince s.exchanged < 2 ^ 20 → Happens .clockAlignmentExchange s s) ∧
    (s.arg = .nums [ahead, behind] → 2 ^ 20 ≤ s.clkSince s.exchanged → s.pkg ≠ 0 → Happens .clockAlignmentExchange s
      { s with exchanged := s.clk, lag := (behind : Int) - ahead }) ∧
    (s.arg = .nums [ahead, behind] → 2 ^ 20 ≤ s.clkSince s.exchanged → s.pkg = 0 → Happens .clockAlignmentExchange s
      { s with exchanged := s.clk, lag := 0 }) ∧
    ((s.lag = 0 ∨ ¬ may) → passTime n s = { s with clk := (s.clk + n) % 2 ^ 64 }) ∧
    (0 < s.lag → may → passTime n s =
      { s with clk := (s.clk + (n + 1)) % 2 ^ 64, lag := s.lag - 1, slewed := (s.clk + (n + 1)) % 2 ^ 64 }) ∧
    (s.lag < 0 → may → passTime n s =
      { s with clk := (s.clk + (n - 1)) % 2 ^ 64, lag := s.lag + 1, slewed := (s.clk + (n - 1)) % 2 ^ 64 }) ∧
    (s.arg = .nums [flight, l, 0] → k.active = true → Happens .linkActiveStateChange s
      (setLink (flight == 1) l { k with active := false, downAt := s.clk } s)) ∧
    (s.arg = .nums [flight, l, 1] → Happens .linkActiveStateChange s
      (noteAway (setLink (flight == 1) l { k with active := true, downAt := 0, lost := k.lost && flight == 1 } s))) ∧
    (s.arg = .nums [flight, l, active] → active ≠ 1 → k.active = false → Happens .linkActiveStateChange s s) ∧
    (s.arg = .nums [l] → linkOverdue s f = true → Happens .flightLinkLoss s
      (report (noteAway (setLink true l { f with lost := true } s)) (reportBits 6 0 0 0 0 0 0 l s.clk 0))) ∧
    (s.arg = .nums [l] → linkOverdue s f = false → Happens .flightLinkLoss s s) ∧
    (linkOverdue s f = true ↔ f.active = false ∧ f.lost = false ∧ 2000000 ≤ s.clkSince f.downAt) ∧
    (s.arg = .nums [l] → Happens .flightFlitReplay s
      { s with flights := Sparse.set {} s.flights l { f with count := f.count + 1 } }) ∧
    (∃ w, noteAway s = { s with away := w } ∧ (∀ x ∈ w, s.inDomain x.1 = false) ∧
      (∀ x ∈ s.away, s.inDomain x.1 = false → x ∈ w) ∧ ∀ x ∈ w, x ∈ s.away ∨ x.2 = s.clk) ∧
    (s.arg = .nums [t, rank] → live = true → s.away.find? (·.1 == p) = some a → 2000000 ≤ s.clkSince a.2 → Happens .memberRemoval s
      (report { s with tables := Sparse.set {} s.tables t removed } (reportBits 7 0 0 0 0 0 0 rank s.clk 0))) ∧
    (s.arg = .nums [t, rank] → live = true → s.away.find? (·.1 == p) = some a → s.clkSince a.2 < 2000000 →
      Happens .memberRemoval s s) ∧
    (s.arg = .nums [t, rank] → live = true → s.away.find? (·.1 == p) = none → Happens .memberRemoval s
      { s with away := s.away ++ [(p, s.clk)] }) ∧
    (s.arg = .nums [t, rank] → live = false → Happens .memberRemoval s s) ∧
    (rank < table.ranks.length → (removed.ranks.getD rank (0, false)) = (p, false)) ∧
    (removed.epoch = (table.epoch + 1) % 2 ^ 32)

/-- R369, R370: start-up. A start whose firmware verifies and is not older than the fuses allow, and that nothing outside fails, sets
UP, clears FAILS and draws key slot 0, and a core that fails its self-test stays out of service, reported; any other is counted with
its WHY, and the third in a row enters minimal mode; images whose signature verifies are measured. 2^36 counts are the most a start
may take. A staged image runs from the next start on; a reset returns to the state right after reset but for what it keeps, cores
out of service among it, their seals only when it is warm. What a start comes to is free (log 8); the fuses and keys (log 14), what
resets keep (log 31), the layout and statuses of 0xC002 and 0xC004 (log 44) and a failed start's beginning again by itself (log 59)
are the model's choices. -/
def Obligations.StartUp : Prop :=
  ∀ (why core valid version : Nat) (s : State),
    let f : Firmware := s.staged.getD s.firmware
    let failed (w : Nat) : State := { s with fails := s.fails + 1, why := w, startedAt := s.clk }
    let seen (s : State) : State := { s with measured := [1, 2, 3, 4].map fun k => (k, Config.digest k f.version) }
    let inTime : Prop := s.clkSince s.startedAt < 2 ^ 36
    let starting : Prop := s.up = false ∧ s.min = false
    let good : Prop := f.valid = true ∧ Config.fusedVersion ≤ f.version
    let answered (u : State) (op status : Nat) : State := { u with reply := some ⟨op, status, [], .success⟩ }
    let cold : State := resetState true s
    let warm : State := resetState false s
    (s.arg = .nums [why] → starting → inTime → good → (why < 3 ∨ 6 < why) → ∃ u, Happens .startup s u ∧ u.up = true ∧ u.fails = 0 ∧
      u.firmware = f ∧ u.staged = none ∧ u.keys = Sparse.set none s.keys 0 (some (Config.randomKey s.nonce)) ∧ u.mem = s.mem ∧
      u.measured = (seen s).measured ∧ ((s.pkg = 0 ∨ s.torusX * s.torusY = 1) → u.clk = s.clk)) ∧
    (s.arg = .nums [why, core] → starting → inTime → good → why = 0 → coreExists core = true → corePkg core = s.pkg → ∃ u, Happens .startup s u ∧
      u.up = true ∧ (u.core core).off = true ∧ u.reports = (report s (reportBits 3 core 0 0 0 0 0 0 s.clk 0)).reports ∧
      (s.Inv → ∀ c, c ≠ core → u.core c = s.core c)) ∧
    (s.arg = .nums [why] → starting → inTime → good → 3 ≤ why → why ≤ 6 → s.fails < 2 → Happens .startup s (seen (failed why))) ∧
    (s.arg = .nums [why] → starting → inTime → good → 3 ≤ why → why ≤ 6 → 2 ≤ s.fails →
      Happens .startup s { seen (failed why) with min := true, msix := s.msix ++ [3] }) ∧
    (s.arg = .nums [why] → starting → inTime → f.valid = false → s.fails < 2 → Happens .startup s (failed 1)) ∧
    (s.arg = .nums [why] → starting → inTime → f.valid = false → 2 ≤ s.fails →
      Happens .startup s { failed 1 with min := true, msix := s.msix ++ [3] }) ∧
    (s.arg = .nums [why] → starting → inTime → f.valid = true → f.version < Config.fusedVersion → s.fails < 2 →
      Happens .startup s (seen (failed 2))) ∧
    (s.arg = .nums [why] → starting → inTime → f.valid = true → f.version < Config.fusedVersion → 2 ≤ s.fails →
      Happens .startup s { seen (failed 2) with min := true, msix := s.msix ++ [3] }) ∧
    (s.arg = .nums [why] → starting → ¬ inTime → s.fails < 2 → Happens .startup s (failed 6)) ∧
    (s.arg = .nums [why] → ¬ starting → Happens .startup s s) ∧
    (starting → 2 ^ 36 ≤ s.clkSince s.startedAt → s.fails < 2 → Happens .startupWatchdog s (failed 6)) ∧
    (starting → 2 ^ 36 ≤ s.clkSince s.startedAt → 2 ≤ s.fails →
      Happens .startupWatchdog s { failed 6 with min := true, msix := s.msix ++ [3] }) ∧
    (¬ starting → Happens .startupWatchdog s s) ∧
    (s.clkSince s.startedAt < 2 ^ 36 → Happens .startupWatchdog s s) ∧
    (s.arg = .nums [valid, version] → s.background = none → Happens .stageFirmware s
      { s.post .stageFirmware (.nums [valid, version, 1]) with
        background := some 0xC002, reply := some ⟨0xC002, 0, [], .backgroundStarted⟩ }) ∧
    (s.arg = .nums [valid, version, 1] → s.background = some 0xC002 → Happens .stageFirmware s
      { s with staged := some ⟨valid == 1, version⟩, background := none, reply := some ⟨0xC002, 0, [], .success⟩, msix := s.msix ++ [0] }) ∧
    (s.arg = .nums [valid, version] → s.background.isSome = true → Happens .stageFirmware s (answered s 0xC002 4)) ∧
    (s.arg = .nums [1] → Happens .reset s (answered cold 0xC003 0)) ∧
    (s.arg = .nums [0] → Happens .reset s (answered warm 0xC003 0)) ∧
    (cold.clk = 0 ∧ cold.waves = [] ∧ cold.regs = [] ∧ cold.groups = [] ∧ cold.launches = [] ∧ cold.keys = [] ∧ cold.up = false ∧
      (∀ c ∈ cold.cores, c.2 = { off := true } ∧ ∃ v, (c.1, v) ∈ s.cores ∧ v.off = true) ∧
      (∀ c ∈ s.cores, c.2.off = true → (c.1, { off := true }) ∈ cold.cores) ∧ cold.roots = [] ∧ cold.fails = s.fails ∧ cold.why = s.why ∧ cold.firmware = s.firmware) ∧
    (∀ c ∈ cold.mem, outsideKey c.1 = true) ∧
    (warm.clk = s.clk ∧ warm.mem = s.mem ∧ warm.keys = s.keys ∧ warm.waves = [] ∧ warm.groups = [] ∧ warm.launches = [] ∧
      warm.up = false ∧ warm.pkg = s.pkg) ∧
    (∀ c ∈ warm.cores, c.2 = { sealed := c.2.sealed, off := c.2.off, mchk := c.2.mchk }) ∧
    (s.staged.any (·.valid) = true → Happens .clearStartFailures s (answered { s with fails := 0 } 0xC004 0)) ∧
    (s.staged.any (·.valid) = false → Happens .clearStartFailures s (answered s 0xC004 2))

/-- R306, R316, R361-R363, R367, R372: the mailbox. Each command answers with its status and payload; what it sets is set; in minimal
mode only those that R362 marks are served, and the others get status 5; work in the background is indicated when it starts and ends
with vector 0; reports leave the queue when they are read. The payload layouts, and statuses where R362 names none, are the model's
choices (log 44), and so are the counts of a removal (log 96) and ARG of a ring record's report (log 98). -/
def Obligations.Mailbox : Prop :=
  ∀ (power temp i log2n prio priv slot va ctx count fault core base bytes image len n op id wx wy cap lo hi addr t rank : Nat)
    (pkgs : List Nat) (s : State),
    let answered (u : State) (op status : Nat) (data : List Nat) : State := { u with reply := some ⟨op, status, data, .success⟩ }
    let island : Island := Sparse.get {} s.islands i
    let slotted : State := { s with graphs := Sparse.upd {} s.graphs slot fun g =>
      { g with va := va, ctx := ctx, count := count, faultNode := fault } }
    let spilled : State := { s.updCore core (fun c => { c with spillBase := base, spillBytes := bytes, hbmHead := 0 }) with
      imageBase := image, imageBytes := len }
    let at_ : Nat × Nat := readbackAt s addr
    Happens .identify s (answered s 0xC000 0 [Config.partNumber, s.firmware.version, s.pkg, s.torusX, s.torusY]) ∧
    (s.arg = .nums [power, temp] → Happens .getStatus s
      (answered s 0xC001 0 ((bootWord s).toNat :: ((List.range 16).map fun i => s.mhz i) ++ [power, temp]))) ∧
    (s.arg = .nums [n] → Happens .readFaultReports s
      (answered { s with reports := s.reports.drop n } 0xC021 0 (s.reportsLost :: (s.reports.take n).map (·.toNat)))) ∧
    (s.arg = .nums [op] → Happens .unsupportedOpcode s { s with reply := some ⟨op, 0, [], .unsupported⟩ }) ∧
    (s.min = true → Happens .setContextRoot s (answered s 0xC010 5 []) ∧ Happens .loadKeySlot s (answered s 0xC011 5 []) ∧
      Happens .writePoolRegionEntry s (answered s 0xC012 5 []) ∧ Happens .movePage s (answered s 0xC014 5 []) ∧
      Happens .hostShootdown s (answered s 0xC015 5 []) ∧ Happens .configureHostLaunchRing s (answered s 0xC016 5 []) ∧
      Happens .writeGraphTableSlot s (answered s 0xC017 5 []) ∧ Happens .setSpillAreas s (answered s 0xC018 5 []) ∧
      Happens .writeMembershipTable s (answered s 0xC019 5 []) ∧
      (s.arg = .nums [t, rank] → Happens .removeMember s (answered s 0xC01A 5 [])) ∧
      (s.arg = .nums [ctx, va] → Happens .biasFlip s (answered s 0xC013 5 [])) ∧
      Happens .readCounters s (answered s 0xC020 5 []) ∧ Happens .haltOrResume s (answered s 0xC030 5 []) ∧
      Happens .readback s (answered s 0xC031 5 []) ∧ Happens .setPowerCap s (answered s 0xC040 5 []) ∧
      Happens .setDomainConfiguration s (answered s 0xC041 5 [])) ∧
    (s.min = false → s.memWf → s.arg = .nums [i, log2n, prio, priv] → i < 64 → log2n ≤ 8 → prio ≤ 15 → ∃ u,
      Happens .configureHostLaunchRing s (answered u 0xC016 0 []) ∧ u.rings = Sparse.set {} s.rings i ⟨log2n, prio, priv == 1⟩ ∧
        ringWord u i 8 = 0 ∧ ringWord u i 12 = 0 ∧ ringWord u i 16 = 0 ∧ Memory.load u.mem (ringKey i 0) 1 = log2n + 0x30 ∧
        ringWord u i 4 = 0x2000) ∧
    (s.min = false → s.arg = .nums [i, log2n, prio, priv] → (64 ≤ i ∨ 8 < log2n ∨ 15 < prio) →
      Happens .configureHostLaunchRing s (answered s 0xC016 1 [])) ∧
    (s.min = false → s.arg = .nums [slot, va, ctx, count, fault] → slot < 256 → va < 2 ^ 57 → ctx < 256 → 1 ≤ count → count ≤ 4096 →
      fault < 4096 → Happens .writeGraphTableSlot s (answered slotted 0xC017 0 [])) ∧
    (s.min = false → s.arg = .nums [core, base, bytes, image, len] → coreExists core = true → base % 128 = 0 → dpaSpace base = 0 →
      (s.core core).hbmSpill = [] → Happens .setSpillAreas s (answered spilled 0xC018 0 [])) ∧
    (s.min = false → s.arg = .nums (t :: pkgs) → t < 256 → pkgs ≠ [] → pkgs.length ≤ 16384 → (pkgs.filter (· == s.pkg)).length ≤ 1 →
      (∀ p ∈ pkgs, s.inDomain p = true) → Happens .writeMembershipTable s (answered { s with
        tables := Sparse.set {} s.tables t (Members.of 0 (pkgs.map fun p => (p, true))) } 0xC019 0 [])) ∧
    (pkgs.length ≤ 16384 → (∀ p ∈ pkgs, p < 16384) → let m : Members := Members.of t (pkgs.map fun p => (p, true))
      m.ranks = (pkgs.map fun p => (p, true)) ∧ m.epoch = t % 2 ^ 32 ∧ bitsAt m.header.toNat 0 16 = pkgs.length ∧
        bitsAt m.header.toNat 16 16 = pkgs.length) ∧
    (s.min = false → s.arg = .nums [t, rank] → s.background = none → rankLive s t rank = true → Happens .removeMember s
      { s.post .removeMember (.nums [t, rank, 1]) with
        background := some 0xC01A, reply := some ⟨0xC01A, 0, [], .backgroundStarted⟩ }) ∧
    (s.arg = .nums [t, rank, 1] → s.background = some 0xC01A → rankLive s t rank = true → Happens .removeMember s
      { removeRank t rank s with background := none, reply := some ⟨0xC01A, 0, [], .success⟩, msix := (removeRank t rank s).msix ++ [0] }) ∧
    (s.min = false → s.arg = .nums [t, rank] → s.background.isSome = true → Happens .removeMember s (answered s 0xC01A 4 [])) ∧
    (s.min = false → s.arg = .nums [t, rank] → s.background = none → rankLive s t rank = false →
      Happens .removeMember s (answered s 0xC01A 1 [])) ∧
    (s.min = false → ∃ v, Happens .readCounters s (answered s 0xC020 0 v) ∧ v.length = 24 ∧
      (∀ k, k < 16 → v.getD k 0 = Sparse.get 0 s.corrected k)) ∧
    (s.min = false → s.arg = .nums [addr] → at_.1 = 0 → Happens .readback s (answered s 0xC031 0 [at_.2])) ∧
    (s.min = false → s.arg = .nums [addr] → at_.1 ≠ 0 → Happens .readback s (answered s 0xC031 at_.1 [])) ∧
    (s.min = false → s.arg = .nums [cap, i, lo, hi] → 1000 ≤ cap → cap ≤ 5200 → i < 16 → 1200 ≤ lo → lo ≤ hi → hi ≤ 2400 →
      lo % 25 = 0 → hi % 25 = 0 → Happens .setPowerCap s (answered
        { s with cap := cap, islands := Sparse.set {} s.islands i { island with floor := lo, ceiling := hi } } 0xC040 0 [])) ∧
    (s.min = false → s.arg = .nums [id, wx, wy] → s.up = false → 1 ≤ wx → wx ≤ 128 → 1 ≤ wy → wy ≤ 128 → id % 128 < wx → id / 128 < wy →
      Happens .setDomainConfiguration s (answered { s with pkg := id, torusX := wx, torusY := wy } 0xC041 0 [])) ∧
    (s.min = false → s.arg = .nums [id, wx, wy] → s.up = true → Happens .setDomainConfiguration s (answered s 0xC041 2 []))

/-- R371, R372: the SPDM responder's dialogue and the IEEE 1149.1 port. A session opens only after version, capabilities, algorithms,
key exchange and finish, in that order, and any new dialogue or end closes it; the responder is of SPDM 1.3 with one set of
algorithms, neither pre-shared keys, mutual authentication nor provisioning, and gives the measurements of the start. IDCODE is
0x0F852A4B; readback through the port reads zero until a signed debug unlock. Responses and pins are free values (logs 5, 9), and
the readback of BYPASS is the model's choice (log 61). -/
def Obligations.DebugAndSecurity : Prop :=
  ∀ (addr valid : Nat) (s : State),
    let d : Spdm := s.spdm
    let free : SpdmAnswer := .bytes (Config.spdmResponse s.nonce)
    let gives (a : SpdmAnswer) (d : Spdm) : State := { s with spdm := { d with response := some a } }
    let answered (d : Spdm) : State := gives free d
    let shift (instr : Nat) (v : DWord) : State := { s with jtag := { s.jtag with instr := instr, out := v } }
    Happens .getVersion s (gives (.version 1 3) { d with version := true, capable := false, negotiated := false, exchanging := false, session := false }) ∧
    Happens .getCapabilities s (gives (.capabilities false false false) { d with capable := d.version }) ∧
    Happens .negotiateAlgorithms s (gives (.algorithms [.ecdsaP521, .sha512, .ecdheSecp521r1, .aes256Gcm]) { d with negotiated := d.capable }) ∧
    Happens .getDigests s (answered d) ∧ Happens .getCertificate s (answered d) ∧ Happens .challenge s (answered d) ∧
    Happens .getMeasurements s (gives (.measurements s.measured) d) ∧
    Happens .heartbeat s (answered d) ∧
    Happens .keyExchange s (answered { d with exchanging := d.negotiated }) ∧
    Happens .finish s (answered { d with exchanging := false, session := d.session || d.exchanging }) ∧
    Happens .endSession s (answered { d with exchanging := false, session := false }) ∧
    Happens .jtagIdcode s (shift 0 0x0F852A4B) ∧ Happens .jtagBypass s (shift 1 0) ∧
    (∃ v, Happens .jtagSamplePreload s (shift 2 v)) ∧ (∃ v, Happens .jtagExtest s (shift 3 v)) ∧
    (s.arg = .nums [addr] → s.jtag.unlocked = false → Happens .jtagRbaddrRbdata s (shift 4 0)) ∧
    (s.arg = .nums [addr] → s.jtag.unlocked = true → ∃ u, Happens .jtagRbaddrRbdata s u ∧ u.jtag.out = BitVec.ofNat 64 (readbackAt s addr).2 ∧
      u.jtag.rbaddr = BitVec.ofNat 64 addr ∧ u.mem = s.mem ∧ u.regs = s.regs) ∧
    (s.arg = .nums [1] → Happens .signedDebugUnlock s { s with jtag := { s.jtag with unlocked := true } }) ∧
    (s.arg = .nums [valid] → valid ≠ 1 → Happens .signedDebugUnlock s s)

/-- R15-R18, R21-R23, R30: decode and encode agree. Every well-formed instruction that has a word has one of 64 bits, which decodes to
that instruction with every operand; a word that decodes to an instruction is that instruction's word, so no two words share one. -/
def Obligations.EncodeDecodes : Prop :=
  (∀ (i : Instr) (n : Nat), i.wf = true → i.encodeNat = some n → n < 2 ^ 64 ∧ decode (BitVec.ofNat 64 n) = .ok i) ∧
  (∀ (w : BitVec 64) (i : Instr), decode w = .ok i → i.wf = true ∧ encode i = some w)

/-- R15-R23: words written out from the encoding tables decode to what they stand for, and words with a reserved bit or an unassigned
opcode are refused. -/
def Obligations.DecodedWords : Prop :=
  decodeTableWord 64 0x1000080400040000 = some (.addi .none 0x00040000 4 4) ∧
  decodeTableWord 64 0x4000120400040080 = some (.ld .none .w 0x80 9 4) ∧
  decodeTableWord 64 0x8C0800C08C0900C0 = some (.pairWord ⟨.shl, 8, 1, true⟩ (some ⟨.shl, 9, 1, true⟩)) ∧
  decodeTableWord 64 0x5300280403020100 = some (.cp .none true false 20 4 6 8) ∧
  decodeTableWord 64 0x4800140400000000 = some (.lease .none 0 10 4) ∧
  decodeTableWord 64 0x708C000000000810 = some (.br ⟨true, false, 3⟩ 8 1 false) ∧
  decodeTableWord 64 0x30A8201007800014 = some (.shfl ⟨true, false, 10⟩ .idx 5 .own 16 16 15) ∧
  decodeTableWord 64 0x26000C0201800000 = some (.fdiv .none 6 2 3) ∧
  decodeTableWord 64 0x6400000C06800102 = some (.mma .none true false false true false false 12 13) ∧
  decodeTableWord 64 0x460000060555E400 = some (.red .none .d .minN64 5 0 true 6 10) ∧
  decodeTableWord 64 0x6800000000000004 = some (.nbox .none 4) ∧
  decodeTableWord 64 0x6B00060204014100 = some (.emith .none 3 2 8 5) ∧
  decodeTableWord 64 0x7803000400130000 = some (.csrClr .none 1 384 4) ∧
  decodeTableWord 64 0x7500000000000000 = some (.exit .none) ∧
  decodeTableWord 64 0x7500000000000001 = none ∧ decodeTableWord 64 0x0000000000000000 = none ∧
  decodeTableWord 64 0xFFFFFFFFFFFFFFFF = none

/-- R12, R15, R165, R313: a step runs the decoded instruction. When the step's task has fetched a word that decodes to `i`, the step is
`exec i` there, and then the messages it sent are numbered, and `clk` and the step's number advance; a word that decodes to nothing
raises ILLEGAL_INSTR or ILLEGAL_PAIR; a task that fetches nothing is the whole step. A word placed at reset is the first that runs.
Which enabled task a step takes (log 4), what it keeps of it (log 1), how far clk moves (log 2) and the word placed at reset (log
12) are the model's. -/
def Obligations.StepRunsDecoded : Prop :=
  ∀ (t : Task) (i : Instr) (s u : State),
    let settled (o : Host.Outcome State Fault Refusal) : Host.Outcome State Fault Refusal := match o with
      | .next v => .next { passTime (Config.clkAdvance v.nonce) (numberSent v) with cur := .none, ir := 0, arg := .none, nonce := v.nonce + 1 }
      | .fault f => .fault f
      | .refused r => .refused r
    let fetched : Prop := pick s = some t ∧ exec t.op (takeTask t s) = .next u ∧ u.cur ≠ .none
    (fetched → decode u.ir = .ok i → step s = settled (exec i u)) ∧
    (∀ e, fetched → decode u.ir = .error e → step s = settled (.next (raiseCause (if u.ir.msb then 0x02 else 0x01) u.ir u))) ∧
    (pick s = some t → exec t.op (takeTask t s) = .next u → u.cur = .none → step s = settled (.next u)) ∧
    (pick s = none → step s = settled (.next s)) ∧
    (enabled s = [t] → pick s = some t) ∧
    (∀ w, decode w = .ok i → ∃ v, step (State.reset.withFetchWord 64 w.toNat) = settled (exec i v) ∧ v.cur = .wave 0 0 0 ∧ v.ir = w ∧
      v.clk = 0 ∧ v.curPc = 0 ∧ v.curMask = 0xFFFFFFFF ∧ v.mem = Memory.store [] (lsKey 0 0) 8 w.toNat)

/-- R11, R12, R69, R72, R330, R369, R373: the values that the spec gives for reset. -/
def Obligations.ResetState : Prop :=
  ∀ (core slot ctx k i : Nat),
    let s : State := State.reset
    let c : Core := s.core core
    s.clk = 0 ∧ s.root ctx = 0xC0000000000000 ∧ s.keyOf k = none ∧ s.mhz i = 2000 ∧ s.cap = 5200 ∧
    c.xbnd = 0x00040000 ∧ c.leasemax = 256 ∧ c.fpint = 1024 ∧ c.pairctl = 0 ∧ c.mchk = 0 ∧ c.sampctl = 0 ∧ c.sampper = 0 ∧
    c.sampbuf = 0 ∧ c.samplen = 0 ∧ c.sampdrop = 0 ∧ c.sealed = false ∧ c.halted = false ∧
    (s.wave core slot).live = false ∧ s.launches = [] ∧ s.groups = [] ∧ s.reports = [] ∧ s.up = false ∧ s.min = false ∧ s.fails = 0

/-- The state after reset meets the invariant that steps keep. The canonical form is the model's own representation (log 3). -/
def Obligations.ResetInv : Prop := State.reset.Inv

/-- Every step keeps the canonical form of memory, of the accumulators and latches, and of the tables, from every state that has it. The
canonical form is the model's own representation (log 3). -/
def Obligations.StepKeepsInv : Prop :=
  ∀ (s t : State), s.Inv → step s = .next t → t.Inv

/-- R3, R25, R27: registers. A destination receives its value in each active lane and in no other, and nothing else changes; `zero`
discards what is written and reads as 0; sources below 320 read the register file. R1, R12, R15, R107, R354: what retiring does. An
instruction that names no channel and does not read `clklo`, outside lease blocks and pairs, changes nothing but its own effect and
its split's PC, which goes to the next word; a climber's likewise. -/
def Obligations.Registers : Prop :=
  (∀ (c w p r : Nat) (lanes : List Nat) (f : Nat → Word) (s : State),
    let t : State := putLanes s lanes r f
    s.cur = .wave c w p → s.paired = false → s.curWave.failed = [] → s.Inv →
    (r < 320 → lanes.Nodup → (∀ l ∈ lanes, l < 32) →
      (∀ l, l < 32 → t.vreg c w r l = if l ∈ lanes then f l else s.vreg c w r l) ∧
      (∀ q l, q ≠ r → l < 32 → t.vreg c w q l = s.vreg c w q l) ∧
      (∀ d v q l, (d, v) ≠ (c, w) → w < 16 → v < 16 → t.vreg d v q l = s.vreg d v q l) ∧ t = { s with regs := t.regs }) ∧
    putLanes s lanes 384 f = s ∧ (∀ l, src s 384 l = 0) ∧ (r < 320 → ∀ l, src s r l = s.vreg c w r l) ∧
    (∀ l, src s 352 l = BitVec.ofNat 32 l ∧ src s 353 l = BitVec.ofNat 32 s.curWave.index ∧ src s 354 l = BitVec.ofNat 32 p ∧
      src s 359 l = BitVec.ofNat 32 s.clk)) ∧
  (∀ (i : Instr) (sh : Shape) (c w p k : Nat) (s t : State),
    shapeOf i = some sh → channelsOf sh.srcs = [] → (∀ r ∈ sh.srcs, r.1 ≠ 359) → t.cur = s.cur → t.paired = false →
    s.curWave.block = none → t.Inv →
    (s.cur = .wave c w p → finish i s (.done t) =
      t.updCurSplit fun v => { v with pc := t.curPc + 8, park := .running, await := .none }) ∧
    (s.cur = .climber c k → finish i s (.done t) =
      (t.setCpc c k (t.cpc c k + 8)).updCurClimber fun v => { v with await := .none }) ∧
    (s.cur = .wave c w p →
      let u : State := finish i s (.done t)
      u.regs = t.regs ∧ u.mem = t.mem ∧ u.cores = t.cores ∧ u.climbers = t.climbers ∧ u.agenda = t.agenda ∧
        (∀ d v, (d, v) ≠ (c, w) → w < 16 → v < 16 → u.wave d v = t.wave d v) ∧ (u.wave c w).fstat = (t.wave c w).fstat ∧
        (u.wave c w).acc = (t.wave c w).acc ∧ (u.wave c w).scr = (t.wave c w).scr ∧ (u.wave c w).leases = (t.wave c w).leases))
end

