-- ==== Sys2Proof/Laws/Arms.lean ====
section
/-! SUPPORT. `exec` on each instruction is its meaning: one lemma an arm, true by unfolding. -/

namespace Sys2Proof.Machine

theorem exec_add (g : Guard) (d : RegNo) (a : RegNo) (b : RegNo) (s : State) : exec (.add g d a b) s = execAdd g d a b s := rfl
theorem exec_sub (g : Guard) (d : RegNo) (a : RegNo) (b : RegNo) (s : State) : exec (.sub g d a b) s = execSub g d a b s := rfl
theorem exec_addSatI32 (g : Guard) (d : RegNo) (a : RegNo) (b : RegNo) (s : State) : exec (.addSatI32 g d a b) s = execAddSatI32 g d a b s := rfl
theorem exec_subSatI32 (g : Guard) (d : RegNo) (a : RegNo) (b : RegNo) (s : State) : exec (.subSatI32 g d a b) s = execSubSatI32 g d a b s := rfl
theorem exec_addSatN32 (g : Guard) (d : RegNo) (a : RegNo) (b : RegNo) (s : State) : exec (.addSatN32 g d a b) s = execAddSatN32 g d a b s := rfl
theorem exec_subSatN32 (g : Guard) (d : RegNo) (a : RegNo) (b : RegNo) (s : State) : exec (.subSatN32 g d a b) s = execSubSatN32 g d a b s := rfl
theorem exec_addCy (g : Guard) (d : RegNo) (a : RegNo) (b : RegNo) (c : RegNo) (s : State) : exec (.addCy g d a b c) s = execAddCy g d a b c s := rfl
theorem exec_cy (g : Guard) (d : RegNo) (a : RegNo) (b : RegNo) (c : RegNo) (s : State) : exec (.cy g d a b c) s = execCy g d a b c s := rfl
theorem exec_add64 (g : Guard) (d : RegNo) (a : RegNo) (b : RegNo) (s : State) : exec (.add64 g d a b) s = execAdd64 g d a b s := rfl
theorem exec_sub64 (g : Guard) (d : RegNo) (a : RegNo) (b : RegNo) (s : State) : exec (.sub64 g d a b) s = execSub64 g d a b s := rfl
theorem exec_mul (g : Guard) (d : RegNo) (a : RegNo) (b : RegNo) (s : State) : exec (.mul g d a b) s = execMul g d a b s := rfl
theorem exec_mulhI32 (g : Guard) (d : RegNo) (a : RegNo) (b : RegNo) (s : State) : exec (.mulhI32 g d a b) s = execMulhI32 g d a b s := rfl
theorem exec_mulhN32 (g : Guard) (d : RegNo) (a : RegNo) (b : RegNo) (s : State) : exec (.mulhN32 g d a b) s = execMulhN32 g d a b s := rfl
theorem exec_mad (g : Guard) (d : RegNo) (a : RegNo) (b : RegNo) (c : RegNo) (s : State) : exec (.mad g d a b c) s = execMad g d a b c s := rfl
theorem exec_mulwI32 (g : Guard) (d : RegNo) (a : RegNo) (b : RegNo) (s : State) : exec (.mulwI32 g d a b) s = execMulwI32 g d a b s := rfl
theorem exec_mulwN32 (g : Guard) (d : RegNo) (a : RegNo) (b : RegNo) (s : State) : exec (.mulwN32 g d a b) s = execMulwN32 g d a b s := rfl
theorem exec_madwN32 (g : Guard) (d : RegNo) (a : RegNo) (b : RegNo) (c : RegNo) (s : State) : exec (.madwN32 g d a b c) s = execMadwN32 g d a b c s := rfl
theorem exec_madwI32 (g : Guard) (d : RegNo) (a : RegNo) (b : RegNo) (c : RegNo) (s : State) : exec (.madwI32 g d a b c) s = execMadwI32 g d a b c s := rfl
theorem exec_minI32 (g : Guard) (d : RegNo) (a : RegNo) (b : RegNo) (s : State) : exec (.minI32 g d a b) s = execMinI32 g d a b s := rfl
theorem exec_maxI32 (g : Guard) (d : RegNo) (a : RegNo) (b : RegNo) (s : State) : exec (.maxI32 g d a b) s = execMaxI32 g d a b s := rfl
theorem exec_minN32 (g : Guard) (d : RegNo) (a : RegNo) (b : RegNo) (s : State) : exec (.minN32 g d a b) s = execMinN32 g d a b s := rfl
theorem exec_maxN32 (g : Guard) (d : RegNo) (a : RegNo) (b : RegNo) (s : State) : exec (.maxN32 g d a b) s = execMaxN32 g d a b s := rfl
theorem exec_abs (g : Guard) (d : RegNo) (a : RegNo) (s : State) : exec (.abs g d a) s = execAbs g d a s := rfl
theorem exec_neg (g : Guard) (d : RegNo) (a : RegNo) (s : State) : exec (.neg g d a) s = execNeg g d a s := rfl
theorem exec_sad (g : Guard) (d : RegNo) (a : RegNo) (b : RegNo) (c : RegNo) (s : State) : exec (.sad g d a b c) s = execSad g d a b c s := rfl
theorem exec_sadN32 (g : Guard) (d : RegNo) (a : RegNo) (b : RegNo) (c : RegNo) (s : State) : exec (.sadN32 g d a b c) s = execSadN32 g d a b c s := rfl
theorem exec_and (g : Guard) (d : RegNo) (a : RegNo) (b : RegNo) (s : State) : exec (.and g d a b) s = execAnd g d a b s := rfl
theorem exec_or (g : Guard) (d : RegNo) (a : RegNo) (b : RegNo) (s : State) : exec (.or g d a b) s = execOr g d a b s := rfl
theorem exec_xor (g : Guard) (d : RegNo) (a : RegNo) (b : RegNo) (s : State) : exec (.xor g d a b) s = execXor g d a b s := rfl
theorem exec_andn (g : Guard) (d : RegNo) (a : RegNo) (b : RegNo) (s : State) : exec (.andn g d a b) s = execAndn g d a b s := rfl
theorem exec_orn (g : Guard) (d : RegNo) (a : RegNo) (b : RegNo) (s : State) : exec (.orn g d a b) s = execOrn g d a b s := rfl
theorem exec_lop3 (g : Guard) (tt : BitVec 8) (d : RegNo) (a : RegNo) (b : RegNo) (c : RegNo) (s : State) : exec (.lop3 g tt d a b c) s = execLop3 g tt d a b c s := rfl
theorem exec_shl (g : Guard) (d : RegNo) (a : RegNo) (b : RegNo) (s : State) : exec (.shl g d a b) s = execShl g d a b s := rfl
theorem exec_shr (g : Guard) (d : RegNo) (a : RegNo) (b : RegNo) (s : State) : exec (.shr g d a b) s = execShr g d a b s := rfl
theorem exec_sra (g : Guard) (d : RegNo) (a : RegNo) (b : RegNo) (s : State) : exec (.sra g d a b) s = execSra g d a b s := rfl
theorem exec_rol (g : Guard) (d : RegNo) (a : RegNo) (b : RegNo) (s : State) : exec (.rol g d a b) s = execRol g d a b s := rfl
theorem exec_ror (g : Guard) (d : RegNo) (a : RegNo) (b : RegNo) (s : State) : exec (.ror g d a b) s = execRor g d a b s := rfl
theorem exec_fsl (g : Guard) (d : RegNo) (a : RegNo) (b : RegNo) (c : RegNo) (s : State) : exec (.fsl g d a b c) s = execFsl g d a b c s := rfl
theorem exec_fsr (g : Guard) (d : RegNo) (a : RegNo) (b : RegNo) (c : RegNo) (s : State) : exec (.fsr g d a b c) s = execFsr g d a b c s := rfl
theorem exec_popc (g : Guard) (d : RegNo) (a : RegNo) (s : State) : exec (.popc g d a) s = execPopc g d a s := rfl
theorem exec_clz (g : Guard) (d : RegNo) (a : RegNo) (s : State) : exec (.clz g d a) s = execClz g d a s := rfl
theorem exec_ctz (g : Guard) (d : RegNo) (a : RegNo) (s : State) : exec (.ctz g d a) s = execCtz g d a s := rfl
theorem exec_brev (g : Guard) (d : RegNo) (a : RegNo) (s : State) : exec (.brev g d a) s = execBrev g d a s := rfl
theorem exec_bfxI32 (g : Guard) (d : RegNo) (a : RegNo) (c : RegNo) (s : State) : exec (.bfxI32 g d a c) s = execBfxI32 g d a c s := rfl
theorem exec_bfxN32 (g : Guard) (d : RegNo) (a : RegNo) (c : RegNo) (s : State) : exec (.bfxN32 g d a c) s = execBfxN32 g d a c s := rfl
theorem exec_bfi (g : Guard) (d : RegNo) (a : RegNo) (b : RegNo) (c : RegNo) (s : State) : exec (.bfi g d a b c) s = execBfi g d a b c s := rfl
theorem exec_bil2 (g : Guard) (d : RegNo) (a : RegNo) (b : RegNo) (s : State) : exec (.bil2 g d a b) s = execBil2 g d a b s := rfl
theorem exec_bil3 (g : Guard) (d : RegNo) (a : RegNo) (b : RegNo) (c : RegNo) (s : State) : exec (.bil3 g d a b c) s = execBil3 g d a b c s := rfl
theorem exec_bdl3 (g : Guard) (d : RegNo) (a : RegNo) (b : RegNo) (s : State) : exec (.bdl3 g d a b) s = execBdl3 g d a b s := rfl
theorem exec_bdl2 (g : Guard) (d : RegNo) (a : RegNo) (b : RegNo) (s : State) : exec (.bdl2 g d a b) s = execBdl2 g d a b s := rfl
theorem exec_icmp (g : Guard) (cond : Cond) (comb : Comb) (pred : Bool) (d : RegNo) (a : RegNo) (b : RegNo) (c : RegNo) (s : State) : exec (.icmp g cond comb pred d a b c) s = execIcmp g cond comb pred d a b c s := rfl
theorem exec_sel (g : Guard) (d : RegNo) (a : RegNo) (b : RegNo) (c : RegNo) (s : State) : exec (.sel g d a b c) s = execSel g d a b c s := rfl
theorem exec_sxt8 (g : Guard) (d : RegNo) (a : RegNo) (s : State) : exec (.sxt8 g d a) s = execSxt8 g d a s := rfl
theorem exec_sxt16 (g : Guard) (d : RegNo) (a : RegNo) (s : State) : exec (.sxt16 g d a) s = execSxt16 g d a s := rfl
theorem exec_zxt8 (g : Guard) (d : RegNo) (a : RegNo) (s : State) : exec (.zxt8 g d a) s = execZxt8 g d a s := rfl
theorem exec_zxt16 (g : Guard) (d : RegNo) (a : RegNo) (s : State) : exec (.zxt16 g d a) s = execZxt16 g d a s := rfl
theorem exec_prm (g : Guard) (d : RegNo) (a : RegNo) (b : RegNo) (c : RegNo) (s : State) : exec (.prm g d a b c) s = execPrm g d a b c s := rfl
theorem exec_bswp (g : Guard) (d : RegNo) (a : RegNo) (s : State) : exec (.bswp g d a) s = execBswp g d a s := rfl
theorem exec_divI32 (g : Guard) (d : RegNo) (a : RegNo) (b : RegNo) (s : State) : exec (.divI32 g d a b) s = execDivI32 g d a b s := rfl
theorem exec_divN32 (g : Guard) (d : RegNo) (a : RegNo) (b : RegNo) (s : State) : exec (.divN32 g d a b) s = execDivN32 g d a b s := rfl
theorem exec_remI32 (g : Guard) (d : RegNo) (a : RegNo) (b : RegNo) (s : State) : exec (.remI32 g d a b) s = execRemI32 g d a b s := rfl
theorem exec_remN32 (g : Guard) (d : RegNo) (a : RegNo) (b : RegNo) (s : State) : exec (.remN32 g d a b) s = execRemN32 g d a b s := rfl
theorem exec_mov (g : Guard) (d : RegNo) (a : RegNo) (s : State) : exec (.mov g d a) s = execMov g d a s := rfl
theorem exec_mov64 (g : Guard) (d : RegNo) (a : RegNo) (s : State) : exec (.mov64 g d a) s = execMov64 g d a s := rfl
theorem exec_mpadd (g : Guard) (dig : BitVec 5) (d : RegNo) (a : RegNo) (b : RegNo) (s : State) : exec (.mpadd g dig d a b) s = execMpadd g dig d a b s := rfl
theorem exec_mpmk (g : Guard) (d : RegNo) (a : RegNo) (b : RegNo) (s : State) : exec (.mpmk g d a b) s = execMpmk g d a b s := rfl
theorem exec_mpcore (g : Guard) (d : RegNo) (a : RegNo) (s : State) : exec (.mpcore g d a) s = execMpcore g d a s := rfl
theorem exec_mpoff (g : Guard) (d : RegNo) (a : RegNo) (s : State) : exec (.mpoff g d a) s = execMpoff g d a s := rfl
theorem exec_mploc (g : Guard) (d : RegNo) (a : RegNo) (s : State) : exec (.mploc g d a) s = execMploc g d a s := rfl
theorem exec_addi (g : Guard) (imm : Word) (d : RegNo) (a : RegNo) (s : State) : exec (.addi g imm d a) s = execAddi g imm d a s := rfl
theorem exec_muli (g : Guard) (imm : Word) (d : RegNo) (a : RegNo) (s : State) : exec (.muli g imm d a) s = execMuli g imm d a s := rfl
theorem exec_andi (g : Guard) (imm : Word) (d : RegNo) (a : RegNo) (s : State) : exec (.andi g imm d a) s = execAndi g imm d a s := rfl
theorem exec_ori (g : Guard) (imm : Word) (d : RegNo) (a : RegNo) (s : State) : exec (.ori g imm d a) s = execOri g imm d a s := rfl
theorem exec_xori (g : Guard) (imm : Word) (d : RegNo) (a : RegNo) (s : State) : exec (.xori g imm d a) s = execXori g imm d a s := rfl
theorem exec_movi (g : Guard) (imm : Word) (d : RegNo) (s : State) : exec (.movi g imm d) s = execMovi g imm d s := rfl
theorem exec_icmpi (g : Guard) (cond : Cond) (imm : BitVec 28) (d : RegNo) (a : RegNo) (s : State) : exec (.icmpi g cond imm d a) s = execIcmpi g cond imm d a s := rfl
theorem exec_shli (g : Guard) (imm : Word) (d : RegNo) (a : RegNo) (s : State) : exec (.shli g imm d a) s = execShli g imm d a s := rfl
theorem exec_shri (g : Guard) (imm : Word) (d : RegNo) (a : RegNo) (s : State) : exec (.shri g imm d a) s = execShri g imm d a s := rfl
theorem exec_srai (g : Guard) (imm : Word) (d : RegNo) (a : RegNo) (s : State) : exec (.srai g imm d a) s = execSrai g imm d a s := rfl
theorem exec_miniI32 (g : Guard) (imm : Word) (d : RegNo) (a : RegNo) (s : State) : exec (.miniI32 g imm d a) s = execMiniI32 g imm d a s := rfl
theorem exec_maxiI32 (g : Guard) (imm : Word) (d : RegNo) (a : RegNo) (s : State) : exec (.maxiI32 g imm d a) s = execMaxiI32 g imm d a s := rfl
theorem exec_addi64 (g : Guard) (imm : Word) (d : RegNo) (a : RegNo) (s : State) : exec (.addi64 g imm d a) s = execAddi64 g imm d a s := rfl
theorem exec_pairWord (x : PairSlot) (y : Option PairSlot) (s : State) : exec (.pairWord x y) s = execPairWord x y s := rfl
theorem exec_fadd (g : Guard) (md : BitVec 8) (d : RegNo) (a : RegNo) (b : RegNo) (s : State) : exec (.fadd g md d a b) s = execFadd g md d a b s := rfl
theorem exec_fsub (g : Guard) (md : BitVec 8) (d : RegNo) (a : RegNo) (b : RegNo) (s : State) : exec (.fsub g md d a b) s = execFsub g md d a b s := rfl
theorem exec_fmul (g : Guard) (md : BitVec 8) (d : RegNo) (a : RegNo) (b : RegNo) (s : State) : exec (.fmul g md d a b) s = execFmul g md d a b s := rfl
theorem exec_ffma (g : Guard) (md : BitVec 8) (d : RegNo) (a : RegNo) (b : RegNo) (c : RegNo) (s : State) : exec (.ffma g md d a b c) s = execFfma g md d a b c s := rfl
theorem exec_ffms (g : Guard) (md : BitVec 8) (d : RegNo) (a : RegNo) (b : RegNo) (c : RegNo) (s : State) : exec (.ffms g md d a b c) s = execFfms g md d a b c s := rfl
theorem exec_fnma (g : Guard) (md : BitVec 8) (d : RegNo) (a : RegNo) (b : RegNo) (c : RegNo) (s : State) : exec (.fnma g md d a b c) s = execFnma g md d a b c s := rfl
theorem exec_fnms (g : Guard) (md : BitVec 8) (d : RegNo) (a : RegNo) (b : RegNo) (c : RegNo) (s : State) : exec (.fnms g md d a b c) s = execFnms g md d a b c s := rfl
theorem exec_fmin (g : Guard) (d : RegNo) (a : RegNo) (b : RegNo) (s : State) : exec (.fmin g d a b) s = execFmin g d a b s := rfl
theorem exec_fmax (g : Guard) (d : RegNo) (a : RegNo) (b : RegNo) (s : State) : exec (.fmax g d a b) s = execFmax g d a b s := rfl
theorem exec_fminp (g : Guard) (d : RegNo) (a : RegNo) (b : RegNo) (s : State) : exec (.fminp g d a b) s = execFminp g d a b s := rfl
theorem exec_fmaxp (g : Guard) (d : RegNo) (a : RegNo) (b : RegNo) (s : State) : exec (.fmaxp g d a b) s = execFmaxp g d a b s := rfl
theorem exec_fcmp (g : Guard) (cond : FCond) (comb : Comb) (pred : Bool) (d : RegNo) (a : RegNo) (b : RegNo) (c : RegNo) (s : State) : exec (.fcmp g cond comb pred d a b c) s = execFcmp g cond comb pred d a b c s := rfl
theorem exec_frcp (g : Guard) (d : RegNo) (a : RegNo) (s : State) : exec (.frcp g d a) s = execFrcp g d a s := rfl
theorem exec_frsq (g : Guard) (d : RegNo) (a : RegNo) (s : State) : exec (.frsq g d a) s = execFrsq g d a s := rfl
theorem exec_fsqrt (g : Guard) (d : RegNo) (a : RegNo) (s : State) : exec (.fsqrt g d a) s = execFsqrt g d a s := rfl
theorem exec_fex2 (g : Guard) (d : RegNo) (a : RegNo) (s : State) : exec (.fex2 g d a) s = execFex2 g d a s := rfl
theorem exec_flg2 (g : Guard) (d : RegNo) (a : RegNo) (s : State) : exec (.flg2 g d a) s = execFlg2 g d a s := rfl
theorem exec_fsinp (g : Guard) (d : RegNo) (a : RegNo) (s : State) : exec (.fsinp g d a) s = execFsinp g d a s := rfl
theorem exec_fcosp (g : Guard) (d : RegNo) (a : RegNo) (s : State) : exec (.fcosp g d a) s = execFcosp g d a s := rfl
theorem exec_ftanh (g : Guard) (d : RegNo) (a : RegNo) (s : State) : exec (.ftanh g d a) s = execFtanh g d a s := rfl
theorem exec_fdiv (g : Guard) (d : RegNo) (a : RegNo) (b : RegNo) (s : State) : exec (.fdiv g d a b) s = execFdiv g d a b s := rfl
theorem exec_fcls (g : Guard) (d : RegNo) (a : RegNo) (s : State) : exec (.fcls g d a) s = execFcls g d a s := rfl
theorem exec_fscl (g : Guard) (d : RegNo) (a : RegNo) (b : RegNo) (s : State) : exec (.fscl g d a b) s = execFscl g d a b s := rfl
theorem exec_frint (g : Guard) (rm : BitVec 2) (d : RegNo) (a : RegNo) (s : State) : exec (.frint g rm d a) s = execFrint g rm d a s := rfl
theorem exec_ffrac (g : Guard) (d : RegNo) (a : RegNo) (s : State) : exec (.ffrac g d a) s = execFfrac g d a s := rfl
theorem exec_fcpsgn (g : Guard) (d : RegNo) (a : RegNo) (b : RegNo) (s : State) : exec (.fcpsgn g d a b) s = execFcpsgn g d a b s := rfl
theorem exec_hadd (g : Guard) (bf : Bool) (d : RegNo) (a : RegNo) (b : RegNo) (s : State) : exec (.hadd g bf d a b) s = execHadd g bf d a b s := rfl
theorem exec_hsub (g : Guard) (bf : Bool) (d : RegNo) (a : RegNo) (b : RegNo) (s : State) : exec (.hsub g bf d a b) s = execHsub g bf d a b s := rfl
theorem exec_hmul (g : Guard) (bf : Bool) (d : RegNo) (a : RegNo) (b : RegNo) (s : State) : exec (.hmul g bf d a b) s = execHmul g bf d a b s := rfl
theorem exec_hfma (g : Guard) (bf : Bool) (d : RegNo) (a : RegNo) (b : RegNo) (c : RegNo) (s : State) : exec (.hfma g bf d a b c) s = execHfma g bf d a b c s := rfl
theorem exec_hmin (g : Guard) (bf : Bool) (d : RegNo) (a : RegNo) (b : RegNo) (s : State) : exec (.hmin g bf d a b) s = execHmin g bf d a b s := rfl
theorem exec_hmax (g : Guard) (bf : Bool) (d : RegNo) (a : RegNo) (b : RegNo) (s : State) : exec (.hmax g bf d a b) s = execHmax g bf d a b s := rfl
theorem exec_dot (g : Guard) (fmt : DotFmt) (d : RegNo) (a : RegNo) (b : RegNo) (c : RegNo) (s : State) : exec (.dot g fmt d a b c) s = execDot g fmt d a b c s := rfl
theorem exec_cvt (g : Guard) (code : BitVec 6) (idx : BitVec 2) (d : RegNo) (a : RegNo) (b : RegNo) (s : State) : exec (.cvt g code idx d a b) s = execCvt g code idx d a b s := rfl
theorem exec_qpk (g : Guard) (fmt : QFmt) (d : RegNo) (a : RegNo) (b : RegNo) (s : State) : exec (.qpk g fmt d a b) s = execQpk g fmt d a b s := rfl
theorem exec_qupk (g : Guard) (fmt : QFmt) (d : RegNo) (a : RegNo) (b : RegNo) (s : State) : exec (.qupk g fmt d a b) s = execQupk g fmt d a b s := rfl
theorem exec_mxsc (g : Guard) (fmt : QFmt) (d : RegNo) (a : RegNo) (s : State) : exec (.mxsc g fmt d a) s = execMxsc g fmt d a s := rfl
theorem exec_shfl (g : Guard) (kind : ShflKind) (width : BitVec 3) (fate : ShflFate) (d : RegNo) (a : RegNo) (b : RegNo) (s : State) : exec (.shfl g kind width fate d a b) s = execShfl g kind width fate d a b s := rfl
theorem exec_voteAny (g : Guard) (d : RegNo) (a : RegNo) (s : State) : exec (.voteAny g d a) s = execVoteAny g d a s := rfl
theorem exec_voteAll (g : Guard) (d : RegNo) (a : RegNo) (s : State) : exec (.voteAll g d a) s = execVoteAll g d a s := rfl
theorem exec_voteUni (g : Guard) (d : RegNo) (a : RegNo) (s : State) : exec (.voteUni g d a) s = execVoteUni g d a s := rfl
theorem exec_ballot (g : Guard) (d : RegNo) (a : RegNo) (s : State) : exec (.ballot g d a) s = execBallot g d a s := rfl
theorem exec_matchLanes (g : Guard) (d : RegNo) (a : RegNo) (s : State) : exec (.matchLanes g d a) s = execMatchLanes g d a s := rfl
theorem exec_lred (g : Guard) (op : LaneOp) (d : RegNo) (a : RegNo) (s : State) : exec (.lred g op d a) s = execLred g op d a s := rfl
theorem exec_lscan (g : Guard) (op : LaneOp) (ex : Bool) (d : RegNo) (a : RegNo) (s : State) : exec (.lscan g op ex d a) s = execLscan g op ex d a s := rfl
theorem exec_lmask (g : Guard) (d : RegNo) (s : State) : exec (.lmask g d) s = execLmask g d s := rfl
theorem exec_lbelow (g : Guard) (d : RegNo) (s : State) : exec (.lbelow g d) s = execLbelow g d s := rfl
theorem exec_lcnt (g : Guard) (d : RegNo) (s : State) : exec (.lcnt g d) s = execLcnt g d s := rfl
theorem exec_lfirst (g : Guard) (d : RegNo) (s : State) : exec (.lfirst g d) s = execLfirst g d s := rfl
theorem exec_elect (g : Guard) (d : RegNo) (s : State) : exec (.elect g d) s = execElect g d s := rfl
theorem exec_ld (g : Guard) (sz : Sz) (off : BitVec 16) (d : RegNo) (a : RegNo) (s : State) : exec (.ld g sz off d a) s = execLd g sz off d a s := rfl
theorem exec_st (g : Guard) (sz : Sz) (off : BitVec 16) (a : RegNo) (b : RegNo) (s : State) : exec (.st g sz off a b) s = execSt g sz off a b s := rfl
theorem exec_ldk (g : Guard) (sz : Sz) (off : BitVec 16) (d : RegNo) (a : RegNo) (s : State) : exec (.ldk g sz off d a) s = execLdk g sz off d a s := rfl
theorem exec_ldix (g : Guard) (sz : Sz) (sh : BitVec 3) (d : RegNo) (a : RegNo) (b : RegNo) (s : State) : exec (.ldix g sz sh d a b) s = execLdix g sz sh d a b s := rfl
theorem exec_atl (g : Guard) (aop : Aop) (scope : BitVec 3) (off : BitVec 10) (d : RegNo) (a : RegNo) (b : RegNo) (s : State) : exec (.atl g aop scope off d a b) s = execAtl g aop scope off d a b s := rfl
theorem exec_atm (g : Guard) (sz : Sz) (aop : Aop) (scope : BitVec 3) (off : BitVec 10) (d : RegNo) (a : RegNo) (b : RegNo) (s : State) : exec (.atm g sz aop scope off d a b) s = execAtm g sz aop scope off d a b s := rfl
theorem exec_red (g : Guard) (sz : Sz) (aop : Aop) (scope : BitVec 3) (off : BitVec 10) (ord : Bool) (a : RegNo) (b : RegNo) (s : State) : exec (.red g sz aop scope off ord a b) s = execRed g sz aop scope off ord a b s := rfl
theorem exec_pst (g : Guard) (sz : Sz) (off : BitVec 16) (a : RegNo) (b : RegNo) (s : State) : exec (.pst g sz off a b) s = execPst g sz off a b s := rfl
theorem exec_lease (g : Guard) (off : BitVec 16) (d : RegNo) (a : RegNo) (s : State) : exec (.lease g off d a) s = execLease g off d a s := rfl
theorem exec_lrel (g : Guard) (d : RegNo) (s : State) : exec (.lrel g d) s = execLrel g d s := rfl
theorem exec_pub (g : Guard) (sz : Sz) (off : BitVec 16) (a : RegNo) (b : RegNo) (s : State) : exec (.pub g sz off a b) s = execPub g sz off a b s := rfl
theorem exec_subs (g : Guard) (d : RegNo) (a : RegNo) (s : State) : exec (.subs g d a) s = execSubs g d a s := rfl
theorem exec_unsub (g : Guard) (d : RegNo) (a : RegNo) (s : State) : exec (.unsub g d a) s = execUnsub g d a s := rfl
theorem exec_lndInit (g : Guard) (scope : BitVec 3) (a : RegNo) (b : RegNo) (c : RegNo) (s : State) : exec (.lndInit g scope a b c) s = execLndInit g scope a b c s := rfl
theorem exec_lndArr (g : Guard) (d : RegNo) (a : RegNo) (b : RegNo) (s : State) : exec (.lndArr g d a b) s = execLndArr g d a b s := rfl
theorem exec_lndExp (g : Guard) (d : RegNo) (a : RegNo) (b : RegNo) (s : State) : exec (.lndExp g d a b) s = execLndExp g d a b s := rfl
theorem exec_lndWait (g : Guard) (d : RegNo) (a : RegNo) (b : RegNo) (s : State) : exec (.lndWait g d a b) s = execLndWait g d a b s := rfl
theorem exec_lndTest (g : Guard) (d : RegNo) (a : RegNo) (b : RegNo) (s : State) : exec (.lndTest g d a b) s = execLndTest g d a b s := rfl
theorem exec_lndInv (g : Guard) (d : RegNo) (a : RegNo) (s : State) : exec (.lndInv g d a) s = execLndInv g d a s := rfl
theorem exec_ringInit (g : Guard) (scope : BitVec 3) (a : RegNo) (b : RegNo) (c : RegNo) (s : State) : exec (.ringInit g scope a b c) s = execRingInit g scope a b c s := rfl
theorem exec_ringRsv (g : Guard) (d : RegNo) (a : RegNo) (s : State) : exec (.ringRsv g d a) s = execRingRsv g d a s := rfl
theorem exec_ringCmt (g : Guard) (d : RegNo) (a : RegNo) (b : RegNo) (s : State) : exec (.ringCmt g d a b) s = execRingCmt g d a b s := rfl
theorem exec_ringAtt (g : Guard) (d : RegNo) (a : RegNo) (s : State) : exec (.ringAtt g d a) s = execRingAtt g d a s := rfl
theorem exec_ringWait (g : Guard) (d : RegNo) (a : RegNo) (b : RegNo) (s : State) : exec (.ringWait g d a b) s = execRingWait g d a b s := rfl
theorem exec_ringRel (g : Guard) (d : RegNo) (a : RegNo) (b : RegNo) (s : State) : exec (.ringRel g d a b) s = execRingRel g d a b s := rfl
theorem exec_ringDet (g : Guard) (d : RegNo) (a : RegNo) (b : RegNo) (s : State) : exec (.ringDet g d a b) s = execRingDet g d a b s := rfl
theorem exec_cntInit (g : Guard) (d : RegNo) (a : RegNo) (b : RegNo) (s : State) : exec (.cntInit g d a b) s = execCntInit g d a b s := rfl
theorem exec_cntDec (g : Guard) (a : RegNo) (b : RegNo) (s : State) : exec (.cntDec g a b) s = execCntDec g a b s := rfl
theorem exec_cntRdec (g : Guard) (a : RegNo) (b : RegNo) (s : State) : exec (.cntRdec g a b) s = execCntRdec g a b s := rfl
theorem exec_cntRd (g : Guard) (d : RegNo) (a : RegNo) (s : State) : exec (.cntRd g d a) s = execCntRd g d a s := rfl
theorem exec_cp (g : Guard) (ordered : Bool) (ring : Bool) (d : RegNo) (a : RegNo) (b : RegNo) (c : RegNo) (s : State) : exec (.cp g ordered ring d a b c) s = execCp g ordered ring d a b c s := rfl
theorem exec_cpt (g : Guard) (op : TileOp) (d : RegNo) (a : RegNo) (b : RegNo) (c : RegNo) (s : State) : exec (.cpt g op d a b c) s = execCpt g op d a b c s := rfl
theorem exec_cpg (g : Guard) (sz : BitVec 2) (d : RegNo) (a : RegNo) (b : RegNo) (c : RegNo) (s : State) : exec (.cpg g sz d a b c) s = execCpg g sz d a b c s := rfl
theorem exec_collAllred (g : Guard) (d : RegNo) (a : RegNo) (s : State) : exec (.collAllred g d a) s = execCollAllred g d a s := rfl
theorem exec_collRedsct (g : Guard) (d : RegNo) (a : RegNo) (s : State) : exec (.collRedsct g d a) s = execCollRedsct g d a s := rfl
theorem exec_collAllgat (g : Guard) (d : RegNo) (a : RegNo) (s : State) : exec (.collAllgat g d a) s = execCollAllgat g d a s := rfl
theorem exec_collBcast (g : Guard) (d : RegNo) (a : RegNo) (s : State) : exec (.collBcast g d a) s = execCollBcast g d a s := rfl
theorem exec_cpqSt (g : Guard) (d : RegNo) (s : State) : exec (.cpqSt g d) s = execCpqSt g d s := rfl
theorem exec_cpqCnl (g : Guard) (d : RegNo) (a : RegNo) (s : State) : exec (.cpqCnl g d a) s = execCpqCnl g d a s := rfl
theorem exec_cpqFr (g : Guard) (free : Bool) (d : RegNo) (a : RegNo) (s : State) : exec (.cpqFr g free d a) s = execCpqFr g free d a s := rfl
theorem exec_twait (g : Guard) (d : RegNo) (a : RegNo) (b : RegNo) (c : RegNo) (s : State) : exec (.twait g d a b c) s = execTwait g d a b c s := rfl
theorem exec_barSync (a : RegNo) (b : RegNo) (s : State) : exec (.barSync a b) s = execBarSync a b s := rfl
theorem exec_barArr (d : RegNo) (a : RegNo) (b : RegNo) (s : State) : exec (.barArr d a b) s = execBarArr d a b s := rfl
theorem exec_barWait (a : RegNo) (b : RegNo) (s : State) : exec (.barWait a b) s = execBarWait a b s := rfl
theorem exec_cbarSync (g : Guard) (scope : BitVec 3) (d : RegNo) (s : State) : exec (.cbarSync g scope d) s = execCbarSync g scope d s := rfl
theorem exec_cbarMax (g : Guard) (scope : BitVec 3) (d : RegNo) (a : RegNo) (s : State) : exec (.cbarMax g scope d a) s = execCbarMax g scope d a s := rfl
theorem exec_cbarMaxn (g : Guard) (scope : BitVec 3) (d : RegNo) (a : RegNo) (s : State) : exec (.cbarMaxn g scope d a) s = execCbarMaxn g scope d a s := rfl
theorem exec_cbarAdd (g : Guard) (scope : BitVec 3) (d : RegNo) (a : RegNo) (s : State) : exec (.cbarAdd g scope d a) s = execCbarAdd g scope d a s := rfl
theorem exec_cbarMin (g : Guard) (scope : BitVec 3) (d : RegNo) (a : RegNo) (s : State) : exec (.cbarMin g scope d a) s = execCbarMin g scope d a s := rfl
theorem exec_acq (g : Guard) (scope : BitVec 3) (d : RegNo) (a : RegNo) (b : RegNo) (s : State) : exec (.acq g scope d a b) s = execAcq g scope d a b s := rfl
theorem exec_rel (g : Guard) (scope : BitVec 3) (d : RegNo) (a : RegNo) (s : State) : exec (.rel g scope d a) s = execRel g scope d a s := rfl
theorem exec_bind (g : Guard) (d : RegNo) (a : RegNo) (b : RegNo) (c : RegNo) (s : State) : exec (.bind g d a b c) s = execBind g d a b c s := rfl
theorem exec_fence (g : Guard) (mask : BitVec 4) (scope : BitVec 3) (s : State) : exec (.fence g mask scope) s = execFence g mask scope s := rfl
theorem exec_slpUntil (g : Guard) (a : RegNo) (s : State) : exec (.slpUntil g a) s = execSlpUntil g a s := rfl
theorem exec_slpFor (g : Guard) (a : RegNo) (s : State) : exec (.slpFor g a) s = execSlpFor g a s := rfl
theorem exec_yield (g : Guard) (s : State) : exec (.yield g) s = execYield g s := rfl
theorem exec_mxal (g : Guard) (a : RegNo) (s : State) : exec (.mxal g a) s = execMxal g a s := rfl
theorem exec_mxfr (g : Guard) (s : State) : exec (.mxfr g) s = execMxfr g s := rfl
theorem exec_mxl (g : Guard) (latch : BitVec 3) (transp : Bool) (esz : BitVec 2) (a : RegNo) (b : RegNo) (s : State) : exec (.mxl g latch transp esz a b) s = execMxl g latch transp esz a b s := rfl
theorem exec_mxg (g : Guard) (latch : BitVec 1) (a : RegNo) (b : RegNo) (s : State) : exec (.mxg g latch a b) s = execMxg g latch a b s := rfl
theorem exec_mma (g : Guard) (x : Bool) (y : Bool) (z : Bool) (zi : Bool) (half : Bool) (nc : Bool) (a : RegNo) (b : RegNo) (s : State) : exec (.mma g x y z zi half nc a b) s = execMma g x y z zi half nc a b s := rfl
theorem exec_mxs (g : Guard) (ty : BitVec 3) (a : RegNo) (b : RegNo) (c : RegNo) (s : State) : exec (.mxs g ty a b c) s = execMxs g ty a b c s := rfl
theorem exec_mxr (g : Guard) (d : RegNo) (b : RegNo) (c : RegNo) (s : State) : exec (.mxr g d b c) s = execMxr g d b c s := rfl
theorem exec_mxw (g : Guard) (a : RegNo) (b : RegNo) (c : RegNo) (s : State) : exec (.mxw g a b c) s = execMxw g a b c s := rfl
theorem exec_mxz (g : Guard) (b : RegNo) (s : State) : exec (.mxz g b) s = execMxz g b s := rfl
theorem exec_turnTake (g : Guard) (s : State) : exec (.turnTake g) s = execTurnTake g s := rfl
theorem exec_turnGive (g : Guard) (s : State) : exec (.turnGive g) s = execTurnGive g s := rfl
theorem exec_turnWho (g : Guard) (d : RegNo) (s : State) : exec (.turnWho g d) s = execTurnWho g d s := rfl
theorem exec_climb (g : Guard) (d : RegNo) (a : RegNo) (b : RegNo) (c : RegNo) (s : State) : exec (.climb g d a b c) s = execClimb g d a b c s := rfl
theorem exec_nbox (g : Guard) (tries : BitVec 4) (s : State) : exec (.nbox g tries) s = execNbox g tries s := rfl
theorem exec_ntri (g : Guard) (tries : BitVec 4) (s : State) : exec (.ntri g tries) s = execNtri g tries s := rfl
theorem exec_nlink (g : Guard) (s : State) : exec (.nlink g) s = execNlink g s := rfl
theorem exec_hop (g : Guard) (a : RegNo) (s : State) : exec (.hop g a) s = execHop g a s := rfl
theorem exec_cand (g : Guard) (s : State) : exec (.cand g) s = execCand g s := rfl
theorem exec_rsync (g : Guard) (s : State) : exec (.rsync g) s = execRsync g s := rfl
theorem exec_fin (g : Guard) (s : State) : exec (.fin g) s = execFin g s := rfl
theorem exec_emit (g : Guard) (d : RegNo) (a : RegNo) (b : RegNo) (s : State) : exec (.emit g d a b) s = execEmit g d a b s := rfl
theorem exec_emith (g : Guard) (d : RegNo) (a : RegNo) (b : RegNo) (c : RegNo) (s : State) : exec (.emith g d a b c) s = execEmith g d a b c s := rfl
theorem exec_graphRsv (g : Guard) (here : Bool) (d : RegNo) (a : RegNo) (b : RegNo) (c : RegNo) (s : State) : exec (.graphRsv g here d a b c) s = execGraphRsv g here d a b c s := rfl
theorem exec_gdone (g : Guard) (a : RegNo) (s : State) : exec (.gdone g a) s = execGdone g a s := rfl
theorem exec_take (g : Guard) (d : RegNo) (s : State) : exec (.take g d) s = execTake g d s := rfl
theorem exec_lnch (g : Guard) (d : RegNo) (a : RegNo) (s : State) : exec (.lnch g d a) s = execLnch g d a s := rfl
theorem exec_lnchw (g : Guard) (d : RegNo) (a : RegNo) (s : State) : exec (.lnchw g d a) s = execLnchw g d a s := rfl
theorem exec_pair (g : Guard) (d : RegNo) (a : RegNo) (s : State) : exec (.pair g d a) s = execPair g d a s := rfl
theorem exec_unpair (g : Guard) (d : RegNo) (s : State) : exec (.unpair g d) s = execUnpair g d s := rfl
theorem exec_fpck (g : Guard) (d : RegNo) (s : State) : exec (.fpck g d) s = execFpck g d s := rfl
theorem exec_br (g : Guard) (disp : BitVec 24) (tag : BitVec 4) (uni : Bool) (s : State) : exec (.br g disp tag uni) s = execBr g disp tag uni s := rfl
theorem exec_call (g : Guard) (disp : BitVec 24) (tag : BitVec 4) (uni : Bool) (d : RegNo) (s : State) : exec (.call g disp tag uni d) s = execCall g disp tag uni d s := rfl
theorem exec_jmpi (g : Guard) (tag : BitVec 4) (a : RegNo) (s : State) : exec (.jmpi g tag a) s = execJmpi g tag a s := rfl
theorem exec_ret (g : Guard) (tag : BitVec 4) (a : RegNo) (s : State) : exec (.ret g tag a) s = execRet g tag a s := rfl
theorem exec_join (tag : BitVec 4) (s : State) : exec (.join tag) s = execJoin tag s := rfl
theorem exec_exit (g : Guard) (s : State) : exec (.exit g) s = execExit g s := rfl
theorem exec_trap (g : Guard) (code : BitVec 16) (s : State) : exec (.trap g code) s = execTrap g code s := rfl
theorem exec_brk (g : Guard) (code : BitVec 16) (s : State) : exec (.brk g code) s = execBrk g code s := rfl
theorem exec_eret (s : State) : exec (.eret) s = execEret s := rfl
theorem exec_nop (g : Guard) (s : State) : exec (.nop g) s = execNop g s := rfl
theorem exec_csrRd (g : Guard) (csr : BitVec 12) (d : RegNo) (s : State) : exec (.csrRd g csr d) s = execCsrRd g csr d s := rfl
theorem exec_csrWr (g : Guard) (csr : BitVec 12) (d : RegNo) (a : RegNo) (s : State) : exec (.csrWr g csr d a) s = execCsrWr g csr d a s := rfl
theorem exec_csrSet (g : Guard) (csr : BitVec 12) (d : RegNo) (a : RegNo) (s : State) : exec (.csrSet g csr d a) s = execCsrSet g csr d a s := rfl
theorem exec_csrClr (g : Guard) (csr : BitVec 12) (d : RegNo) (a : RegNo) (s : State) : exec (.csrClr g csr d a) s = execCsrClr g csr d a s := rfl
theorem exec_mark (g : Guard) (code : BitVec 16) (s : State) : exec (.mark g code) s = execMark g code s := rfl
theorem exec_tlbi (g : Guard) (dom : Bool) (d : RegNo) (a : RegNo) (s : State) : exec (.tlbi g dom d a) s = execTlbi g dom d a s := rfl
theorem exec_ctxsv (g : Guard) (d : RegNo) (a : RegNo) (s : State) : exec (.ctxsv g d a) s = execCtxsv g d a s := rfl
theorem exec_ctxld (g : Guard) (d : RegNo) (a : RegNo) (s : State) : exec (.ctxld g d a) s = execCtxld g d a s := rfl
theorem exec_halt (g : Guard) (s : State) : exec (.halt g) s = execHalt g s := rfl
theorem exec_haltAll (g : Guard) (s : State) : exec (.haltAll g) s = execHaltAll g s := rfl
theorem exec_dfr0Clear (s : State) : exec (.dfr0Clear) s = execDfr0Clear s := rfl
theorem exec_sampctlWrite (s : State) : exec (.sampctlWrite) s = execSampctlWrite s := rfl
theorem exec_cregWrite (s : State) : exec (.cregWrite) s = execCregWrite s := rfl
theorem exec_ifwIfhWrite (s : State) : exec (.ifwIfhWrite) s = execIfwIfhWrite s := rfl
theorem exec_tvecWrite (s : State) : exec (.tvecWrite) s = execTvecWrite s := rfl
theorem exec_xbndWrite (s : State) : exec (.xbndWrite) s = execXbndWrite s := rfl
theorem exec_leasemaxWrite (s : State) : exec (.leasemaxWrite) s = execLeasemaxWrite s := rfl
theorem exec_fpintWrite (s : State) : exec (.fpintWrite) s = execFpintWrite s := rfl
theorem exec_csrPlainWrite (s : State) : exec (.csrPlainWrite) s = execCsrPlainWrite s := rfl
theorem exec_splitMerge (s : State) : exec (.splitMerge) s = execSplitMerge s := rfl
theorem exec_joinTimeout (s : State) : exec (.joinTimeout) s = execJoinTimeout s := rfl
theorem exec_sleepExpiry (s : State) : exec (.sleepExpiry) s = execSleepExpiry s := rfl
theorem exec_promiseExpiry (s : State) : exec (.promiseExpiry) s = execPromiseExpiry s := rfl
theorem exec_issueSelect (s : State) : exec (.issueSelect) s = execIssueSelect s := rfl
theorem exec_fetchBlock (s : State) : exec (.fetchBlock) s = execFetchBlock s := rfl
theorem exec_lsPoisonSeal (s : State) : exec (.lsPoisonSeal) s = execLsPoisonSeal s := rfl
theorem exec_supervisorPlace (s : State) : exec (.supervisorPlace) s = execSupervisorPlace s := rfl
theorem exec_launchEndOnFault (s : State) : exec (.launchEndOnFault) s = execLaunchEndOnFault s := rfl
theorem exec_accGrant (s : State) : exec (.accGrant) s = execAccGrant s := rfl
theorem exec_turnGrant (s : State) : exec (.turnGrant) s = execTurnGrant s := rfl
theorem exec_mmaExecution (s : State) : exec (.mmaExecution) s = execMmaExecution s := rfl
theorem exec_leaseAbortPoint (s : State) : exec (.leaseAbortPoint) s = execLeaseAbortPoint s := rfl
theorem exec_leaseDeadline (s : State) : exec (.leaseDeadline) s = execLeaseDeadline s := rfl
theorem exec_leaseRequest (s : State) : exec (.leaseRequest) s = execLeaseRequest s := rfl
theorem exec_leaseGrant (s : State) : exec (.leaseGrant) s = execLeaseGrant s := rfl
theorem exec_leaseCommit (s : State) : exec (.leaseCommit) s = execLeaseCommit s := rfl
theorem exec_leaseAnswer (s : State) : exec (.leaseAnswer) s = execLeaseAnswer s := rfl
theorem exec_leaseAbort (s : State) : exec (.leaseAbort) s = execLeaseAbort s := rfl
theorem exec_undeliverableNotice (s : State) : exec (.undeliverableNotice) s = execUndeliverableNotice s := rfl
theorem exec_preemptionSealFrameCommand (s : State) : exec (.preemptionSealFrameCommand) s = execPreemptionSealFrameCommand s := rfl
theorem exec_postedStore (s : State) : exec (.postedStore) s = execPostedStore s := rfl
theorem exec_atomicRequest (s : State) : exec (.atomicRequest) s = execAtomicRequest s := rfl
theorem exec_canopyUpdate (s : State) : exec (.canopyUpdate) s = execCanopyUpdate s := rfl
theorem exec_reductionDevice (s : State) : exec (.reductionDevice) s = execReductionDevice s := rfl
theorem exec_publishWrite (s : State) : exec (.publishWrite) s = execPublishWrite s := rfl
theorem exec_copyReadRequest (s : State) : exec (.copyReadRequest) s = execCopyReadRequest s := rfl
theorem exec_copyLineWrite (s : State) : exec (.copyLineWrite) s = execCopyLineWrite s := rfl
theorem exec_subscriptionControl (s : State) : exec (.subscriptionControl) s = execSubscriptionControl s := rfl
theorem exec_homeFillWriteback (s : State) : exec (.homeFillWriteback) s = execHomeFillWriteback s := rfl
theorem exec_graphMessage (s : State) : exec (.graphMessage) s = execGraphMessage s := rfl
theorem exec_atomicResult (s : State) : exec (.atomicResult) s = execAtomicResult s := rfl
theorem exec_lineData (s : State) : exec (.lineData) s = execLineData s := rfl
theorem exec_subscriptionUpdate (s : State) : exec (.subscriptionUpdate) s = execSubscriptionUpdate s := rfl
theorem exec_writeAcknowledgement (s : State) : exec (.writeAcknowledgement) s = execWriteAcknowledgement s := rfl
theorem exec_faultReply (s : State) : exec (.faultReply) s = execFaultReply s := rfl
theorem exec_channelWord (s : State) : exec (.channelWord) s = execChannelWord s := rfl
theorem exec_channelCreditReturn (s : State) : exec (.channelCreditReturn) s = execChannelCreditReturn s := rfl
theorem exec_ray (s : State) : exec (.ray) s = execRay s := rfl
theorem exec_anyHitCandidate (s : State) : exec (.anyHitCandidate) s = execAnyHitCandidate s := rfl
theorem exec_hitMinimum (s : State) : exec (.hitMinimum) s = execHitMinimum s := rfl
theorem exec_counterDecrement (s : State) : exec (.counterDecrement) s = execCounterDecrement s := rfl
theorem exec_lsReductionAtomic (s : State) : exec (.lsReductionAtomic) s = execLsReductionAtomic s := rfl
theorem exec_pendingCountEnd (s : State) : exec (.pendingCountEnd) s = execPendingCountEnd s := rfl
theorem exec_raySpillWrite (s : State) : exec (.raySpillWrite) s = execRaySpillWrite s := rfl
theorem exec_raySpillReload (s : State) : exec (.raySpillReload) s = execRaySpillReload s := rfl
theorem exec_treeletPageInFill (s : State) : exec (.treeletPageInFill) s = execTreeletPageInFill s := rfl
theorem exec_preemptionSaveRestoreLine (s : State) : exec (.preemptionSaveRestoreLine) s = execPreemptionSaveRestoreLine s := rfl
theorem exec_malformedMessage (s : State) : exec (.malformedMessage) s = execMalformedMessage s := rfl
theorem exec_watch (s : State) : exec (.watch) s = execWatch s := rfl
theorem exec_watchRetry (s : State) : exec (.watchRetry) s = execWatchRetry s := rfl
theorem exec_creditRetry (s : State) : exec (.creditRetry) s = execCreditRetry s := rfl
theorem exec_cbarArrival (s : State) : exec (.cbarArrival) s = execCbarArrival s := rfl
theorem exec_copyAccept (s : State) : exec (.copyAccept) s = execCopyAccept s := rfl
theorem exec_copyLineTransfer (s : State) : exec (.copyLineTransfer) s = execCopyLineTransfer s := rfl
theorem exec_pageWalk (s : State) : exec (.pageWalk) s = execPageWalk s := rfl
theorem exec_shootdownComplete (s : State) : exec (.shootdownComplete) s = execShootdownComplete s := rfl
theorem exec_patrolScrub (s : State) : exec (.patrolScrub) s = execPatrolScrub s := rfl
theorem exec_poolLinkLoss (s : State) : exec (.poolLinkLoss) s = execPoolLinkLoss s := rfl
theorem exec_backInvalidationSnoop (s : State) : exec (.backInvalidationSnoop) s = execBackInvalidationSnoop s := rfl
theorem exec_hostCxlMemWrite (s : State) : exec (.hostCxlMemWrite) s = execHostCxlMemWrite s := rfl
theorem exec_hostCxlMemRead (s : State) : exec (.hostCxlMemRead) s = execHostCxlMemRead s := rfl
theorem exec_hostCxlCacheSnoop (s : State) : exec (.hostCxlCacheSnoop) s = execHostCxlCacheSnoop s := rfl
theorem exec_hostRingCommit (s : State) : exec (.hostRingCommit) s = execHostRingCommit s := rfl
theorem exec_launchSubmit (s : State) : exec (.launchSubmit) s = execLaunchSubmit s := rfl
theorem exec_gangPlace (s : State) : exec (.gangPlace) s = execGangPlace s := rfl
theorem exec_gangPreempt (s : State) : exec (.gangPreempt) s = execGangPreempt s := rfl
theorem exec_groupResume (s : State) : exec (.groupResume) s = execGroupResume s := rfl
theorem exec_launchCompletion (s : State) : exec (.launchCompletion) s = execLaunchCompletion s := rfl
theorem exec_pageMoveCopyDone (s : State) : exec (.pageMoveCopyDone) s = execPageMoveCopyDone s := rfl
theorem exec_climberContextEntry (s : State) : exec (.climberContextEntry) s = execClimberContextEntry s := rfl
theorem exec_climberIssue (s : State) : exec (.climberIssue) s = execClimberIssue s := rfl
theorem exec_climberSlotFree (s : State) : exec (.climberSlotFree) s = execClimberSlotFree s := rfl
theorem exec_canopyLookup (s : State) : exec (.canopyLookup) s = execCanopyLookup s := rfl
theorem exec_pageInComplete (s : State) : exec (.pageInComplete) s = execPageInComplete s := rfl
theorem exec_pagingReread (s : State) : exec (.pagingReread) s = execPagingReread s := rfl
theorem exec_pagingWaiterTimeout (s : State) : exec (.pagingWaiterTimeout) s = execPagingWaiterTimeout s := rfl
theorem exec_replicationThreshold (s : State) : exec (.replicationThreshold) s = execReplicationThreshold s := rfl
theorem exec_visitCountClear (s : State) : exec (.visitCountClear) s = execVisitCountClear s := rfl
theorem exec_takeCoaltExpiry (s : State) : exec (.takeCoaltExpiry) s = execTakeCoaltExpiry s := rfl
theorem exec_pairIntervalClose (s : State) : exec (.pairIntervalClose) s = execPairIntervalClose s := rfl
theorem exec_pairTimeout (s : State) : exec (.pairTimeout) s = execPairTimeout s := rfl
theorem exec_sampleInstant (s : State) : exec (.sampleInstant) s = execSampleInstant s := rfl
theorem exec_clockAlignmentExchange (s : State) : exec (.clockAlignmentExchange) s = execClockAlignmentExchange s := rfl
theorem exec_flightLinkLoss (s : State) : exec (.flightLinkLoss) s = execFlightLinkLoss s := rfl
theorem exec_flightFlitReplay (s : State) : exec (.flightFlitReplay) s = execFlightFlitReplay s := rfl
theorem exec_memberRemoval (s : State) : exec (.memberRemoval) s = execMemberRemoval s := rfl
theorem exec_collCommit (s : State) : exec (.collCommit) s = execCollCommit s := rfl
theorem exec_powerControlTick (s : State) : exec (.powerControlTick) s = execPowerControlTick s := rfl
theorem exec_junctionThrottle (s : State) : exec (.junctionThrottle) s = execJunctionThrottle s := rfl
theorem exec_thermalHalt (s : State) : exec (.thermalHalt) s = execThermalHalt s := rfl
theorem exec_startup (s : State) : exec (.startup) s = execStartup s := rfl
theorem exec_startupWatchdog (s : State) : exec (.startupWatchdog) s = execStartupWatchdog s := rfl
theorem exec_identify (s : State) : exec (.identify) s = execIdentify s := rfl
theorem exec_getStatus (s : State) : exec (.getStatus) s = execGetStatus s := rfl
theorem exec_stageFirmware (s : State) : exec (.stageFirmware) s = execStageFirmware s := rfl
theorem exec_reset (s : State) : exec (.reset) s = execReset s := rfl
theorem exec_clearStartFailures (s : State) : exec (.clearStartFailures) s = execClearStartFailures s := rfl
theorem exec_setContextRoot (s : State) : exec (.setContextRoot) s = execSetContextRoot s := rfl
theorem exec_loadKeySlot (s : State) : exec (.loadKeySlot) s = execLoadKeySlot s := rfl
theorem exec_writePoolRegionEntry (s : State) : exec (.writePoolRegionEntry) s = execWritePoolRegionEntry s := rfl
theorem exec_biasFlip (s : State) : exec (.biasFlip) s = execBiasFlip s := rfl
theorem exec_movePage (s : State) : exec (.movePage) s = execMovePage s := rfl
theorem exec_hostShootdown (s : State) : exec (.hostShootdown) s = execHostShootdown s := rfl
theorem exec_configureHostLaunchRing (s : State) : exec (.configureHostLaunchRing) s = execConfigureHostLaunchRing s := rfl
theorem exec_writeGraphTableSlot (s : State) : exec (.writeGraphTableSlot) s = execWriteGraphTableSlot s := rfl
theorem exec_setSpillAreas (s : State) : exec (.setSpillAreas) s = execSetSpillAreas s := rfl
theorem exec_writeMembershipTable (s : State) : exec (.writeMembershipTable) s = execWriteMembershipTable s := rfl
theorem exec_removeMember (s : State) : exec (.removeMember) s = execRemoveMember s := rfl
theorem exec_readCounters (s : State) : exec (.readCounters) s = execReadCounters s := rfl
theorem exec_readFaultReports (s : State) : exec (.readFaultReports) s = execReadFaultReports s := rfl
theorem exec_haltOrResume (s : State) : exec (.haltOrResume) s = execHaltOrResume s := rfl
theorem exec_readback (s : State) : exec (.readback) s = execReadback s := rfl
theorem exec_setPowerCap (s : State) : exec (.setPowerCap) s = execSetPowerCap s := rfl
theorem exec_setDomainConfiguration (s : State) : exec (.setDomainConfiguration) s = execSetDomainConfiguration s := rfl
theorem exec_unsupportedOpcode (s : State) : exec (.unsupportedOpcode) s = execUnsupportedOpcode s := rfl
theorem exec_getVersion (s : State) : exec (.getVersion) s = execGetVersion s := rfl
theorem exec_getCapabilities (s : State) : exec (.getCapabilities) s = execGetCapabilities s := rfl
theorem exec_negotiateAlgorithms (s : State) : exec (.negotiateAlgorithms) s = execNegotiateAlgorithms s := rfl
theorem exec_getDigests (s : State) : exec (.getDigests) s = execGetDigests s := rfl
theorem exec_getCertificate (s : State) : exec (.getCertificate) s = execGetCertificate s := rfl
theorem exec_challenge (s : State) : exec (.challenge) s = execChallenge s := rfl
theorem exec_getMeasurements (s : State) : exec (.getMeasurements) s = execGetMeasurements s := rfl
theorem exec_keyExchange (s : State) : exec (.keyExchange) s = execKeyExchange s := rfl
theorem exec_finish (s : State) : exec (.finish) s = execFinish s := rfl
theorem exec_endSession (s : State) : exec (.endSession) s = execEndSession s := rfl
theorem exec_heartbeat (s : State) : exec (.heartbeat) s = execHeartbeat s := rfl
theorem exec_jtagIdcode (s : State) : exec (.jtagIdcode) s = execJtagIdcode s := rfl
theorem exec_jtagBypass (s : State) : exec (.jtagBypass) s = execJtagBypass s := rfl
theorem exec_jtagSamplePreload (s : State) : exec (.jtagSamplePreload) s = execJtagSamplePreload s := rfl
theorem exec_jtagExtest (s : State) : exec (.jtagExtest) s = execJtagExtest s := rfl
theorem exec_jtagRbaddrRbdata (s : State) : exec (.jtagRbaddrRbdata) s = execJtagRbaddrRbdata s := rfl
theorem exec_linkActiveStateChange (s : State) : exec (.linkActiveStateChange) s = execLinkActiveStateChange s := rfl
theorem exec_ieee11491Resume (s : State) : exec (.ieee11491Resume) s = execIeee11491Resume s := rfl
theorem exec_signedDebugUnlock (s : State) : exec (.signedDebugUnlock) s = execSignedDebugUnlock s := rfl
theorem exec_softError (s : State) : exec (.softError) s = execSoftError s := rfl

end Sys2Proof.Machine
end

