-- ==== Sys2Proof/Laws/Issue.lean ====
section
/-! SUPPORT. What issuing does once nothing holds the instruction: the shared shapes of a meaning, each said once. -/

namespace Sys2Proof.Machine

/-- An instruction that issues has its own effect. -/
theorem issue_next {i : Instr} {s : State} (body : State → Exec) (h : Issues i s) :
    issue i body s = .next (finish i s (body s)) := by
  obtain ⟨h1, h2⟩ := h
  unfold issue
  rw [h2]
  cases hs : s.cur
  · exact absurd hs h1
  · rfl
  · rfl

theorem lanewise_next {i : Instr} {s : State} (g : Guard) (d : RegNo) (f : State → Nat → Word) (h : Issues i s) :
    lanewise i g d f s = .next (finish i s (.done (putLanes s (active s g) d.toNat (f s)))) := issue_next _ h

theorem lanewise64_next {i : Instr} {s : State} (g : Guard) (d : RegNo) (f : State → Nat → DWord) (h : Issues i s) :
    lanewise64 i g d f s = .next (finish i s (.done (putLanes64 s (active s g) d.toNat (f s)))) := issue_next _ h

theorem lanewiseF_next {i : Instr} {s : State} (g : Guard) (d : RegNo) (f : State → Nat → Word × Flags) (h : Issues i s) :
    lanewiseF i g d f s = .next (finish i s (.done (raise (putLanes s (active s g) d.toNat fun l => (f s l).1)
      (Flags.all ((active s g).map fun l => (f s l).2))))) := issue_next _ h

/-- An agent must issue it. -/
theorem issue_none {i : Instr} {s : State} (body : State → Exec) (h : s.cur = .none) : issue i body s = .fault .noIssuer := by
  unfold issue; rw [h]

/-- What holds an instruction ends it. -/
theorem issue_held {i : Instr} {s : State} (body : State → Exec) {e : Exec} (h : s.cur ≠ .none) (he : hold i s = some e) :
    issue i body s = .next (finish i s e) := by
  unfold issue
  rw [he]
  cases hs : s.cur
  · exact absurd hs h
  · rfl
  · rfl

/-- A lane check that no lane fails. -/
theorem trapLanes_pass {s : State} {ls : List Nat} {f : Nat → Option (Nat × DWord)} (go : Exec) (h : ∀ l ∈ ls, f l = none) :
    trapLanes s ls f go = go := by
  have : ls.findSome? f = none := by simpa using h
  simp [trapLanes, this]

/-- The lowest lane that fails a check traps. -/
theorem trapLanes_head {s : State} {l : Nat} {ls : List Nat} {f : Nat → Option (Nat × DWord)} {c : Nat} {p : DWord} (go : Exec)
    (h : f l = some (c, p)) : trapLanes s (l :: ls) f go = .trap c p s := by simp [trapLanes, h]

/-! Masks. -/

/-- The sum that `maskOf` forms, of the tests below `n`. -/
theorem maskSum_init (p : Nat → Bool) (ls : List Nat) (z : Nat) :
    ls.foldr (fun l acc => (if p l then 1 else 0) * 2 ^ l + acc) z =
      ls.foldr (fun l acc => (if p l then 1 else 0) * 2 ^ l + acc) 0 + z := by
  induction ls with
  | nil => simp
  | cons a ls ih => simp only [List.foldr_cons, ih]; omega

theorem maskSum_succ (p : Nat → Bool) (n : Nat) :
    (List.range (n + 1)).foldr (fun l acc => (if p l then 1 else 0) * 2 ^ l + acc) 0 =
      (List.range n).foldr (fun l acc => (if p l then 1 else 0) * 2 ^ l + acc) 0 + (if p n then 1 else 0) * 2 ^ n := by
  rw [List.range_succ, List.foldr_append, maskSum_init]; simp

theorem maskSum_lt (p : Nat → Bool) (n : Nat) :
    (List.range n).foldr (fun l acc => (if p l then 1 else 0) * 2 ^ l + acc) 0 < 2 ^ n := by
  induction n with
  | zero => simp
  | succ n ih => rw [maskSum_succ, Nat.pow_succ]; split <;> omega

theorem maskSum_testBit (p : Nat → Bool) (n i : Nat) (hi : i < n) :
    ((List.range n).foldr (fun l acc => (if p l then 1 else 0) * 2 ^ l + acc) 0).testBit i = p i := by
  induction n with
  | zero => omega
  | succ n ih =>
    have hlt := maskSum_lt p n
    rw [maskSum_succ]
    by_cases h : i = n
    · subst h
      cases hp : p i
      · rw [if_neg (by decide), Nat.zero_mul, Nat.add_zero]; exact Nat.testBit_lt_two_pow hlt
      · simp only [if_true, Nat.one_mul]; rw [Nat.add_comm, Nat.testBit_two_pow_add_eq, Nat.testBit_lt_two_pow hlt]; rfl
    · have hi' : i < n := by omega
      cases hp : p n
      · simpa using ih hi'
      · simp only [if_true, Nat.one_mul]; rw [Nat.add_comm, Nat.testBit_two_pow_add_gt hi', ih hi']

/-- Bit `i` of a mask is the test of `i`. -/
theorem maskOf_getLsbD (p : Nat → Bool) (i : Nat) (hi : i < 32) : (maskOf p).getLsbD i = p i := by
  rw [maskOf, BitVec.getLsbD_ofNat, maskSum_testBit p 32 i hi]; simp [hi]

end Sys2Proof.Machine
end

