-- ==== Sys2Proof/Laws/Sparse.lean ====
section
/-! SUPPORT. What reading and writing a sparse map do, and that writing keeps its canonical form; the same for memory. -/

namespace Sys2Proof.Machine

variable {α : Type} [DecidableEq α]

/-- Keys above a bound stay above a lower one. -/
theorem Sparse.above_mono {d : α} {lo lo' : Nat} {m : List (Nat × α)} (h : Sparse.above d lo m = true) (hl : lo' ≤ lo) :
    Sparse.above d lo' m = true := by
  cases m with
  | nil => rfl
  | cons p m => obtain ⟨k, v⟩ := p; simp only [Sparse.above, Bool.and_eq_true, decide_eq_true_eq] at h ⊢; exact ⟨⟨by omega, h.1.2⟩, h.2⟩

/-- Below every key the default is read. -/
theorem Sparse.get_above {d : α} {lo a : Nat} {m : List (Nat × α)} (h : Sparse.above d lo m = true) (ha : a ≤ lo) :
    Sparse.get d m a = d := by
  cases m with
  | nil => rfl
  | cons p m =>
    obtain ⟨k, v⟩ := p
    simp only [Sparse.above, Bool.and_eq_true, decide_eq_true_eq] at h
    simp only [Sparse.get]
    split
    · omega
    · split
      · rfl
      · omega

/-- Writing keeps a bound below the key written. -/
theorem Sparse.above_set {d : α} {lo a : Nat} {v : α} {m : List (Nat × α)} (h : Sparse.above d lo m = true) (ha : lo < a) :
    Sparse.above d lo (Sparse.set d m a v) = true := by
  induction m generalizing lo with
  | nil => simp only [Sparse.set]; split <;> simp_all [Sparse.above]
  | cons p m ih =>
    obtain ⟨k, w⟩ := p
    simp only [Sparse.above, Bool.and_eq_true, decide_eq_true_eq] at h
    obtain ⟨⟨hk, hw⟩, hm⟩ := h
    simp only [Sparse.set]
    split
    · split
      · exact Sparse.above_mono hm (by omega)
      · simp_all [Sparse.above]
    · split
      · split
        · simp_all [Sparse.above]
        · simp_all [Sparse.above]
      · simp only [Sparse.above, Bool.and_eq_true, decide_eq_true_eq]
        exact ⟨⟨hk, hw⟩, ih hm (by omega)⟩

/-- A canonical map is above 0, its first key apart. -/
theorem Sparse.wf_set {d : α} {m : List (Nat × α)} (a : Nat) (v : α) (h : Sparse.wf d m = true) :
    Sparse.wf d (Sparse.set d m a v) = true := by
  cases m with
  | nil => simp only [Sparse.set]; split <;> simp_all [Sparse.wf, Sparse.above]
  | cons p m =>
    obtain ⟨k, w⟩ := p
    simp only [Sparse.wf, Bool.and_eq_true, decide_eq_true_eq] at h
    obtain ⟨hw, hm⟩ := h
    simp only [Sparse.set]
    split
    · split
      · cases m with
        | nil => rfl
        | cons q m => simp_all [Sparse.wf, Sparse.above]
      · simp_all [Sparse.wf]
    · split
      · split
        · simp_all [Sparse.wf]
        · simp_all [Sparse.wf, Sparse.above]
      · simp only [Sparse.wf, Bool.and_eq_true, decide_eq_true_eq]
        exact ⟨hw, Sparse.above_set hm (by omega)⟩

/-- The bounds of a canonical map hold behind its head. -/
theorem Sparse.above_tail {d : α} {lo k : Nat} {v : α} {m : List (Nat × α)} (h : Sparse.above d lo ((k, v) :: m) = true) :
    Sparse.above d k m = true := by simp_all [Sparse.above]

/-- The value written is read, in a map whose keys rise. -/
theorem Sparse.get_set_same_above {d : α} {lo a : Nat} {v : α} {m : List (Nat × α)} (h : Sparse.above d lo m = true) :
    Sparse.get d (Sparse.set d m a v) a = v := by
  induction m generalizing lo with
  | nil => simp only [Sparse.set]; split <;> simp_all [Sparse.get]
  | cons p m ih =>
    obtain ⟨k, w⟩ := p
    have hm := Sparse.above_tail h
    simp only [Sparse.set]
    split
    · rename_i hk
      split
      · rename_i hv; rw [Sparse.get_above hm (by omega), hv]
      · simp [Sparse.get, hk]
    · rename_i hk
      split
      · rename_i hlt
        split
        · rename_i hv; simp [Sparse.get, hk, hlt, hv]
        · simp [Sparse.get]
      · rename_i hlt; simp only [Sparse.get, hk, hlt, if_false]; exact ih hm

theorem Sparse.get_set_same {d : α} {m : List (Nat × α)} (a : Nat) (v : α) (h : Sparse.wf d m = true) :
    Sparse.get d (Sparse.set d m a v) a = v := by
  cases m with
  | nil => simp only [Sparse.set]; split <;> simp_all [Sparse.get]
  | cons p m =>
    obtain ⟨k, w⟩ := p
    simp only [Sparse.wf, Bool.and_eq_true, decide_eq_true_eq] at h
    obtain ⟨hw, hm⟩ := h
    simp only [Sparse.set]
    split
    · rename_i hk
      split
      · rename_i hv; rw [Sparse.get_above hm (by omega), hv]
      · simp [Sparse.get, hk]
    · rename_i hk
      split
      · rename_i hlt
        split
        · rename_i hv; simp [Sparse.get, hk, hlt, hv]
        · simp [Sparse.get]
      · rename_i hlt; simp only [Sparse.get, hk, hlt, if_false]; exact Sparse.get_set_same_above hm

/-- Another key reads as before, in a map whose keys rise. -/
theorem Sparse.get_set_other_above {d : α} {lo a b : Nat} {v : α} {m : List (Nat × α)} (h : Sparse.above d lo m = true)
    (hb : b ≠ a) : Sparse.get d (Sparse.set d m a v) b = Sparse.get d m b := by
  induction m generalizing lo with
  | nil => simp only [Sparse.set]; split <;> simp_all [Sparse.get]
  | cons p m ih =>
    obtain ⟨k, w⟩ := p
    have hm := Sparse.above_tail h
    simp only [Sparse.set]
    split
    · rename_i hk
      subst hk
      split
      · simp only [Sparse.get, hb, if_false]
        split
        · exact Sparse.get_above hm (by omega)
        · rfl
      · simp [Sparse.get, hb]
    · rename_i hk
      split
      · rename_i hlt
        split
        · rfl
        · by_cases hba : b < a
          · have hbk : b ≠ k := by omega
            have hbk' : b < k := by omega
            simp [Sparse.get, hb, hba, hbk, hbk']
          · simp [Sparse.get, hb, hba]
      · simp only [Sparse.get]
        split
        · rfl
        · split
          · rfl
          · exact ih hm

theorem Sparse.get_set_other {d : α} {m : List (Nat × α)} {a b : Nat} (v : α) (h : Sparse.wf d m = true) (hb : b ≠ a) :
    Sparse.get d (Sparse.set d m a v) b = Sparse.get d m b := by
  cases m with
  | nil => simp only [Sparse.set]; split <;> simp_all [Sparse.get]
  | cons p m =>
    obtain ⟨k, w⟩ := p
    simp only [Sparse.wf, Bool.and_eq_true, decide_eq_true_eq] at h
    obtain ⟨hw, hm⟩ := h
    simp only [Sparse.set]
    split
    · rename_i hk
      subst hk
      split
      · simp only [Sparse.get, hb, if_false]
        split
        · exact Sparse.get_above hm (by omega)
        · rfl
      · simp [Sparse.get, hb]
    · rename_i hk
      split
      · rename_i hlt
        split
        · rfl
        · by_cases hba : b < a
          · have hbk : b ≠ k := by omega
            have hbk' : b < k := by omega
            simp [Sparse.get, hb, hba, hbk, hbk']
          · simp [Sparse.get, hb, hba]
      · simp only [Sparse.get]
        split
        · rfl
        · split
          · rfl
          · exact Sparse.get_set_other_above hm hb

/-- Dropping entries keeps keys rising. -/
theorem Sparse.above_filter {d : α} {lo : Nat} {m : List (Nat × α)} (p : Nat × α → Bool) (h : Sparse.above d lo m = true) :
    Sparse.above d lo (m.filter p) = true := by
  induction m generalizing lo with
  | nil => rfl
  | cons q m ih =>
    obtain ⟨k, v⟩ := q
    simp only [Sparse.above, Bool.and_eq_true, decide_eq_true_eq] at h
    simp only [List.filter]
    split
    · simp only [Sparse.above, Bool.and_eq_true, decide_eq_true_eq]; exact ⟨h.1, ih h.2⟩
    · exact Sparse.above_mono (ih h.2) (by omega)

/-- Dropping entries keeps the canonical form. -/
theorem Sparse.wf_filter {d : α} {m : List (Nat × α)} (p : Nat × α → Bool) (h : Sparse.wf d m = true) :
    Sparse.wf d (m.filter p) = true := by
  cases m with
  | nil => rfl
  | cons q m =>
    obtain ⟨k, v⟩ := q
    simp only [Sparse.wf, Bool.and_eq_true, decide_eq_true_eq] at h
    have hf := Sparse.above_filter p h.2
    simp only [List.filter]
    split
    · simp only [Sparse.wf, Bool.and_eq_true, decide_eq_true_eq]; exact ⟨h.1, hf⟩
    · cases hm : m.filter p with
      | nil => rfl
      | cons r n => rw [hm] at hf; obtain ⟨k', v'⟩ := r; simp_all [Sparse.above, Sparse.wf]

/-! Memory. -/

@[simp] theorem Memory.wf_put {m : List Host.Cell} (a : Nat) (b : Byte) (h : Memory.wf m = true) :
    Memory.wf (Memory.put m a b) = true := Sparse.wf_set a b h

theorem Memory.byte_put_same {m : List Host.Cell} (a : Nat) (b : Byte) (h : Memory.wf m = true) :
    Memory.byte (Memory.put m a b) a = b := Sparse.get_set_same a b h

theorem Memory.byte_put_other {m : List Host.Cell} {a c : Nat} (b : Byte) (h : Memory.wf m = true) (hc : c ≠ a) :
    Memory.byte (Memory.put m a b) c = Memory.byte m c := Sparse.get_set_other b h hc

@[simp] theorem Memory.wf_write {m : List Host.Cell} (a : Nat) (bs : List Byte) (h : Memory.wf m = true) :
    Memory.wf (Memory.write m a bs) = true := by
  induction bs generalizing m a with
  | nil => exact h
  | cons b bs ih => exact ih (a + 1) (Memory.wf_put a b h)

@[simp] theorem Memory.wf_store {m : List Host.Cell} (a n v : Nat) (h : Memory.wf m = true) :
    Memory.wf (Memory.store m a n v) = true := Memory.wf_write a _ h

@[simp] theorem Memory.wf_writeCells {m : List Host.Cell} (cs : List Host.Cell) (h : Memory.wf m = true) :
    Memory.wf (Memory.writeCells m cs) = true := by
  induction cs generalizing m with
  | nil => exact h
  | cons c cs ih => obtain ⟨a, b⟩ := c; exact ih (Memory.wf_put a b h)

@[simp] theorem Memory.wf_filter {m : List Host.Cell} (p : Host.Cell → Bool) (h : Memory.wf m = true) :
    Memory.wf (m.filter p) = true := Sparse.wf_filter p h

/-- Bytes outside a range written read as before. -/
theorem Memory.byte_write_other {m : List Host.Cell} {a c : Nat} (bs : List Byte) (h : Memory.wf m = true)
    (hc : c < a ∨ a + bs.length ≤ c) : Memory.byte (Memory.write m a bs) c = Memory.byte m c := by
  induction bs generalizing m a with
  | nil => rfl
  | cons b bs ih =>
    simp only [List.length_cons] at hc
    rw [Memory.write, ih (Memory.wf_put a b h) (by omega), Memory.byte_put_other b h (by omega)]

/-- Byte `i` of a range written. -/
theorem Memory.byte_write_in {m : List Host.Cell} {a : Nat} (bs : List Byte) (i : Nat) (h : Memory.wf m = true)
    (hi : i < bs.length) : Memory.byte (Memory.write m a bs) (a + i) = bs[i] := by
  induction bs generalizing m a i with
  | nil => simp at hi
  | cons b bs ih =>
    rw [Memory.write]
    cases i with
    | zero => rw [Nat.add_zero, Memory.byte_write_other bs (Memory.wf_put a b h) (by omega)]; exact Memory.byte_put_same a b h
    | succ i =>
      have := ih (m := Memory.put m a b) (a := a + 1) i (Memory.wf_put a b h) (by simpa using hi)
      simpa [Nat.add_assoc, Nat.add_comm 1 i] using this

@[simp] theorem natToBytes_length (n v : Nat) : (natToBytes n v).length = n := by
  induction n generalizing v with
  | zero => rfl
  | succ n ih => simp [natToBytes, ih]

/-- Bytes outside a value stored read as before. -/
theorem Memory.byte_store_other {m : List Host.Cell} {a c n : Nat} (v : Nat) (h : Memory.wf m = true)
    (hc : c < a ∨ a + n ≤ c) : Memory.byte (Memory.store m a n v) c = Memory.byte m c :=
  Memory.byte_write_other _ h (by simpa using hc)

theorem Memory.read_write_same {m : List Host.Cell} (a : Nat) (bs : List Byte) (h : Memory.wf m = true) :
    Memory.read (Memory.write m a bs) a bs.length = bs := by
  induction bs generalizing m a with
  | nil => rfl
  | cons b bs ih =>
    simp only [List.length_cons, Memory.read]
    have h0 := Memory.byte_write_in (a := a) (b :: bs) 0 h (by simp)
    simp only [Nat.add_zero, List.getElem_cons_zero] at h0
    rw [h0]
    congr 1
    exact ih (a + 1) (Memory.wf_put a b h)

theorem bytesToNat_natToBytes (n v : Nat) : bytesToNat (natToBytes n v) = v % 256 ^ n := by
  induction n generalizing v with
  | zero => simp [natToBytes, bytesToNat, Nat.mod_one]
  | succ n ih =>
    rw [natToBytes, bytesToNat, ih, BitVec.toNat_ofNat, show (2 : Nat) ^ 8 = 256 from rfl,
      show (256 : Nat) ^ (n + 1) = 256 * 256 ^ n by rw [Nat.pow_succ, Nat.mul_comm], Nat.mod_mul]

/-- The value stored is loaded again, to its size. -/
theorem Memory.load_store_same {m : List Host.Cell} (a n v : Nat) (h : Memory.wf m = true) :
    Memory.load (Memory.store m a n v) a n = v % 256 ^ n := by
  have := Memory.read_write_same a (natToBytes n v) h
  simp only [natToBytes_length] at this
  rw [Memory.load, Memory.store, this, bytesToNat_natToBytes]

/-- Reading away from what is stored. -/
theorem Memory.read_store_other {m : List Host.Cell} {a c n k : Nat} (v : Nat) (h : Memory.wf m = true)
    (hc : c + k ≤ a ∨ a + n ≤ c) : Memory.read (Memory.store m a n v) c k = Memory.read m c k := by
  induction k generalizing c with
  | zero => rfl
  | succ k ih =>
    simp only [Memory.read]
    rw [Memory.byte_store_other v h (by omega), ih (by omega)]

theorem Memory.load_store_other {m : List Host.Cell} {a c n k : Nat} (v : Nat) (h : Memory.wf m = true)
    (hc : c + k ≤ a ∨ a + n ≤ c) : Memory.load (Memory.store m a n v) c k = Memory.load m c k := by
  rw [Memory.load, Memory.read_store_other v h hc, Memory.load]

end Sys2Proof.Machine
end

