-- ==== Sys2Proof/Laws/State.lean ====
section
/-! SUPPORT. The fields that each update of the state leaves alone, one lemma a field, true by unfolding. -/

namespace Sys2Proof.Machine

/-! `setCore`. -/

@[simp] theorem State.setCore_cur (s : State) (c : Nat) (v : Core) : (s.setCore c v).cur = s.cur := rfl
@[simp] theorem State.setCore_ir (s : State) (c : Nat) (v : Core) : (s.setCore c v).ir = s.ir := rfl
@[simp] theorem State.setCore_nonce (s : State) (c : Nat) (v : Core) : (s.setCore c v).nonce = s.nonce := rfl
@[simp] theorem State.setCore_arg (s : State) (c : Nat) (v : Core) : (s.setCore c v).arg = s.arg := rfl
@[simp] theorem State.setCore_agenda (s : State) (c : Nat) (v : Core) : (s.setCore c v).agenda = s.agenda := rfl
@[simp] theorem State.setCore_nextId (s : State) (c : Nat) (v : Core) : (s.setCore c v).nextId = s.nextId := rfl
@[simp] theorem State.setCore_clk (s : State) (c : Nat) (v : Core) : (s.setCore c v).clk = s.clk := rfl
@[simp] theorem State.setCore_mem (s : State) (c : Nat) (v : Core) : (s.setCore c v).mem = s.mem := rfl
@[simp] theorem State.setCore_regs (s : State) (c : Nat) (v : Core) : (s.setCore c v).regs = s.regs := rfl
@[simp] theorem State.setCore_waves (s : State) (c : Nat) (v : Core) : (s.setCore c v).waves = s.waves := rfl
@[simp] theorem State.setCore_climbers (s : State) (c : Nat) (v : Core) : (s.setCore c v).climbers = s.climbers := rfl
@[simp] theorem State.setCore_halls (s : State) (c : Nat) (v : Core) : (s.setCore c v).halls = s.halls := rfl
@[simp] theorem State.setCore_groups (s : State) (c : Nat) (v : Core) : (s.setCore c v).groups = s.groups := rfl
@[simp] theorem State.setCore_launches (s : State) (c : Nat) (v : Core) : (s.setCore c v).launches = s.launches := rfl
@[simp] theorem State.setCore_saved (s : State) (c : Nat) (v : Core) : (s.setCore c v).saved = s.saved := rfl
@[simp] theorem State.setCore_accepted (s : State) (c : Nat) (v : Core) : (s.setCore c v).accepted = s.accepted := rfl
@[simp] theorem State.setCore_placements (s : State) (c : Nat) (v : Core) : (s.setCore c v).placements = s.placements := rfl
@[simp] theorem State.setCore_frames (s : State) (c : Nat) (v : Core) : (s.setCore c v).frames = s.frames := rfl
@[simp] theorem State.setCore_cbars (s : State) (c : Nat) (v : Core) : (s.setCore c v).cbars = s.cbars := rfl
@[simp] theorem State.setCore_lines (s : State) (c : Nat) (v : Core) : (s.setCore c v).lines = s.lines := rfl
@[simp] theorem State.setCore_dirs (s : State) (c : Nat) (v : Core) : (s.setCore c v).dirs = s.dirs := rfl
@[simp] theorem State.setCore_watches (s : State) (c : Nat) (v : Core) : (s.setCore c v).watches = s.watches := rfl
@[simp] theorem State.setCore_shoots (s : State) (c : Nat) (v : Core) : (s.setCore c v).shoots = s.shoots := rfl
@[simp] theorem State.setCore_pageOps (s : State) (c : Nat) (v : Core) : (s.setCore c v).pageOps = s.pageOps := rfl
@[simp] theorem State.setCore_tweaks (s : State) (c : Nat) (v : Core) : (s.setCore c v).tweaks = s.tweaks := rfl
@[simp] theorem State.setCore_sseqs (s : State) (c : Nat) (v : Core) : (s.setCore c v).sseqs = s.sseqs := rfl
@[simp] theorem State.setCore_birsp (s : State) (c : Nat) (v : Core) : (s.setCore c v).birsp = s.birsp := rfl
@[simp] theorem State.setCore_sectors (s : State) (c : Nat) (v : Core) : (s.setCore c v).sectors = s.sectors := rfl
@[simp] theorem State.setCore_badLs (s : State) (c : Nat) (v : Core) : (s.setCore c v).badLs = s.badLs := rfl
@[simp] theorem State.setCore_badHbm (s : State) (c : Nat) (v : Core) : (s.setCore c v).badHbm = s.badHbm := rfl
@[simp] theorem State.setCore_badHall (s : State) (c : Nat) (v : Core) : (s.setCore c v).badHall = s.badHall := rfl
@[simp] theorem State.setCore_badArray (s : State) (c : Nat) (v : Core) : (s.setCore c v).badArray = s.badArray := rfl
@[simp] theorem State.setCore_corrected (s : State) (c : Nat) (v : Core) : (s.setCore c v).corrected = s.corrected := rfl
@[simp] theorem State.setCore_scrub (s : State) (c : Nat) (v : Core) : (s.setCore c v).scrub = s.scrub := rfl
@[simp] theorem State.setCore_roots (s : State) (c : Nat) (v : Core) : (s.setCore c v).roots = s.roots := rfl
@[simp] theorem State.setCore_keys (s : State) (c : Nat) (v : Core) : (s.setCore c v).keys = s.keys := rfl
@[simp] theorem State.setCore_keyLock (s : State) (c : Nat) (v : Core) : (s.setCore c v).keyLock = s.keyLock := rfl
@[simp] theorem State.setCore_slots (s : State) (c : Nat) (v : Core) : (s.setCore c v).slots = s.slots := rfl
@[simp] theorem State.setCore_regions (s : State) (c : Nat) (v : Core) : (s.setCore c v).regions = s.regions := rfl
@[simp] theorem State.setCore_ports (s : State) (c : Nat) (v : Core) : (s.setCore c v).ports = s.ports := rfl
@[simp] theorem State.setCore_flights (s : State) (c : Nat) (v : Core) : (s.setCore c v).flights = s.flights := rfl
@[simp] theorem State.setCore_rings (s : State) (c : Nat) (v : Core) : (s.setCore c v).rings = s.rings := rfl
@[simp] theorem State.setCore_ringTurn (s : State) (c : Nat) (v : Core) : (s.setCore c v).ringTurn = s.ringTurn := rfl
@[simp] theorem State.setCore_graphs (s : State) (c : Nat) (v : Core) : (s.setCore c v).graphs = s.graphs := rfl
@[simp] theorem State.setCore_tables (s : State) (c : Nat) (v : Core) : (s.setCore c v).tables = s.tables := rfl
@[simp] theorem State.setCore_imageBase (s : State) (c : Nat) (v : Core) : (s.setCore c v).imageBase = s.imageBase := rfl
@[simp] theorem State.setCore_imageBytes (s : State) (c : Nat) (v : Core) : (s.setCore c v).imageBytes = s.imageBytes := rfl
@[simp] theorem State.setCore_pkg (s : State) (c : Nat) (v : Core) : (s.setCore c v).pkg = s.pkg := rfl
@[simp] theorem State.setCore_torusX (s : State) (c : Nat) (v : Core) : (s.setCore c v).torusX = s.torusX := rfl
@[simp] theorem State.setCore_torusY (s : State) (c : Nat) (v : Core) : (s.setCore c v).torusY = s.torusY := rfl
@[simp] theorem State.setCore_mismatched (s : State) (c : Nat) (v : Core) : (s.setCore c v).mismatched = s.mismatched := rfl
@[simp] theorem State.setCore_away (s : State) (c : Nat) (v : Core) : (s.setCore c v).away = s.away := rfl
@[simp] theorem State.setCore_lag (s : State) (c : Nat) (v : Core) : (s.setCore c v).lag = s.lag := rfl
@[simp] theorem State.setCore_exchanged (s : State) (c : Nat) (v : Core) : (s.setCore c v).exchanged = s.exchanged := rfl
@[simp] theorem State.setCore_slewed (s : State) (c : Nat) (v : Core) : (s.setCore c v).slewed = s.slewed := rfl
@[simp] theorem State.setCore_cap (s : State) (c : Nat) (v : Core) : (s.setCore c v).cap = s.cap := rfl
@[simp] theorem State.setCore_islands (s : State) (c : Nat) (v : Core) : (s.setCore c v).islands = s.islands := rfl
@[simp] theorem State.setCore_thermal (s : State) (c : Nat) (v : Core) : (s.setCore c v).thermal = s.thermal := rfl
@[simp] theorem State.setCore_powerAt (s : State) (c : Nat) (v : Core) : (s.setCore c v).powerAt = s.powerAt := rfl
@[simp] theorem State.setCore_fails (s : State) (c : Nat) (v : Core) : (s.setCore c v).fails = s.fails := rfl
@[simp] theorem State.setCore_why (s : State) (c : Nat) (v : Core) : (s.setCore c v).why = s.why := rfl
@[simp] theorem State.setCore_min (s : State) (c : Nat) (v : Core) : (s.setCore c v).min = s.min := rfl
@[simp] theorem State.setCore_up (s : State) (c : Nat) (v : Core) : (s.setCore c v).up = s.up := rfl
@[simp] theorem State.setCore_startedAt (s : State) (c : Nat) (v : Core) : (s.setCore c v).startedAt = s.startedAt := rfl
@[simp] theorem State.setCore_firmware (s : State) (c : Nat) (v : Core) : (s.setCore c v).firmware = s.firmware := rfl
@[simp] theorem State.setCore_staged (s : State) (c : Nat) (v : Core) : (s.setCore c v).staged = s.staged := rfl
@[simp] theorem State.setCore_measured (s : State) (c : Nat) (v : Core) : (s.setCore c v).measured = s.measured := rfl
@[simp] theorem State.setCore_supervisors (s : State) (c : Nat) (v : Core) : (s.setCore c v).supervisors = s.supervisors := rfl
@[simp] theorem State.setCore_discarded (s : State) (c : Nat) (v : Core) : (s.setCore c v).discarded = s.discarded := rfl
@[simp] theorem State.setCore_reports (s : State) (c : Nat) (v : Core) : (s.setCore c v).reports = s.reports := rfl
@[simp] theorem State.setCore_reportsLost (s : State) (c : Nat) (v : Core) : (s.setCore c v).reportsLost = s.reportsLost := rfl
@[simp] theorem State.setCore_msix (s : State) (c : Nat) (v : Core) : (s.setCore c v).msix = s.msix := rfl
@[simp] theorem State.setCore_background (s : State) (c : Nat) (v : Core) : (s.setCore c v).background = s.background := rfl
@[simp] theorem State.setCore_reply (s : State) (c : Nat) (v : Core) : (s.setCore c v).reply = s.reply := rfl
@[simp] theorem State.setCore_spdm (s : State) (c : Nat) (v : Core) : (s.setCore c v).spdm = s.spdm := rfl
@[simp] theorem State.setCore_jtag (s : State) (c : Nat) (v : Core) : (s.setCore c v).jtag = s.jtag := rfl

/-! `updCore`. -/

@[simp] theorem State.updCore_cur (s : State) (c : Nat) (f : Core → Core) : (s.updCore c f).cur = s.cur := rfl
@[simp] theorem State.updCore_ir (s : State) (c : Nat) (f : Core → Core) : (s.updCore c f).ir = s.ir := rfl
@[simp] theorem State.updCore_nonce (s : State) (c : Nat) (f : Core → Core) : (s.updCore c f).nonce = s.nonce := rfl
@[simp] theorem State.updCore_arg (s : State) (c : Nat) (f : Core → Core) : (s.updCore c f).arg = s.arg := rfl
@[simp] theorem State.updCore_agenda (s : State) (c : Nat) (f : Core → Core) : (s.updCore c f).agenda = s.agenda := rfl
@[simp] theorem State.updCore_nextId (s : State) (c : Nat) (f : Core → Core) : (s.updCore c f).nextId = s.nextId := rfl
@[simp] theorem State.updCore_clk (s : State) (c : Nat) (f : Core → Core) : (s.updCore c f).clk = s.clk := rfl
@[simp] theorem State.updCore_mem (s : State) (c : Nat) (f : Core → Core) : (s.updCore c f).mem = s.mem := rfl
@[simp] theorem State.updCore_regs (s : State) (c : Nat) (f : Core → Core) : (s.updCore c f).regs = s.regs := rfl
@[simp] theorem State.updCore_waves (s : State) (c : Nat) (f : Core → Core) : (s.updCore c f).waves = s.waves := rfl
@[simp] theorem State.updCore_climbers (s : State) (c : Nat) (f : Core → Core) : (s.updCore c f).climbers = s.climbers := rfl
@[simp] theorem State.updCore_halls (s : State) (c : Nat) (f : Core → Core) : (s.updCore c f).halls = s.halls := rfl
@[simp] theorem State.updCore_groups (s : State) (c : Nat) (f : Core → Core) : (s.updCore c f).groups = s.groups := rfl
@[simp] theorem State.updCore_launches (s : State) (c : Nat) (f : Core → Core) : (s.updCore c f).launches = s.launches := rfl
@[simp] theorem State.updCore_saved (s : State) (c : Nat) (f : Core → Core) : (s.updCore c f).saved = s.saved := rfl
@[simp] theorem State.updCore_accepted (s : State) (c : Nat) (f : Core → Core) : (s.updCore c f).accepted = s.accepted := rfl
@[simp] theorem State.updCore_placements (s : State) (c : Nat) (f : Core → Core) : (s.updCore c f).placements = s.placements := rfl
@[simp] theorem State.updCore_frames (s : State) (c : Nat) (f : Core → Core) : (s.updCore c f).frames = s.frames := rfl
@[simp] theorem State.updCore_cbars (s : State) (c : Nat) (f : Core → Core) : (s.updCore c f).cbars = s.cbars := rfl
@[simp] theorem State.updCore_lines (s : State) (c : Nat) (f : Core → Core) : (s.updCore c f).lines = s.lines := rfl
@[simp] theorem State.updCore_dirs (s : State) (c : Nat) (f : Core → Core) : (s.updCore c f).dirs = s.dirs := rfl
@[simp] theorem State.updCore_watches (s : State) (c : Nat) (f : Core → Core) : (s.updCore c f).watches = s.watches := rfl
@[simp] theorem State.updCore_shoots (s : State) (c : Nat) (f : Core → Core) : (s.updCore c f).shoots = s.shoots := rfl
@[simp] theorem State.updCore_pageOps (s : State) (c : Nat) (f : Core → Core) : (s.updCore c f).pageOps = s.pageOps := rfl
@[simp] theorem State.updCore_tweaks (s : State) (c : Nat) (f : Core → Core) : (s.updCore c f).tweaks = s.tweaks := rfl
@[simp] theorem State.updCore_sseqs (s : State) (c : Nat) (f : Core → Core) : (s.updCore c f).sseqs = s.sseqs := rfl
@[simp] theorem State.updCore_birsp (s : State) (c : Nat) (f : Core → Core) : (s.updCore c f).birsp = s.birsp := rfl
@[simp] theorem State.updCore_sectors (s : State) (c : Nat) (f : Core → Core) : (s.updCore c f).sectors = s.sectors := rfl
@[simp] theorem State.updCore_badLs (s : State) (c : Nat) (f : Core → Core) : (s.updCore c f).badLs = s.badLs := rfl
@[simp] theorem State.updCore_badHbm (s : State) (c : Nat) (f : Core → Core) : (s.updCore c f).badHbm = s.badHbm := rfl
@[simp] theorem State.updCore_badHall (s : State) (c : Nat) (f : Core → Core) : (s.updCore c f).badHall = s.badHall := rfl
@[simp] theorem State.updCore_badArray (s : State) (c : Nat) (f : Core → Core) : (s.updCore c f).badArray = s.badArray := rfl
@[simp] theorem State.updCore_corrected (s : State) (c : Nat) (f : Core → Core) : (s.updCore c f).corrected = s.corrected := rfl
@[simp] theorem State.updCore_scrub (s : State) (c : Nat) (f : Core → Core) : (s.updCore c f).scrub = s.scrub := rfl
@[simp] theorem State.updCore_roots (s : State) (c : Nat) (f : Core → Core) : (s.updCore c f).roots = s.roots := rfl
@[simp] theorem State.updCore_keys (s : State) (c : Nat) (f : Core → Core) : (s.updCore c f).keys = s.keys := rfl
@[simp] theorem State.updCore_keyLock (s : State) (c : Nat) (f : Core → Core) : (s.updCore c f).keyLock = s.keyLock := rfl
@[simp] theorem State.updCore_slots (s : State) (c : Nat) (f : Core → Core) : (s.updCore c f).slots = s.slots := rfl
@[simp] theorem State.updCore_regions (s : State) (c : Nat) (f : Core → Core) : (s.updCore c f).regions = s.regions := rfl
@[simp] theorem State.updCore_ports (s : State) (c : Nat) (f : Core → Core) : (s.updCore c f).ports = s.ports := rfl
@[simp] theorem State.updCore_flights (s : State) (c : Nat) (f : Core → Core) : (s.updCore c f).flights = s.flights := rfl
@[simp] theorem State.updCore_rings (s : State) (c : Nat) (f : Core → Core) : (s.updCore c f).rings = s.rings := rfl
@[simp] theorem State.updCore_ringTurn (s : State) (c : Nat) (f : Core → Core) : (s.updCore c f).ringTurn = s.ringTurn := rfl
@[simp] theorem State.updCore_graphs (s : State) (c : Nat) (f : Core → Core) : (s.updCore c f).graphs = s.graphs := rfl
@[simp] theorem State.updCore_tables (s : State) (c : Nat) (f : Core → Core) : (s.updCore c f).tables = s.tables := rfl
@[simp] theorem State.updCore_imageBase (s : State) (c : Nat) (f : Core → Core) : (s.updCore c f).imageBase = s.imageBase := rfl
@[simp] theorem State.updCore_imageBytes (s : State) (c : Nat) (f : Core → Core) : (s.updCore c f).imageBytes = s.imageBytes := rfl
@[simp] theorem State.updCore_pkg (s : State) (c : Nat) (f : Core → Core) : (s.updCore c f).pkg = s.pkg := rfl
@[simp] theorem State.updCore_torusX (s : State) (c : Nat) (f : Core → Core) : (s.updCore c f).torusX = s.torusX := rfl
@[simp] theorem State.updCore_torusY (s : State) (c : Nat) (f : Core → Core) : (s.updCore c f).torusY = s.torusY := rfl
@[simp] theorem State.updCore_mismatched (s : State) (c : Nat) (f : Core → Core) : (s.updCore c f).mismatched = s.mismatched := rfl
@[simp] theorem State.updCore_away (s : State) (c : Nat) (f : Core → Core) : (s.updCore c f).away = s.away := rfl
@[simp] theorem State.updCore_lag (s : State) (c : Nat) (f : Core → Core) : (s.updCore c f).lag = s.lag := rfl
@[simp] theorem State.updCore_exchanged (s : State) (c : Nat) (f : Core → Core) : (s.updCore c f).exchanged = s.exchanged := rfl
@[simp] theorem State.updCore_slewed (s : State) (c : Nat) (f : Core → Core) : (s.updCore c f).slewed = s.slewed := rfl
@[simp] theorem State.updCore_cap (s : State) (c : Nat) (f : Core → Core) : (s.updCore c f).cap = s.cap := rfl
@[simp] theorem State.updCore_islands (s : State) (c : Nat) (f : Core → Core) : (s.updCore c f).islands = s.islands := rfl
@[simp] theorem State.updCore_thermal (s : State) (c : Nat) (f : Core → Core) : (s.updCore c f).thermal = s.thermal := rfl
@[simp] theorem State.updCore_powerAt (s : State) (c : Nat) (f : Core → Core) : (s.updCore c f).powerAt = s.powerAt := rfl
@[simp] theorem State.updCore_fails (s : State) (c : Nat) (f : Core → Core) : (s.updCore c f).fails = s.fails := rfl
@[simp] theorem State.updCore_why (s : State) (c : Nat) (f : Core → Core) : (s.updCore c f).why = s.why := rfl
@[simp] theorem State.updCore_min (s : State) (c : Nat) (f : Core → Core) : (s.updCore c f).min = s.min := rfl
@[simp] theorem State.updCore_up (s : State) (c : Nat) (f : Core → Core) : (s.updCore c f).up = s.up := rfl
@[simp] theorem State.updCore_startedAt (s : State) (c : Nat) (f : Core → Core) : (s.updCore c f).startedAt = s.startedAt := rfl
@[simp] theorem State.updCore_firmware (s : State) (c : Nat) (f : Core → Core) : (s.updCore c f).firmware = s.firmware := rfl
@[simp] theorem State.updCore_staged (s : State) (c : Nat) (f : Core → Core) : (s.updCore c f).staged = s.staged := rfl
@[simp] theorem State.updCore_measured (s : State) (c : Nat) (f : Core → Core) : (s.updCore c f).measured = s.measured := rfl
@[simp] theorem State.updCore_supervisors (s : State) (c : Nat) (f : Core → Core) : (s.updCore c f).supervisors = s.supervisors := rfl
@[simp] theorem State.updCore_discarded (s : State) (c : Nat) (f : Core → Core) : (s.updCore c f).discarded = s.discarded := rfl
@[simp] theorem State.updCore_reports (s : State) (c : Nat) (f : Core → Core) : (s.updCore c f).reports = s.reports := rfl
@[simp] theorem State.updCore_reportsLost (s : State) (c : Nat) (f : Core → Core) : (s.updCore c f).reportsLost = s.reportsLost := rfl
@[simp] theorem State.updCore_msix (s : State) (c : Nat) (f : Core → Core) : (s.updCore c f).msix = s.msix := rfl
@[simp] theorem State.updCore_background (s : State) (c : Nat) (f : Core → Core) : (s.updCore c f).background = s.background := rfl
@[simp] theorem State.updCore_reply (s : State) (c : Nat) (f : Core → Core) : (s.updCore c f).reply = s.reply := rfl
@[simp] theorem State.updCore_spdm (s : State) (c : Nat) (f : Core → Core) : (s.updCore c f).spdm = s.spdm := rfl
@[simp] theorem State.updCore_jtag (s : State) (c : Nat) (f : Core → Core) : (s.updCore c f).jtag = s.jtag := rfl

/-! `setWave`. -/

@[simp] theorem State.setWave_cur (s : State) (c w : Nat) (v : Wave) : (s.setWave c w v).cur = s.cur := rfl
@[simp] theorem State.setWave_ir (s : State) (c w : Nat) (v : Wave) : (s.setWave c w v).ir = s.ir := rfl
@[simp] theorem State.setWave_nonce (s : State) (c w : Nat) (v : Wave) : (s.setWave c w v).nonce = s.nonce := rfl
@[simp] theorem State.setWave_arg (s : State) (c w : Nat) (v : Wave) : (s.setWave c w v).arg = s.arg := rfl
@[simp] theorem State.setWave_agenda (s : State) (c w : Nat) (v : Wave) : (s.setWave c w v).agenda = s.agenda := rfl
@[simp] theorem State.setWave_nextId (s : State) (c w : Nat) (v : Wave) : (s.setWave c w v).nextId = s.nextId := rfl
@[simp] theorem State.setWave_clk (s : State) (c w : Nat) (v : Wave) : (s.setWave c w v).clk = s.clk := rfl
@[simp] theorem State.setWave_mem (s : State) (c w : Nat) (v : Wave) : (s.setWave c w v).mem = s.mem := rfl
@[simp] theorem State.setWave_regs (s : State) (c w : Nat) (v : Wave) : (s.setWave c w v).regs = s.regs := rfl
@[simp] theorem State.setWave_climbers (s : State) (c w : Nat) (v : Wave) : (s.setWave c w v).climbers = s.climbers := rfl
@[simp] theorem State.setWave_cores (s : State) (c w : Nat) (v : Wave) : (s.setWave c w v).cores = s.cores := rfl
@[simp] theorem State.setWave_halls (s : State) (c w : Nat) (v : Wave) : (s.setWave c w v).halls = s.halls := rfl
@[simp] theorem State.setWave_groups (s : State) (c w : Nat) (v : Wave) : (s.setWave c w v).groups = s.groups := rfl
@[simp] theorem State.setWave_launches (s : State) (c w : Nat) (v : Wave) : (s.setWave c w v).launches = s.launches := rfl
@[simp] theorem State.setWave_saved (s : State) (c w : Nat) (v : Wave) : (s.setWave c w v).saved = s.saved := rfl
@[simp] theorem State.setWave_accepted (s : State) (c w : Nat) (v : Wave) : (s.setWave c w v).accepted = s.accepted := rfl
@[simp] theorem State.setWave_placements (s : State) (c w : Nat) (v : Wave) : (s.setWave c w v).placements = s.placements := rfl
@[simp] theorem State.setWave_frames (s : State) (c w : Nat) (v : Wave) : (s.setWave c w v).frames = s.frames := rfl
@[simp] theorem State.setWave_cbars (s : State) (c w : Nat) (v : Wave) : (s.setWave c w v).cbars = s.cbars := rfl
@[simp] theorem State.setWave_lines (s : State) (c w : Nat) (v : Wave) : (s.setWave c w v).lines = s.lines := rfl
@[simp] theorem State.setWave_dirs (s : State) (c w : Nat) (v : Wave) : (s.setWave c w v).dirs = s.dirs := rfl
@[simp] theorem State.setWave_watches (s : State) (c w : Nat) (v : Wave) : (s.setWave c w v).watches = s.watches := rfl
@[simp] theorem State.setWave_shoots (s : State) (c w : Nat) (v : Wave) : (s.setWave c w v).shoots = s.shoots := rfl
@[simp] theorem State.setWave_pageOps (s : State) (c w : Nat) (v : Wave) : (s.setWave c w v).pageOps = s.pageOps := rfl
@[simp] theorem State.setWave_tweaks (s : State) (c w : Nat) (v : Wave) : (s.setWave c w v).tweaks = s.tweaks := rfl
@[simp] theorem State.setWave_sseqs (s : State) (c w : Nat) (v : Wave) : (s.setWave c w v).sseqs = s.sseqs := rfl
@[simp] theorem State.setWave_birsp (s : State) (c w : Nat) (v : Wave) : (s.setWave c w v).birsp = s.birsp := rfl
@[simp] theorem State.setWave_sectors (s : State) (c w : Nat) (v : Wave) : (s.setWave c w v).sectors = s.sectors := rfl
@[simp] theorem State.setWave_badLs (s : State) (c w : Nat) (v : Wave) : (s.setWave c w v).badLs = s.badLs := rfl
@[simp] theorem State.setWave_badHbm (s : State) (c w : Nat) (v : Wave) : (s.setWave c w v).badHbm = s.badHbm := rfl
@[simp] theorem State.setWave_badHall (s : State) (c w : Nat) (v : Wave) : (s.setWave c w v).badHall = s.badHall := rfl
@[simp] theorem State.setWave_badArray (s : State) (c w : Nat) (v : Wave) : (s.setWave c w v).badArray = s.badArray := rfl
@[simp] theorem State.setWave_corrected (s : State) (c w : Nat) (v : Wave) : (s.setWave c w v).corrected = s.corrected := rfl
@[simp] theorem State.setWave_scrub (s : State) (c w : Nat) (v : Wave) : (s.setWave c w v).scrub = s.scrub := rfl
@[simp] theorem State.setWave_roots (s : State) (c w : Nat) (v : Wave) : (s.setWave c w v).roots = s.roots := rfl
@[simp] theorem State.setWave_keys (s : State) (c w : Nat) (v : Wave) : (s.setWave c w v).keys = s.keys := rfl
@[simp] theorem State.setWave_keyLock (s : State) (c w : Nat) (v : Wave) : (s.setWave c w v).keyLock = s.keyLock := rfl
@[simp] theorem State.setWave_slots (s : State) (c w : Nat) (v : Wave) : (s.setWave c w v).slots = s.slots := rfl
@[simp] theorem State.setWave_regions (s : State) (c w : Nat) (v : Wave) : (s.setWave c w v).regions = s.regions := rfl
@[simp] theorem State.setWave_ports (s : State) (c w : Nat) (v : Wave) : (s.setWave c w v).ports = s.ports := rfl
@[simp] theorem State.setWave_flights (s : State) (c w : Nat) (v : Wave) : (s.setWave c w v).flights = s.flights := rfl
@[simp] theorem State.setWave_rings (s : State) (c w : Nat) (v : Wave) : (s.setWave c w v).rings = s.rings := rfl
@[simp] theorem State.setWave_ringTurn (s : State) (c w : Nat) (v : Wave) : (s.setWave c w v).ringTurn = s.ringTurn := rfl
@[simp] theorem State.setWave_graphs (s : State) (c w : Nat) (v : Wave) : (s.setWave c w v).graphs = s.graphs := rfl
@[simp] theorem State.setWave_tables (s : State) (c w : Nat) (v : Wave) : (s.setWave c w v).tables = s.tables := rfl
@[simp] theorem State.setWave_imageBase (s : State) (c w : Nat) (v : Wave) : (s.setWave c w v).imageBase = s.imageBase := rfl
@[simp] theorem State.setWave_imageBytes (s : State) (c w : Nat) (v : Wave) : (s.setWave c w v).imageBytes = s.imageBytes := rfl
@[simp] theorem State.setWave_pkg (s : State) (c w : Nat) (v : Wave) : (s.setWave c w v).pkg = s.pkg := rfl
@[simp] theorem State.setWave_torusX (s : State) (c w : Nat) (v : Wave) : (s.setWave c w v).torusX = s.torusX := rfl
@[simp] theorem State.setWave_torusY (s : State) (c w : Nat) (v : Wave) : (s.setWave c w v).torusY = s.torusY := rfl
@[simp] theorem State.setWave_mismatched (s : State) (c w : Nat) (v : Wave) : (s.setWave c w v).mismatched = s.mismatched := rfl
@[simp] theorem State.setWave_away (s : State) (c w : Nat) (v : Wave) : (s.setWave c w v).away = s.away := rfl
@[simp] theorem State.setWave_lag (s : State) (c w : Nat) (v : Wave) : (s.setWave c w v).lag = s.lag := rfl
@[simp] theorem State.setWave_exchanged (s : State) (c w : Nat) (v : Wave) : (s.setWave c w v).exchanged = s.exchanged := rfl
@[simp] theorem State.setWave_slewed (s : State) (c w : Nat) (v : Wave) : (s.setWave c w v).slewed = s.slewed := rfl
@[simp] theorem State.setWave_cap (s : State) (c w : Nat) (v : Wave) : (s.setWave c w v).cap = s.cap := rfl
@[simp] theorem State.setWave_islands (s : State) (c w : Nat) (v : Wave) : (s.setWave c w v).islands = s.islands := rfl
@[simp] theorem State.setWave_thermal (s : State) (c w : Nat) (v : Wave) : (s.setWave c w v).thermal = s.thermal := rfl
@[simp] theorem State.setWave_powerAt (s : State) (c w : Nat) (v : Wave) : (s.setWave c w v).powerAt = s.powerAt := rfl
@[simp] theorem State.setWave_fails (s : State) (c w : Nat) (v : Wave) : (s.setWave c w v).fails = s.fails := rfl
@[simp] theorem State.setWave_why (s : State) (c w : Nat) (v : Wave) : (s.setWave c w v).why = s.why := rfl
@[simp] theorem State.setWave_min (s : State) (c w : Nat) (v : Wave) : (s.setWave c w v).min = s.min := rfl
@[simp] theorem State.setWave_up (s : State) (c w : Nat) (v : Wave) : (s.setWave c w v).up = s.up := rfl
@[simp] theorem State.setWave_startedAt (s : State) (c w : Nat) (v : Wave) : (s.setWave c w v).startedAt = s.startedAt := rfl
@[simp] theorem State.setWave_firmware (s : State) (c w : Nat) (v : Wave) : (s.setWave c w v).firmware = s.firmware := rfl
@[simp] theorem State.setWave_staged (s : State) (c w : Nat) (v : Wave) : (s.setWave c w v).staged = s.staged := rfl
@[simp] theorem State.setWave_measured (s : State) (c w : Nat) (v : Wave) : (s.setWave c w v).measured = s.measured := rfl
@[simp] theorem State.setWave_supervisors (s : State) (c w : Nat) (v : Wave) : (s.setWave c w v).supervisors = s.supervisors := rfl
@[simp] theorem State.setWave_discarded (s : State) (c w : Nat) (v : Wave) : (s.setWave c w v).discarded = s.discarded := rfl
@[simp] theorem State.setWave_reports (s : State) (c w : Nat) (v : Wave) : (s.setWave c w v).reports = s.reports := rfl
@[simp] theorem State.setWave_reportsLost (s : State) (c w : Nat) (v : Wave) : (s.setWave c w v).reportsLost = s.reportsLost := rfl
@[simp] theorem State.setWave_msix (s : State) (c w : Nat) (v : Wave) : (s.setWave c w v).msix = s.msix := rfl
@[simp] theorem State.setWave_background (s : State) (c w : Nat) (v : Wave) : (s.setWave c w v).background = s.background := rfl
@[simp] theorem State.setWave_reply (s : State) (c w : Nat) (v : Wave) : (s.setWave c w v).reply = s.reply := rfl
@[simp] theorem State.setWave_spdm (s : State) (c w : Nat) (v : Wave) : (s.setWave c w v).spdm = s.spdm := rfl
@[simp] theorem State.setWave_jtag (s : State) (c w : Nat) (v : Wave) : (s.setWave c w v).jtag = s.jtag := rfl

/-! `updWave`. -/

@[simp] theorem State.updWave_cur (s : State) (c w : Nat) (f : Wave → Wave) : (s.updWave c w f).cur = s.cur := rfl
@[simp] theorem State.updWave_ir (s : State) (c w : Nat) (f : Wave → Wave) : (s.updWave c w f).ir = s.ir := rfl
@[simp] theorem State.updWave_nonce (s : State) (c w : Nat) (f : Wave → Wave) : (s.updWave c w f).nonce = s.nonce := rfl
@[simp] theorem State.updWave_arg (s : State) (c w : Nat) (f : Wave → Wave) : (s.updWave c w f).arg = s.arg := rfl
@[simp] theorem State.updWave_agenda (s : State) (c w : Nat) (f : Wave → Wave) : (s.updWave c w f).agenda = s.agenda := rfl
@[simp] theorem State.updWave_nextId (s : State) (c w : Nat) (f : Wave → Wave) : (s.updWave c w f).nextId = s.nextId := rfl
@[simp] theorem State.updWave_clk (s : State) (c w : Nat) (f : Wave → Wave) : (s.updWave c w f).clk = s.clk := rfl
@[simp] theorem State.updWave_mem (s : State) (c w : Nat) (f : Wave → Wave) : (s.updWave c w f).mem = s.mem := rfl
@[simp] theorem State.updWave_regs (s : State) (c w : Nat) (f : Wave → Wave) : (s.updWave c w f).regs = s.regs := rfl
@[simp] theorem State.updWave_climbers (s : State) (c w : Nat) (f : Wave → Wave) : (s.updWave c w f).climbers = s.climbers := rfl
@[simp] theorem State.updWave_cores (s : State) (c w : Nat) (f : Wave → Wave) : (s.updWave c w f).cores = s.cores := rfl
@[simp] theorem State.updWave_halls (s : State) (c w : Nat) (f : Wave → Wave) : (s.updWave c w f).halls = s.halls := rfl
@[simp] theorem State.updWave_groups (s : State) (c w : Nat) (f : Wave → Wave) : (s.updWave c w f).groups = s.groups := rfl
@[simp] theorem State.updWave_launches (s : State) (c w : Nat) (f : Wave → Wave) : (s.updWave c w f).launches = s.launches := rfl
@[simp] theorem State.updWave_saved (s : State) (c w : Nat) (f : Wave → Wave) : (s.updWave c w f).saved = s.saved := rfl
@[simp] theorem State.updWave_accepted (s : State) (c w : Nat) (f : Wave → Wave) : (s.updWave c w f).accepted = s.accepted := rfl
@[simp] theorem State.updWave_placements (s : State) (c w : Nat) (f : Wave → Wave) : (s.updWave c w f).placements = s.placements := rfl
@[simp] theorem State.updWave_frames (s : State) (c w : Nat) (f : Wave → Wave) : (s.updWave c w f).frames = s.frames := rfl
@[simp] theorem State.updWave_cbars (s : State) (c w : Nat) (f : Wave → Wave) : (s.updWave c w f).cbars = s.cbars := rfl
@[simp] theorem State.updWave_lines (s : State) (c w : Nat) (f : Wave → Wave) : (s.updWave c w f).lines = s.lines := rfl
@[simp] theorem State.updWave_dirs (s : State) (c w : Nat) (f : Wave → Wave) : (s.updWave c w f).dirs = s.dirs := rfl
@[simp] theorem State.updWave_watches (s : State) (c w : Nat) (f : Wave → Wave) : (s.updWave c w f).watches = s.watches := rfl
@[simp] theorem State.updWave_shoots (s : State) (c w : Nat) (f : Wave → Wave) : (s.updWave c w f).shoots = s.shoots := rfl
@[simp] theorem State.updWave_pageOps (s : State) (c w : Nat) (f : Wave → Wave) : (s.updWave c w f).pageOps = s.pageOps := rfl
@[simp] theorem State.updWave_tweaks (s : State) (c w : Nat) (f : Wave → Wave) : (s.updWave c w f).tweaks = s.tweaks := rfl
@[simp] theorem State.updWave_sseqs (s : State) (c w : Nat) (f : Wave → Wave) : (s.updWave c w f).sseqs = s.sseqs := rfl
@[simp] theorem State.updWave_birsp (s : State) (c w : Nat) (f : Wave → Wave) : (s.updWave c w f).birsp = s.birsp := rfl
@[simp] theorem State.updWave_sectors (s : State) (c w : Nat) (f : Wave → Wave) : (s.updWave c w f).sectors = s.sectors := rfl
@[simp] theorem State.updWave_badLs (s : State) (c w : Nat) (f : Wave → Wave) : (s.updWave c w f).badLs = s.badLs := rfl
@[simp] theorem State.updWave_badHbm (s : State) (c w : Nat) (f : Wave → Wave) : (s.updWave c w f).badHbm = s.badHbm := rfl
@[simp] theorem State.updWave_badHall (s : State) (c w : Nat) (f : Wave → Wave) : (s.updWave c w f).badHall = s.badHall := rfl
@[simp] theorem State.updWave_badArray (s : State) (c w : Nat) (f : Wave → Wave) : (s.updWave c w f).badArray = s.badArray := rfl
@[simp] theorem State.updWave_corrected (s : State) (c w : Nat) (f : Wave → Wave) : (s.updWave c w f).corrected = s.corrected := rfl
@[simp] theorem State.updWave_scrub (s : State) (c w : Nat) (f : Wave → Wave) : (s.updWave c w f).scrub = s.scrub := rfl
@[simp] theorem State.updWave_roots (s : State) (c w : Nat) (f : Wave → Wave) : (s.updWave c w f).roots = s.roots := rfl
@[simp] theorem State.updWave_keys (s : State) (c w : Nat) (f : Wave → Wave) : (s.updWave c w f).keys = s.keys := rfl
@[simp] theorem State.updWave_keyLock (s : State) (c w : Nat) (f : Wave → Wave) : (s.updWave c w f).keyLock = s.keyLock := rfl
@[simp] theorem State.updWave_slots (s : State) (c w : Nat) (f : Wave → Wave) : (s.updWave c w f).slots = s.slots := rfl
@[simp] theorem State.updWave_regions (s : State) (c w : Nat) (f : Wave → Wave) : (s.updWave c w f).regions = s.regions := rfl
@[simp] theorem State.updWave_ports (s : State) (c w : Nat) (f : Wave → Wave) : (s.updWave c w f).ports = s.ports := rfl
@[simp] theorem State.updWave_flights (s : State) (c w : Nat) (f : Wave → Wave) : (s.updWave c w f).flights = s.flights := rfl
@[simp] theorem State.updWave_rings (s : State) (c w : Nat) (f : Wave → Wave) : (s.updWave c w f).rings = s.rings := rfl
@[simp] theorem State.updWave_ringTurn (s : State) (c w : Nat) (f : Wave → Wave) : (s.updWave c w f).ringTurn = s.ringTurn := rfl
@[simp] theorem State.updWave_graphs (s : State) (c w : Nat) (f : Wave → Wave) : (s.updWave c w f).graphs = s.graphs := rfl
@[simp] theorem State.updWave_tables (s : State) (c w : Nat) (f : Wave → Wave) : (s.updWave c w f).tables = s.tables := rfl
@[simp] theorem State.updWave_imageBase (s : State) (c w : Nat) (f : Wave → Wave) : (s.updWave c w f).imageBase = s.imageBase := rfl
@[simp] theorem State.updWave_imageBytes (s : State) (c w : Nat) (f : Wave → Wave) : (s.updWave c w f).imageBytes = s.imageBytes := rfl
@[simp] theorem State.updWave_pkg (s : State) (c w : Nat) (f : Wave → Wave) : (s.updWave c w f).pkg = s.pkg := rfl
@[simp] theorem State.updWave_torusX (s : State) (c w : Nat) (f : Wave → Wave) : (s.updWave c w f).torusX = s.torusX := rfl
@[simp] theorem State.updWave_torusY (s : State) (c w : Nat) (f : Wave → Wave) : (s.updWave c w f).torusY = s.torusY := rfl
@[simp] theorem State.updWave_mismatched (s : State) (c w : Nat) (f : Wave → Wave) : (s.updWave c w f).mismatched = s.mismatched := rfl
@[simp] theorem State.updWave_away (s : State) (c w : Nat) (f : Wave → Wave) : (s.updWave c w f).away = s.away := rfl
@[simp] theorem State.updWave_lag (s : State) (c w : Nat) (f : Wave → Wave) : (s.updWave c w f).lag = s.lag := rfl
@[simp] theorem State.updWave_exchanged (s : State) (c w : Nat) (f : Wave → Wave) : (s.updWave c w f).exchanged = s.exchanged := rfl
@[simp] theorem State.updWave_slewed (s : State) (c w : Nat) (f : Wave → Wave) : (s.updWave c w f).slewed = s.slewed := rfl
@[simp] theorem State.updWave_cap (s : State) (c w : Nat) (f : Wave → Wave) : (s.updWave c w f).cap = s.cap := rfl
@[simp] theorem State.updWave_islands (s : State) (c w : Nat) (f : Wave → Wave) : (s.updWave c w f).islands = s.islands := rfl
@[simp] theorem State.updWave_thermal (s : State) (c w : Nat) (f : Wave → Wave) : (s.updWave c w f).thermal = s.thermal := rfl
@[simp] theorem State.updWave_powerAt (s : State) (c w : Nat) (f : Wave → Wave) : (s.updWave c w f).powerAt = s.powerAt := rfl
@[simp] theorem State.updWave_fails (s : State) (c w : Nat) (f : Wave → Wave) : (s.updWave c w f).fails = s.fails := rfl
@[simp] theorem State.updWave_why (s : State) (c w : Nat) (f : Wave → Wave) : (s.updWave c w f).why = s.why := rfl
@[simp] theorem State.updWave_min (s : State) (c w : Nat) (f : Wave → Wave) : (s.updWave c w f).min = s.min := rfl
@[simp] theorem State.updWave_up (s : State) (c w : Nat) (f : Wave → Wave) : (s.updWave c w f).up = s.up := rfl
@[simp] theorem State.updWave_startedAt (s : State) (c w : Nat) (f : Wave → Wave) : (s.updWave c w f).startedAt = s.startedAt := rfl
@[simp] theorem State.updWave_firmware (s : State) (c w : Nat) (f : Wave → Wave) : (s.updWave c w f).firmware = s.firmware := rfl
@[simp] theorem State.updWave_staged (s : State) (c w : Nat) (f : Wave → Wave) : (s.updWave c w f).staged = s.staged := rfl
@[simp] theorem State.updWave_measured (s : State) (c w : Nat) (f : Wave → Wave) : (s.updWave c w f).measured = s.measured := rfl
@[simp] theorem State.updWave_supervisors (s : State) (c w : Nat) (f : Wave → Wave) : (s.updWave c w f).supervisors = s.supervisors := rfl
@[simp] theorem State.updWave_discarded (s : State) (c w : Nat) (f : Wave → Wave) : (s.updWave c w f).discarded = s.discarded := rfl
@[simp] theorem State.updWave_reports (s : State) (c w : Nat) (f : Wave → Wave) : (s.updWave c w f).reports = s.reports := rfl
@[simp] theorem State.updWave_reportsLost (s : State) (c w : Nat) (f : Wave → Wave) : (s.updWave c w f).reportsLost = s.reportsLost := rfl
@[simp] theorem State.updWave_msix (s : State) (c w : Nat) (f : Wave → Wave) : (s.updWave c w f).msix = s.msix := rfl
@[simp] theorem State.updWave_background (s : State) (c w : Nat) (f : Wave → Wave) : (s.updWave c w f).background = s.background := rfl
@[simp] theorem State.updWave_reply (s : State) (c w : Nat) (f : Wave → Wave) : (s.updWave c w f).reply = s.reply := rfl
@[simp] theorem State.updWave_spdm (s : State) (c w : Nat) (f : Wave → Wave) : (s.updWave c w f).spdm = s.spdm := rfl
@[simp] theorem State.updWave_jtag (s : State) (c w : Nat) (f : Wave → Wave) : (s.updWave c w f).jtag = s.jtag := rfl

/-! `updSplit`. -/

@[simp] theorem State.updSplit_cur (s : State) (c w p : Nat) (f : Split → Split) : (s.updSplit c w p f).cur = s.cur := rfl
@[simp] theorem State.updSplit_ir (s : State) (c w p : Nat) (f : Split → Split) : (s.updSplit c w p f).ir = s.ir := rfl
@[simp] theorem State.updSplit_nonce (s : State) (c w p : Nat) (f : Split → Split) : (s.updSplit c w p f).nonce = s.nonce := rfl
@[simp] theorem State.updSplit_arg (s : State) (c w p : Nat) (f : Split → Split) : (s.updSplit c w p f).arg = s.arg := rfl
@[simp] theorem State.updSplit_agenda (s : State) (c w p : Nat) (f : Split → Split) : (s.updSplit c w p f).agenda = s.agenda := rfl
@[simp] theorem State.updSplit_nextId (s : State) (c w p : Nat) (f : Split → Split) : (s.updSplit c w p f).nextId = s.nextId := rfl
@[simp] theorem State.updSplit_clk (s : State) (c w p : Nat) (f : Split → Split) : (s.updSplit c w p f).clk = s.clk := rfl
@[simp] theorem State.updSplit_mem (s : State) (c w p : Nat) (f : Split → Split) : (s.updSplit c w p f).mem = s.mem := rfl
@[simp] theorem State.updSplit_regs (s : State) (c w p : Nat) (f : Split → Split) : (s.updSplit c w p f).regs = s.regs := rfl
@[simp] theorem State.updSplit_climbers (s : State) (c w p : Nat) (f : Split → Split) : (s.updSplit c w p f).climbers = s.climbers := rfl
@[simp] theorem State.updSplit_cores (s : State) (c w p : Nat) (f : Split → Split) : (s.updSplit c w p f).cores = s.cores := rfl
@[simp] theorem State.updSplit_halls (s : State) (c w p : Nat) (f : Split → Split) : (s.updSplit c w p f).halls = s.halls := rfl
@[simp] theorem State.updSplit_groups (s : State) (c w p : Nat) (f : Split → Split) : (s.updSplit c w p f).groups = s.groups := rfl
@[simp] theorem State.updSplit_launches (s : State) (c w p : Nat) (f : Split → Split) : (s.updSplit c w p f).launches = s.launches := rfl
@[simp] theorem State.updSplit_saved (s : State) (c w p : Nat) (f : Split → Split) : (s.updSplit c w p f).saved = s.saved := rfl
@[simp] theorem State.updSplit_accepted (s : State) (c w p : Nat) (f : Split → Split) : (s.updSplit c w p f).accepted = s.accepted := rfl
@[simp] theorem State.updSplit_placements (s : State) (c w p : Nat) (f : Split → Split) : (s.updSplit c w p f).placements = s.placements := rfl
@[simp] theorem State.updSplit_frames (s : State) (c w p : Nat) (f : Split → Split) : (s.updSplit c w p f).frames = s.frames := rfl
@[simp] theorem State.updSplit_cbars (s : State) (c w p : Nat) (f : Split → Split) : (s.updSplit c w p f).cbars = s.cbars := rfl
@[simp] theorem State.updSplit_lines (s : State) (c w p : Nat) (f : Split → Split) : (s.updSplit c w p f).lines = s.lines := rfl
@[simp] theorem State.updSplit_dirs (s : State) (c w p : Nat) (f : Split → Split) : (s.updSplit c w p f).dirs = s.dirs := rfl
@[simp] theorem State.updSplit_watches (s : State) (c w p : Nat) (f : Split → Split) : (s.updSplit c w p f).watches = s.watches := rfl
@[simp] theorem State.updSplit_shoots (s : State) (c w p : Nat) (f : Split → Split) : (s.updSplit c w p f).shoots = s.shoots := rfl
@[simp] theorem State.updSplit_pageOps (s : State) (c w p : Nat) (f : Split → Split) : (s.updSplit c w p f).pageOps = s.pageOps := rfl
@[simp] theorem State.updSplit_tweaks (s : State) (c w p : Nat) (f : Split → Split) : (s.updSplit c w p f).tweaks = s.tweaks := rfl
@[simp] theorem State.updSplit_sseqs (s : State) (c w p : Nat) (f : Split → Split) : (s.updSplit c w p f).sseqs = s.sseqs := rfl
@[simp] theorem State.updSplit_birsp (s : State) (c w p : Nat) (f : Split → Split) : (s.updSplit c w p f).birsp = s.birsp := rfl
@[simp] theorem State.updSplit_sectors (s : State) (c w p : Nat) (f : Split → Split) : (s.updSplit c w p f).sectors = s.sectors := rfl
@[simp] theorem State.updSplit_badLs (s : State) (c w p : Nat) (f : Split → Split) : (s.updSplit c w p f).badLs = s.badLs := rfl
@[simp] theorem State.updSplit_badHbm (s : State) (c w p : Nat) (f : Split → Split) : (s.updSplit c w p f).badHbm = s.badHbm := rfl
@[simp] theorem State.updSplit_badHall (s : State) (c w p : Nat) (f : Split → Split) : (s.updSplit c w p f).badHall = s.badHall := rfl
@[simp] theorem State.updSplit_badArray (s : State) (c w p : Nat) (f : Split → Split) : (s.updSplit c w p f).badArray = s.badArray := rfl
@[simp] theorem State.updSplit_corrected (s : State) (c w p : Nat) (f : Split → Split) : (s.updSplit c w p f).corrected = s.corrected := rfl
@[simp] theorem State.updSplit_scrub (s : State) (c w p : Nat) (f : Split → Split) : (s.updSplit c w p f).scrub = s.scrub := rfl
@[simp] theorem State.updSplit_roots (s : State) (c w p : Nat) (f : Split → Split) : (s.updSplit c w p f).roots = s.roots := rfl
@[simp] theorem State.updSplit_keys (s : State) (c w p : Nat) (f : Split → Split) : (s.updSplit c w p f).keys = s.keys := rfl
@[simp] theorem State.updSplit_keyLock (s : State) (c w p : Nat) (f : Split → Split) : (s.updSplit c w p f).keyLock = s.keyLock := rfl
@[simp] theorem State.updSplit_slots (s : State) (c w p : Nat) (f : Split → Split) : (s.updSplit c w p f).slots = s.slots := rfl
@[simp] theorem State.updSplit_regions (s : State) (c w p : Nat) (f : Split → Split) : (s.updSplit c w p f).regions = s.regions := rfl
@[simp] theorem State.updSplit_ports (s : State) (c w p : Nat) (f : Split → Split) : (s.updSplit c w p f).ports = s.ports := rfl
@[simp] theorem State.updSplit_flights (s : State) (c w p : Nat) (f : Split → Split) : (s.updSplit c w p f).flights = s.flights := rfl
@[simp] theorem State.updSplit_rings (s : State) (c w p : Nat) (f : Split → Split) : (s.updSplit c w p f).rings = s.rings := rfl
@[simp] theorem State.updSplit_ringTurn (s : State) (c w p : Nat) (f : Split → Split) : (s.updSplit c w p f).ringTurn = s.ringTurn := rfl
@[simp] theorem State.updSplit_graphs (s : State) (c w p : Nat) (f : Split → Split) : (s.updSplit c w p f).graphs = s.graphs := rfl
@[simp] theorem State.updSplit_tables (s : State) (c w p : Nat) (f : Split → Split) : (s.updSplit c w p f).tables = s.tables := rfl
@[simp] theorem State.updSplit_imageBase (s : State) (c w p : Nat) (f : Split → Split) : (s.updSplit c w p f).imageBase = s.imageBase := rfl
@[simp] theorem State.updSplit_imageBytes (s : State) (c w p : Nat) (f : Split → Split) : (s.updSplit c w p f).imageBytes = s.imageBytes := rfl
@[simp] theorem State.updSplit_pkg (s : State) (c w p : Nat) (f : Split → Split) : (s.updSplit c w p f).pkg = s.pkg := rfl
@[simp] theorem State.updSplit_torusX (s : State) (c w p : Nat) (f : Split → Split) : (s.updSplit c w p f).torusX = s.torusX := rfl
@[simp] theorem State.updSplit_torusY (s : State) (c w p : Nat) (f : Split → Split) : (s.updSplit c w p f).torusY = s.torusY := rfl
@[simp] theorem State.updSplit_mismatched (s : State) (c w p : Nat) (f : Split → Split) : (s.updSplit c w p f).mismatched = s.mismatched := rfl
@[simp] theorem State.updSplit_away (s : State) (c w p : Nat) (f : Split → Split) : (s.updSplit c w p f).away = s.away := rfl
@[simp] theorem State.updSplit_lag (s : State) (c w p : Nat) (f : Split → Split) : (s.updSplit c w p f).lag = s.lag := rfl
@[simp] theorem State.updSplit_exchanged (s : State) (c w p : Nat) (f : Split → Split) : (s.updSplit c w p f).exchanged = s.exchanged := rfl
@[simp] theorem State.updSplit_slewed (s : State) (c w p : Nat) (f : Split → Split) : (s.updSplit c w p f).slewed = s.slewed := rfl
@[simp] theorem State.updSplit_cap (s : State) (c w p : Nat) (f : Split → Split) : (s.updSplit c w p f).cap = s.cap := rfl
@[simp] theorem State.updSplit_islands (s : State) (c w p : Nat) (f : Split → Split) : (s.updSplit c w p f).islands = s.islands := rfl
@[simp] theorem State.updSplit_thermal (s : State) (c w p : Nat) (f : Split → Split) : (s.updSplit c w p f).thermal = s.thermal := rfl
@[simp] theorem State.updSplit_powerAt (s : State) (c w p : Nat) (f : Split → Split) : (s.updSplit c w p f).powerAt = s.powerAt := rfl
@[simp] theorem State.updSplit_fails (s : State) (c w p : Nat) (f : Split → Split) : (s.updSplit c w p f).fails = s.fails := rfl
@[simp] theorem State.updSplit_why (s : State) (c w p : Nat) (f : Split → Split) : (s.updSplit c w p f).why = s.why := rfl
@[simp] theorem State.updSplit_min (s : State) (c w p : Nat) (f : Split → Split) : (s.updSplit c w p f).min = s.min := rfl
@[simp] theorem State.updSplit_up (s : State) (c w p : Nat) (f : Split → Split) : (s.updSplit c w p f).up = s.up := rfl
@[simp] theorem State.updSplit_startedAt (s : State) (c w p : Nat) (f : Split → Split) : (s.updSplit c w p f).startedAt = s.startedAt := rfl
@[simp] theorem State.updSplit_firmware (s : State) (c w p : Nat) (f : Split → Split) : (s.updSplit c w p f).firmware = s.firmware := rfl
@[simp] theorem State.updSplit_staged (s : State) (c w p : Nat) (f : Split → Split) : (s.updSplit c w p f).staged = s.staged := rfl
@[simp] theorem State.updSplit_measured (s : State) (c w p : Nat) (f : Split → Split) : (s.updSplit c w p f).measured = s.measured := rfl
@[simp] theorem State.updSplit_supervisors (s : State) (c w p : Nat) (f : Split → Split) : (s.updSplit c w p f).supervisors = s.supervisors := rfl
@[simp] theorem State.updSplit_discarded (s : State) (c w p : Nat) (f : Split → Split) : (s.updSplit c w p f).discarded = s.discarded := rfl
@[simp] theorem State.updSplit_reports (s : State) (c w p : Nat) (f : Split → Split) : (s.updSplit c w p f).reports = s.reports := rfl
@[simp] theorem State.updSplit_reportsLost (s : State) (c w p : Nat) (f : Split → Split) : (s.updSplit c w p f).reportsLost = s.reportsLost := rfl
@[simp] theorem State.updSplit_msix (s : State) (c w p : Nat) (f : Split → Split) : (s.updSplit c w p f).msix = s.msix := rfl
@[simp] theorem State.updSplit_background (s : State) (c w p : Nat) (f : Split → Split) : (s.updSplit c w p f).background = s.background := rfl
@[simp] theorem State.updSplit_reply (s : State) (c w p : Nat) (f : Split → Split) : (s.updSplit c w p f).reply = s.reply := rfl
@[simp] theorem State.updSplit_spdm (s : State) (c w p : Nat) (f : Split → Split) : (s.updSplit c w p f).spdm = s.spdm := rfl
@[simp] theorem State.updSplit_jtag (s : State) (c w p : Nat) (f : Split → Split) : (s.updSplit c w p f).jtag = s.jtag := rfl

/-! `setClimber`. -/

@[simp] theorem State.setClimber_cur (s : State) (c k : Nat) (v : Climber) : (s.setClimber c k v).cur = s.cur := rfl
@[simp] theorem State.setClimber_ir (s : State) (c k : Nat) (v : Climber) : (s.setClimber c k v).ir = s.ir := rfl
@[simp] theorem State.setClimber_nonce (s : State) (c k : Nat) (v : Climber) : (s.setClimber c k v).nonce = s.nonce := rfl
@[simp] theorem State.setClimber_arg (s : State) (c k : Nat) (v : Climber) : (s.setClimber c k v).arg = s.arg := rfl
@[simp] theorem State.setClimber_agenda (s : State) (c k : Nat) (v : Climber) : (s.setClimber c k v).agenda = s.agenda := rfl
@[simp] theorem State.setClimber_nextId (s : State) (c k : Nat) (v : Climber) : (s.setClimber c k v).nextId = s.nextId := rfl
@[simp] theorem State.setClimber_clk (s : State) (c k : Nat) (v : Climber) : (s.setClimber c k v).clk = s.clk := rfl
@[simp] theorem State.setClimber_mem (s : State) (c k : Nat) (v : Climber) : (s.setClimber c k v).mem = s.mem := rfl
@[simp] theorem State.setClimber_regs (s : State) (c k : Nat) (v : Climber) : (s.setClimber c k v).regs = s.regs := rfl
@[simp] theorem State.setClimber_waves (s : State) (c k : Nat) (v : Climber) : (s.setClimber c k v).waves = s.waves := rfl
@[simp] theorem State.setClimber_cores (s : State) (c k : Nat) (v : Climber) : (s.setClimber c k v).cores = s.cores := rfl
@[simp] theorem State.setClimber_halls (s : State) (c k : Nat) (v : Climber) : (s.setClimber c k v).halls = s.halls := rfl
@[simp] theorem State.setClimber_groups (s : State) (c k : Nat) (v : Climber) : (s.setClimber c k v).groups = s.groups := rfl
@[simp] theorem State.setClimber_launches (s : State) (c k : Nat) (v : Climber) : (s.setClimber c k v).launches = s.launches := rfl
@[simp] theorem State.setClimber_saved (s : State) (c k : Nat) (v : Climber) : (s.setClimber c k v).saved = s.saved := rfl
@[simp] theorem State.setClimber_accepted (s : State) (c k : Nat) (v : Climber) : (s.setClimber c k v).accepted = s.accepted := rfl
@[simp] theorem State.setClimber_placements (s : State) (c k : Nat) (v : Climber) : (s.setClimber c k v).placements = s.placements := rfl
@[simp] theorem State.setClimber_frames (s : State) (c k : Nat) (v : Climber) : (s.setClimber c k v).frames = s.frames := rfl
@[simp] theorem State.setClimber_cbars (s : State) (c k : Nat) (v : Climber) : (s.setClimber c k v).cbars = s.cbars := rfl
@[simp] theorem State.setClimber_lines (s : State) (c k : Nat) (v : Climber) : (s.setClimber c k v).lines = s.lines := rfl
@[simp] theorem State.setClimber_dirs (s : State) (c k : Nat) (v : Climber) : (s.setClimber c k v).dirs = s.dirs := rfl
@[simp] theorem State.setClimber_watches (s : State) (c k : Nat) (v : Climber) : (s.setClimber c k v).watches = s.watches := rfl
@[simp] theorem State.setClimber_shoots (s : State) (c k : Nat) (v : Climber) : (s.setClimber c k v).shoots = s.shoots := rfl
@[simp] theorem State.setClimber_pageOps (s : State) (c k : Nat) (v : Climber) : (s.setClimber c k v).pageOps = s.pageOps := rfl
@[simp] theorem State.setClimber_tweaks (s : State) (c k : Nat) (v : Climber) : (s.setClimber c k v).tweaks = s.tweaks := rfl
@[simp] theorem State.setClimber_sseqs (s : State) (c k : Nat) (v : Climber) : (s.setClimber c k v).sseqs = s.sseqs := rfl
@[simp] theorem State.setClimber_birsp (s : State) (c k : Nat) (v : Climber) : (s.setClimber c k v).birsp = s.birsp := rfl
@[simp] theorem State.setClimber_sectors (s : State) (c k : Nat) (v : Climber) : (s.setClimber c k v).sectors = s.sectors := rfl
@[simp] theorem State.setClimber_badLs (s : State) (c k : Nat) (v : Climber) : (s.setClimber c k v).badLs = s.badLs := rfl
@[simp] theorem State.setClimber_badHbm (s : State) (c k : Nat) (v : Climber) : (s.setClimber c k v).badHbm = s.badHbm := rfl
@[simp] theorem State.setClimber_badHall (s : State) (c k : Nat) (v : Climber) : (s.setClimber c k v).badHall = s.badHall := rfl
@[simp] theorem State.setClimber_badArray (s : State) (c k : Nat) (v : Climber) : (s.setClimber c k v).badArray = s.badArray := rfl
@[simp] theorem State.setClimber_corrected (s : State) (c k : Nat) (v : Climber) : (s.setClimber c k v).corrected = s.corrected := rfl
@[simp] theorem State.setClimber_scrub (s : State) (c k : Nat) (v : Climber) : (s.setClimber c k v).scrub = s.scrub := rfl
@[simp] theorem State.setClimber_roots (s : State) (c k : Nat) (v : Climber) : (s.setClimber c k v).roots = s.roots := rfl
@[simp] theorem State.setClimber_keys (s : State) (c k : Nat) (v : Climber) : (s.setClimber c k v).keys = s.keys := rfl
@[simp] theorem State.setClimber_keyLock (s : State) (c k : Nat) (v : Climber) : (s.setClimber c k v).keyLock = s.keyLock := rfl
@[simp] theorem State.setClimber_slots (s : State) (c k : Nat) (v : Climber) : (s.setClimber c k v).slots = s.slots := rfl
@[simp] theorem State.setClimber_regions (s : State) (c k : Nat) (v : Climber) : (s.setClimber c k v).regions = s.regions := rfl
@[simp] theorem State.setClimber_ports (s : State) (c k : Nat) (v : Climber) : (s.setClimber c k v).ports = s.ports := rfl
@[simp] theorem State.setClimber_flights (s : State) (c k : Nat) (v : Climber) : (s.setClimber c k v).flights = s.flights := rfl
@[simp] theorem State.setClimber_rings (s : State) (c k : Nat) (v : Climber) : (s.setClimber c k v).rings = s.rings := rfl
@[simp] theorem State.setClimber_ringTurn (s : State) (c k : Nat) (v : Climber) : (s.setClimber c k v).ringTurn = s.ringTurn := rfl
@[simp] theorem State.setClimber_graphs (s : State) (c k : Nat) (v : Climber) : (s.setClimber c k v).graphs = s.graphs := rfl
@[simp] theorem State.setClimber_tables (s : State) (c k : Nat) (v : Climber) : (s.setClimber c k v).tables = s.tables := rfl
@[simp] theorem State.setClimber_imageBase (s : State) (c k : Nat) (v : Climber) : (s.setClimber c k v).imageBase = s.imageBase := rfl
@[simp] theorem State.setClimber_imageBytes (s : State) (c k : Nat) (v : Climber) : (s.setClimber c k v).imageBytes = s.imageBytes := rfl
@[simp] theorem State.setClimber_pkg (s : State) (c k : Nat) (v : Climber) : (s.setClimber c k v).pkg = s.pkg := rfl
@[simp] theorem State.setClimber_torusX (s : State) (c k : Nat) (v : Climber) : (s.setClimber c k v).torusX = s.torusX := rfl
@[simp] theorem State.setClimber_torusY (s : State) (c k : Nat) (v : Climber) : (s.setClimber c k v).torusY = s.torusY := rfl
@[simp] theorem State.setClimber_mismatched (s : State) (c k : Nat) (v : Climber) : (s.setClimber c k v).mismatched = s.mismatched := rfl
@[simp] theorem State.setClimber_away (s : State) (c k : Nat) (v : Climber) : (s.setClimber c k v).away = s.away := rfl
@[simp] theorem State.setClimber_lag (s : State) (c k : Nat) (v : Climber) : (s.setClimber c k v).lag = s.lag := rfl
@[simp] theorem State.setClimber_exchanged (s : State) (c k : Nat) (v : Climber) : (s.setClimber c k v).exchanged = s.exchanged := rfl
@[simp] theorem State.setClimber_slewed (s : State) (c k : Nat) (v : Climber) : (s.setClimber c k v).slewed = s.slewed := rfl
@[simp] theorem State.setClimber_cap (s : State) (c k : Nat) (v : Climber) : (s.setClimber c k v).cap = s.cap := rfl
@[simp] theorem State.setClimber_islands (s : State) (c k : Nat) (v : Climber) : (s.setClimber c k v).islands = s.islands := rfl
@[simp] theorem State.setClimber_thermal (s : State) (c k : Nat) (v : Climber) : (s.setClimber c k v).thermal = s.thermal := rfl
@[simp] theorem State.setClimber_powerAt (s : State) (c k : Nat) (v : Climber) : (s.setClimber c k v).powerAt = s.powerAt := rfl
@[simp] theorem State.setClimber_fails (s : State) (c k : Nat) (v : Climber) : (s.setClimber c k v).fails = s.fails := rfl
@[simp] theorem State.setClimber_why (s : State) (c k : Nat) (v : Climber) : (s.setClimber c k v).why = s.why := rfl
@[simp] theorem State.setClimber_min (s : State) (c k : Nat) (v : Climber) : (s.setClimber c k v).min = s.min := rfl
@[simp] theorem State.setClimber_up (s : State) (c k : Nat) (v : Climber) : (s.setClimber c k v).up = s.up := rfl
@[simp] theorem State.setClimber_startedAt (s : State) (c k : Nat) (v : Climber) : (s.setClimber c k v).startedAt = s.startedAt := rfl
@[simp] theorem State.setClimber_firmware (s : State) (c k : Nat) (v : Climber) : (s.setClimber c k v).firmware = s.firmware := rfl
@[simp] theorem State.setClimber_staged (s : State) (c k : Nat) (v : Climber) : (s.setClimber c k v).staged = s.staged := rfl
@[simp] theorem State.setClimber_measured (s : State) (c k : Nat) (v : Climber) : (s.setClimber c k v).measured = s.measured := rfl
@[simp] theorem State.setClimber_supervisors (s : State) (c k : Nat) (v : Climber) : (s.setClimber c k v).supervisors = s.supervisors := rfl
@[simp] theorem State.setClimber_discarded (s : State) (c k : Nat) (v : Climber) : (s.setClimber c k v).discarded = s.discarded := rfl
@[simp] theorem State.setClimber_reports (s : State) (c k : Nat) (v : Climber) : (s.setClimber c k v).reports = s.reports := rfl
@[simp] theorem State.setClimber_reportsLost (s : State) (c k : Nat) (v : Climber) : (s.setClimber c k v).reportsLost = s.reportsLost := rfl
@[simp] theorem State.setClimber_msix (s : State) (c k : Nat) (v : Climber) : (s.setClimber c k v).msix = s.msix := rfl
@[simp] theorem State.setClimber_background (s : State) (c k : Nat) (v : Climber) : (s.setClimber c k v).background = s.background := rfl
@[simp] theorem State.setClimber_reply (s : State) (c k : Nat) (v : Climber) : (s.setClimber c k v).reply = s.reply := rfl
@[simp] theorem State.setClimber_spdm (s : State) (c k : Nat) (v : Climber) : (s.setClimber c k v).spdm = s.spdm := rfl
@[simp] theorem State.setClimber_jtag (s : State) (c k : Nat) (v : Climber) : (s.setClimber c k v).jtag = s.jtag := rfl

/-! `updClimber`. -/

@[simp] theorem State.updClimber_cur (s : State) (c k : Nat) (f : Climber → Climber) : (s.updClimber c k f).cur = s.cur := rfl
@[simp] theorem State.updClimber_ir (s : State) (c k : Nat) (f : Climber → Climber) : (s.updClimber c k f).ir = s.ir := rfl
@[simp] theorem State.updClimber_nonce (s : State) (c k : Nat) (f : Climber → Climber) : (s.updClimber c k f).nonce = s.nonce := rfl
@[simp] theorem State.updClimber_arg (s : State) (c k : Nat) (f : Climber → Climber) : (s.updClimber c k f).arg = s.arg := rfl
@[simp] theorem State.updClimber_agenda (s : State) (c k : Nat) (f : Climber → Climber) : (s.updClimber c k f).agenda = s.agenda := rfl
@[simp] theorem State.updClimber_nextId (s : State) (c k : Nat) (f : Climber → Climber) : (s.updClimber c k f).nextId = s.nextId := rfl
@[simp] theorem State.updClimber_clk (s : State) (c k : Nat) (f : Climber → Climber) : (s.updClimber c k f).clk = s.clk := rfl
@[simp] theorem State.updClimber_mem (s : State) (c k : Nat) (f : Climber → Climber) : (s.updClimber c k f).mem = s.mem := rfl
@[simp] theorem State.updClimber_regs (s : State) (c k : Nat) (f : Climber → Climber) : (s.updClimber c k f).regs = s.regs := rfl
@[simp] theorem State.updClimber_waves (s : State) (c k : Nat) (f : Climber → Climber) : (s.updClimber c k f).waves = s.waves := rfl
@[simp] theorem State.updClimber_cores (s : State) (c k : Nat) (f : Climber → Climber) : (s.updClimber c k f).cores = s.cores := rfl
@[simp] theorem State.updClimber_halls (s : State) (c k : Nat) (f : Climber → Climber) : (s.updClimber c k f).halls = s.halls := rfl
@[simp] theorem State.updClimber_groups (s : State) (c k : Nat) (f : Climber → Climber) : (s.updClimber c k f).groups = s.groups := rfl
@[simp] theorem State.updClimber_launches (s : State) (c k : Nat) (f : Climber → Climber) : (s.updClimber c k f).launches = s.launches := rfl
@[simp] theorem State.updClimber_saved (s : State) (c k : Nat) (f : Climber → Climber) : (s.updClimber c k f).saved = s.saved := rfl
@[simp] theorem State.updClimber_accepted (s : State) (c k : Nat) (f : Climber → Climber) : (s.updClimber c k f).accepted = s.accepted := rfl
@[simp] theorem State.updClimber_placements (s : State) (c k : Nat) (f : Climber → Climber) : (s.updClimber c k f).placements = s.placements := rfl
@[simp] theorem State.updClimber_frames (s : State) (c k : Nat) (f : Climber → Climber) : (s.updClimber c k f).frames = s.frames := rfl
@[simp] theorem State.updClimber_cbars (s : State) (c k : Nat) (f : Climber → Climber) : (s.updClimber c k f).cbars = s.cbars := rfl
@[simp] theorem State.updClimber_lines (s : State) (c k : Nat) (f : Climber → Climber) : (s.updClimber c k f).lines = s.lines := rfl
@[simp] theorem State.updClimber_dirs (s : State) (c k : Nat) (f : Climber → Climber) : (s.updClimber c k f).dirs = s.dirs := rfl
@[simp] theorem State.updClimber_watches (s : State) (c k : Nat) (f : Climber → Climber) : (s.updClimber c k f).watches = s.watches := rfl
@[simp] theorem State.updClimber_shoots (s : State) (c k : Nat) (f : Climber → Climber) : (s.updClimber c k f).shoots = s.shoots := rfl
@[simp] theorem State.updClimber_pageOps (s : State) (c k : Nat) (f : Climber → Climber) : (s.updClimber c k f).pageOps = s.pageOps := rfl
@[simp] theorem State.updClimber_tweaks (s : State) (c k : Nat) (f : Climber → Climber) : (s.updClimber c k f).tweaks = s.tweaks := rfl
@[simp] theorem State.updClimber_sseqs (s : State) (c k : Nat) (f : Climber → Climber) : (s.updClimber c k f).sseqs = s.sseqs := rfl
@[simp] theorem State.updClimber_birsp (s : State) (c k : Nat) (f : Climber → Climber) : (s.updClimber c k f).birsp = s.birsp := rfl
@[simp] theorem State.updClimber_sectors (s : State) (c k : Nat) (f : Climber → Climber) : (s.updClimber c k f).sectors = s.sectors := rfl
@[simp] theorem State.updClimber_badLs (s : State) (c k : Nat) (f : Climber → Climber) : (s.updClimber c k f).badLs = s.badLs := rfl
@[simp] theorem State.updClimber_badHbm (s : State) (c k : Nat) (f : Climber → Climber) : (s.updClimber c k f).badHbm = s.badHbm := rfl
@[simp] theorem State.updClimber_badHall (s : State) (c k : Nat) (f : Climber → Climber) : (s.updClimber c k f).badHall = s.badHall := rfl
@[simp] theorem State.updClimber_badArray (s : State) (c k : Nat) (f : Climber → Climber) : (s.updClimber c k f).badArray = s.badArray := rfl
@[simp] theorem State.updClimber_corrected (s : State) (c k : Nat) (f : Climber → Climber) : (s.updClimber c k f).corrected = s.corrected := rfl
@[simp] theorem State.updClimber_scrub (s : State) (c k : Nat) (f : Climber → Climber) : (s.updClimber c k f).scrub = s.scrub := rfl
@[simp] theorem State.updClimber_roots (s : State) (c k : Nat) (f : Climber → Climber) : (s.updClimber c k f).roots = s.roots := rfl
@[simp] theorem State.updClimber_keys (s : State) (c k : Nat) (f : Climber → Climber) : (s.updClimber c k f).keys = s.keys := rfl
@[simp] theorem State.updClimber_keyLock (s : State) (c k : Nat) (f : Climber → Climber) : (s.updClimber c k f).keyLock = s.keyLock := rfl
@[simp] theorem State.updClimber_slots (s : State) (c k : Nat) (f : Climber → Climber) : (s.updClimber c k f).slots = s.slots := rfl
@[simp] theorem State.updClimber_regions (s : State) (c k : Nat) (f : Climber → Climber) : (s.updClimber c k f).regions = s.regions := rfl
@[simp] theorem State.updClimber_ports (s : State) (c k : Nat) (f : Climber → Climber) : (s.updClimber c k f).ports = s.ports := rfl
@[simp] theorem State.updClimber_flights (s : State) (c k : Nat) (f : Climber → Climber) : (s.updClimber c k f).flights = s.flights := rfl
@[simp] theorem State.updClimber_rings (s : State) (c k : Nat) (f : Climber → Climber) : (s.updClimber c k f).rings = s.rings := rfl
@[simp] theorem State.updClimber_ringTurn (s : State) (c k : Nat) (f : Climber → Climber) : (s.updClimber c k f).ringTurn = s.ringTurn := rfl
@[simp] theorem State.updClimber_graphs (s : State) (c k : Nat) (f : Climber → Climber) : (s.updClimber c k f).graphs = s.graphs := rfl
@[simp] theorem State.updClimber_tables (s : State) (c k : Nat) (f : Climber → Climber) : (s.updClimber c k f).tables = s.tables := rfl
@[simp] theorem State.updClimber_imageBase (s : State) (c k : Nat) (f : Climber → Climber) : (s.updClimber c k f).imageBase = s.imageBase := rfl
@[simp] theorem State.updClimber_imageBytes (s : State) (c k : Nat) (f : Climber → Climber) : (s.updClimber c k f).imageBytes = s.imageBytes := rfl
@[simp] theorem State.updClimber_pkg (s : State) (c k : Nat) (f : Climber → Climber) : (s.updClimber c k f).pkg = s.pkg := rfl
@[simp] theorem State.updClimber_torusX (s : State) (c k : Nat) (f : Climber → Climber) : (s.updClimber c k f).torusX = s.torusX := rfl
@[simp] theorem State.updClimber_torusY (s : State) (c k : Nat) (f : Climber → Climber) : (s.updClimber c k f).torusY = s.torusY := rfl
@[simp] theorem State.updClimber_mismatched (s : State) (c k : Nat) (f : Climber → Climber) : (s.updClimber c k f).mismatched = s.mismatched := rfl
@[simp] theorem State.updClimber_away (s : State) (c k : Nat) (f : Climber → Climber) : (s.updClimber c k f).away = s.away := rfl
@[simp] theorem State.updClimber_lag (s : State) (c k : Nat) (f : Climber → Climber) : (s.updClimber c k f).lag = s.lag := rfl
@[simp] theorem State.updClimber_exchanged (s : State) (c k : Nat) (f : Climber → Climber) : (s.updClimber c k f).exchanged = s.exchanged := rfl
@[simp] theorem State.updClimber_slewed (s : State) (c k : Nat) (f : Climber → Climber) : (s.updClimber c k f).slewed = s.slewed := rfl
@[simp] theorem State.updClimber_cap (s : State) (c k : Nat) (f : Climber → Climber) : (s.updClimber c k f).cap = s.cap := rfl
@[simp] theorem State.updClimber_islands (s : State) (c k : Nat) (f : Climber → Climber) : (s.updClimber c k f).islands = s.islands := rfl
@[simp] theorem State.updClimber_thermal (s : State) (c k : Nat) (f : Climber → Climber) : (s.updClimber c k f).thermal = s.thermal := rfl
@[simp] theorem State.updClimber_powerAt (s : State) (c k : Nat) (f : Climber → Climber) : (s.updClimber c k f).powerAt = s.powerAt := rfl
@[simp] theorem State.updClimber_fails (s : State) (c k : Nat) (f : Climber → Climber) : (s.updClimber c k f).fails = s.fails := rfl
@[simp] theorem State.updClimber_why (s : State) (c k : Nat) (f : Climber → Climber) : (s.updClimber c k f).why = s.why := rfl
@[simp] theorem State.updClimber_min (s : State) (c k : Nat) (f : Climber → Climber) : (s.updClimber c k f).min = s.min := rfl
@[simp] theorem State.updClimber_up (s : State) (c k : Nat) (f : Climber → Climber) : (s.updClimber c k f).up = s.up := rfl
@[simp] theorem State.updClimber_startedAt (s : State) (c k : Nat) (f : Climber → Climber) : (s.updClimber c k f).startedAt = s.startedAt := rfl
@[simp] theorem State.updClimber_firmware (s : State) (c k : Nat) (f : Climber → Climber) : (s.updClimber c k f).firmware = s.firmware := rfl
@[simp] theorem State.updClimber_staged (s : State) (c k : Nat) (f : Climber → Climber) : (s.updClimber c k f).staged = s.staged := rfl
@[simp] theorem State.updClimber_measured (s : State) (c k : Nat) (f : Climber → Climber) : (s.updClimber c k f).measured = s.measured := rfl
@[simp] theorem State.updClimber_supervisors (s : State) (c k : Nat) (f : Climber → Climber) : (s.updClimber c k f).supervisors = s.supervisors := rfl
@[simp] theorem State.updClimber_discarded (s : State) (c k : Nat) (f : Climber → Climber) : (s.updClimber c k f).discarded = s.discarded := rfl
@[simp] theorem State.updClimber_reports (s : State) (c k : Nat) (f : Climber → Climber) : (s.updClimber c k f).reports = s.reports := rfl
@[simp] theorem State.updClimber_reportsLost (s : State) (c k : Nat) (f : Climber → Climber) : (s.updClimber c k f).reportsLost = s.reportsLost := rfl
@[simp] theorem State.updClimber_msix (s : State) (c k : Nat) (f : Climber → Climber) : (s.updClimber c k f).msix = s.msix := rfl
@[simp] theorem State.updClimber_background (s : State) (c k : Nat) (f : Climber → Climber) : (s.updClimber c k f).background = s.background := rfl
@[simp] theorem State.updClimber_reply (s : State) (c k : Nat) (f : Climber → Climber) : (s.updClimber c k f).reply = s.reply := rfl
@[simp] theorem State.updClimber_spdm (s : State) (c k : Nat) (f : Climber → Climber) : (s.updClimber c k f).spdm = s.spdm := rfl
@[simp] theorem State.updClimber_jtag (s : State) (c k : Nat) (f : Climber → Climber) : (s.updClimber c k f).jtag = s.jtag := rfl

/-! `setHall`. -/

@[simp] theorem State.setHall_cur (s : State) (h : Nat) (v : Hall) : (s.setHall h v).cur = s.cur := rfl
@[simp] theorem State.setHall_ir (s : State) (h : Nat) (v : Hall) : (s.setHall h v).ir = s.ir := rfl
@[simp] theorem State.setHall_nonce (s : State) (h : Nat) (v : Hall) : (s.setHall h v).nonce = s.nonce := rfl
@[simp] theorem State.setHall_arg (s : State) (h : Nat) (v : Hall) : (s.setHall h v).arg = s.arg := rfl
@[simp] theorem State.setHall_agenda (s : State) (h : Nat) (v : Hall) : (s.setHall h v).agenda = s.agenda := rfl
@[simp] theorem State.setHall_nextId (s : State) (h : Nat) (v : Hall) : (s.setHall h v).nextId = s.nextId := rfl
@[simp] theorem State.setHall_clk (s : State) (h : Nat) (v : Hall) : (s.setHall h v).clk = s.clk := rfl
@[simp] theorem State.setHall_mem (s : State) (h : Nat) (v : Hall) : (s.setHall h v).mem = s.mem := rfl
@[simp] theorem State.setHall_regs (s : State) (h : Nat) (v : Hall) : (s.setHall h v).regs = s.regs := rfl
@[simp] theorem State.setHall_waves (s : State) (h : Nat) (v : Hall) : (s.setHall h v).waves = s.waves := rfl
@[simp] theorem State.setHall_climbers (s : State) (h : Nat) (v : Hall) : (s.setHall h v).climbers = s.climbers := rfl
@[simp] theorem State.setHall_cores (s : State) (h : Nat) (v : Hall) : (s.setHall h v).cores = s.cores := rfl
@[simp] theorem State.setHall_groups (s : State) (h : Nat) (v : Hall) : (s.setHall h v).groups = s.groups := rfl
@[simp] theorem State.setHall_launches (s : State) (h : Nat) (v : Hall) : (s.setHall h v).launches = s.launches := rfl
@[simp] theorem State.setHall_saved (s : State) (h : Nat) (v : Hall) : (s.setHall h v).saved = s.saved := rfl
@[simp] theorem State.setHall_accepted (s : State) (h : Nat) (v : Hall) : (s.setHall h v).accepted = s.accepted := rfl
@[simp] theorem State.setHall_placements (s : State) (h : Nat) (v : Hall) : (s.setHall h v).placements = s.placements := rfl
@[simp] theorem State.setHall_frames (s : State) (h : Nat) (v : Hall) : (s.setHall h v).frames = s.frames := rfl
@[simp] theorem State.setHall_cbars (s : State) (h : Nat) (v : Hall) : (s.setHall h v).cbars = s.cbars := rfl
@[simp] theorem State.setHall_lines (s : State) (h : Nat) (v : Hall) : (s.setHall h v).lines = s.lines := rfl
@[simp] theorem State.setHall_dirs (s : State) (h : Nat) (v : Hall) : (s.setHall h v).dirs = s.dirs := rfl
@[simp] theorem State.setHall_watches (s : State) (h : Nat) (v : Hall) : (s.setHall h v).watches = s.watches := rfl
@[simp] theorem State.setHall_shoots (s : State) (h : Nat) (v : Hall) : (s.setHall h v).shoots = s.shoots := rfl
@[simp] theorem State.setHall_pageOps (s : State) (h : Nat) (v : Hall) : (s.setHall h v).pageOps = s.pageOps := rfl
@[simp] theorem State.setHall_tweaks (s : State) (h : Nat) (v : Hall) : (s.setHall h v).tweaks = s.tweaks := rfl
@[simp] theorem State.setHall_sseqs (s : State) (h : Nat) (v : Hall) : (s.setHall h v).sseqs = s.sseqs := rfl
@[simp] theorem State.setHall_birsp (s : State) (h : Nat) (v : Hall) : (s.setHall h v).birsp = s.birsp := rfl
@[simp] theorem State.setHall_sectors (s : State) (h : Nat) (v : Hall) : (s.setHall h v).sectors = s.sectors := rfl
@[simp] theorem State.setHall_badLs (s : State) (h : Nat) (v : Hall) : (s.setHall h v).badLs = s.badLs := rfl
@[simp] theorem State.setHall_badHbm (s : State) (h : Nat) (v : Hall) : (s.setHall h v).badHbm = s.badHbm := rfl
@[simp] theorem State.setHall_badHall (s : State) (h : Nat) (v : Hall) : (s.setHall h v).badHall = s.badHall := rfl
@[simp] theorem State.setHall_badArray (s : State) (h : Nat) (v : Hall) : (s.setHall h v).badArray = s.badArray := rfl
@[simp] theorem State.setHall_corrected (s : State) (h : Nat) (v : Hall) : (s.setHall h v).corrected = s.corrected := rfl
@[simp] theorem State.setHall_scrub (s : State) (h : Nat) (v : Hall) : (s.setHall h v).scrub = s.scrub := rfl
@[simp] theorem State.setHall_roots (s : State) (h : Nat) (v : Hall) : (s.setHall h v).roots = s.roots := rfl
@[simp] theorem State.setHall_keys (s : State) (h : Nat) (v : Hall) : (s.setHall h v).keys = s.keys := rfl
@[simp] theorem State.setHall_keyLock (s : State) (h : Nat) (v : Hall) : (s.setHall h v).keyLock = s.keyLock := rfl
@[simp] theorem State.setHall_slots (s : State) (h : Nat) (v : Hall) : (s.setHall h v).slots = s.slots := rfl
@[simp] theorem State.setHall_regions (s : State) (h : Nat) (v : Hall) : (s.setHall h v).regions = s.regions := rfl
@[simp] theorem State.setHall_ports (s : State) (h : Nat) (v : Hall) : (s.setHall h v).ports = s.ports := rfl
@[simp] theorem State.setHall_flights (s : State) (h : Nat) (v : Hall) : (s.setHall h v).flights = s.flights := rfl
@[simp] theorem State.setHall_rings (s : State) (h : Nat) (v : Hall) : (s.setHall h v).rings = s.rings := rfl
@[simp] theorem State.setHall_ringTurn (s : State) (h : Nat) (v : Hall) : (s.setHall h v).ringTurn = s.ringTurn := rfl
@[simp] theorem State.setHall_graphs (s : State) (h : Nat) (v : Hall) : (s.setHall h v).graphs = s.graphs := rfl
@[simp] theorem State.setHall_tables (s : State) (h : Nat) (v : Hall) : (s.setHall h v).tables = s.tables := rfl
@[simp] theorem State.setHall_imageBase (s : State) (h : Nat) (v : Hall) : (s.setHall h v).imageBase = s.imageBase := rfl
@[simp] theorem State.setHall_imageBytes (s : State) (h : Nat) (v : Hall) : (s.setHall h v).imageBytes = s.imageBytes := rfl
@[simp] theorem State.setHall_pkg (s : State) (h : Nat) (v : Hall) : (s.setHall h v).pkg = s.pkg := rfl
@[simp] theorem State.setHall_torusX (s : State) (h : Nat) (v : Hall) : (s.setHall h v).torusX = s.torusX := rfl
@[simp] theorem State.setHall_torusY (s : State) (h : Nat) (v : Hall) : (s.setHall h v).torusY = s.torusY := rfl
@[simp] theorem State.setHall_mismatched (s : State) (h : Nat) (v : Hall) : (s.setHall h v).mismatched = s.mismatched := rfl
@[simp] theorem State.setHall_away (s : State) (h : Nat) (v : Hall) : (s.setHall h v).away = s.away := rfl
@[simp] theorem State.setHall_lag (s : State) (h : Nat) (v : Hall) : (s.setHall h v).lag = s.lag := rfl
@[simp] theorem State.setHall_exchanged (s : State) (h : Nat) (v : Hall) : (s.setHall h v).exchanged = s.exchanged := rfl
@[simp] theorem State.setHall_slewed (s : State) (h : Nat) (v : Hall) : (s.setHall h v).slewed = s.slewed := rfl
@[simp] theorem State.setHall_cap (s : State) (h : Nat) (v : Hall) : (s.setHall h v).cap = s.cap := rfl
@[simp] theorem State.setHall_islands (s : State) (h : Nat) (v : Hall) : (s.setHall h v).islands = s.islands := rfl
@[simp] theorem State.setHall_thermal (s : State) (h : Nat) (v : Hall) : (s.setHall h v).thermal = s.thermal := rfl
@[simp] theorem State.setHall_powerAt (s : State) (h : Nat) (v : Hall) : (s.setHall h v).powerAt = s.powerAt := rfl
@[simp] theorem State.setHall_fails (s : State) (h : Nat) (v : Hall) : (s.setHall h v).fails = s.fails := rfl
@[simp] theorem State.setHall_why (s : State) (h : Nat) (v : Hall) : (s.setHall h v).why = s.why := rfl
@[simp] theorem State.setHall_min (s : State) (h : Nat) (v : Hall) : (s.setHall h v).min = s.min := rfl
@[simp] theorem State.setHall_up (s : State) (h : Nat) (v : Hall) : (s.setHall h v).up = s.up := rfl
@[simp] theorem State.setHall_startedAt (s : State) (h : Nat) (v : Hall) : (s.setHall h v).startedAt = s.startedAt := rfl
@[simp] theorem State.setHall_firmware (s : State) (h : Nat) (v : Hall) : (s.setHall h v).firmware = s.firmware := rfl
@[simp] theorem State.setHall_staged (s : State) (h : Nat) (v : Hall) : (s.setHall h v).staged = s.staged := rfl
@[simp] theorem State.setHall_measured (s : State) (h : Nat) (v : Hall) : (s.setHall h v).measured = s.measured := rfl
@[simp] theorem State.setHall_supervisors (s : State) (h : Nat) (v : Hall) : (s.setHall h v).supervisors = s.supervisors := rfl
@[simp] theorem State.setHall_discarded (s : State) (h : Nat) (v : Hall) : (s.setHall h v).discarded = s.discarded := rfl
@[simp] theorem State.setHall_reports (s : State) (h : Nat) (v : Hall) : (s.setHall h v).reports = s.reports := rfl
@[simp] theorem State.setHall_reportsLost (s : State) (h : Nat) (v : Hall) : (s.setHall h v).reportsLost = s.reportsLost := rfl
@[simp] theorem State.setHall_msix (s : State) (h : Nat) (v : Hall) : (s.setHall h v).msix = s.msix := rfl
@[simp] theorem State.setHall_background (s : State) (h : Nat) (v : Hall) : (s.setHall h v).background = s.background := rfl
@[simp] theorem State.setHall_reply (s : State) (h : Nat) (v : Hall) : (s.setHall h v).reply = s.reply := rfl
@[simp] theorem State.setHall_spdm (s : State) (h : Nat) (v : Hall) : (s.setHall h v).spdm = s.spdm := rfl
@[simp] theorem State.setHall_jtag (s : State) (h : Nat) (v : Hall) : (s.setHall h v).jtag = s.jtag := rfl

/-! `updHall`. -/

@[simp] theorem State.updHall_cur (s : State) (h : Nat) (f : Hall → Hall) : (s.updHall h f).cur = s.cur := rfl
@[simp] theorem State.updHall_ir (s : State) (h : Nat) (f : Hall → Hall) : (s.updHall h f).ir = s.ir := rfl
@[simp] theorem State.updHall_nonce (s : State) (h : Nat) (f : Hall → Hall) : (s.updHall h f).nonce = s.nonce := rfl
@[simp] theorem State.updHall_arg (s : State) (h : Nat) (f : Hall → Hall) : (s.updHall h f).arg = s.arg := rfl
@[simp] theorem State.updHall_agenda (s : State) (h : Nat) (f : Hall → Hall) : (s.updHall h f).agenda = s.agenda := rfl
@[simp] theorem State.updHall_nextId (s : State) (h : Nat) (f : Hall → Hall) : (s.updHall h f).nextId = s.nextId := rfl
@[simp] theorem State.updHall_clk (s : State) (h : Nat) (f : Hall → Hall) : (s.updHall h f).clk = s.clk := rfl
@[simp] theorem State.updHall_mem (s : State) (h : Nat) (f : Hall → Hall) : (s.updHall h f).mem = s.mem := rfl
@[simp] theorem State.updHall_regs (s : State) (h : Nat) (f : Hall → Hall) : (s.updHall h f).regs = s.regs := rfl
@[simp] theorem State.updHall_waves (s : State) (h : Nat) (f : Hall → Hall) : (s.updHall h f).waves = s.waves := rfl
@[simp] theorem State.updHall_climbers (s : State) (h : Nat) (f : Hall → Hall) : (s.updHall h f).climbers = s.climbers := rfl
@[simp] theorem State.updHall_cores (s : State) (h : Nat) (f : Hall → Hall) : (s.updHall h f).cores = s.cores := rfl
@[simp] theorem State.updHall_groups (s : State) (h : Nat) (f : Hall → Hall) : (s.updHall h f).groups = s.groups := rfl
@[simp] theorem State.updHall_launches (s : State) (h : Nat) (f : Hall → Hall) : (s.updHall h f).launches = s.launches := rfl
@[simp] theorem State.updHall_saved (s : State) (h : Nat) (f : Hall → Hall) : (s.updHall h f).saved = s.saved := rfl
@[simp] theorem State.updHall_accepted (s : State) (h : Nat) (f : Hall → Hall) : (s.updHall h f).accepted = s.accepted := rfl
@[simp] theorem State.updHall_placements (s : State) (h : Nat) (f : Hall → Hall) : (s.updHall h f).placements = s.placements := rfl
@[simp] theorem State.updHall_frames (s : State) (h : Nat) (f : Hall → Hall) : (s.updHall h f).frames = s.frames := rfl
@[simp] theorem State.updHall_cbars (s : State) (h : Nat) (f : Hall → Hall) : (s.updHall h f).cbars = s.cbars := rfl
@[simp] theorem State.updHall_lines (s : State) (h : Nat) (f : Hall → Hall) : (s.updHall h f).lines = s.lines := rfl
@[simp] theorem State.updHall_dirs (s : State) (h : Nat) (f : Hall → Hall) : (s.updHall h f).dirs = s.dirs := rfl
@[simp] theorem State.updHall_watches (s : State) (h : Nat) (f : Hall → Hall) : (s.updHall h f).watches = s.watches := rfl
@[simp] theorem State.updHall_shoots (s : State) (h : Nat) (f : Hall → Hall) : (s.updHall h f).shoots = s.shoots := rfl
@[simp] theorem State.updHall_pageOps (s : State) (h : Nat) (f : Hall → Hall) : (s.updHall h f).pageOps = s.pageOps := rfl
@[simp] theorem State.updHall_tweaks (s : State) (h : Nat) (f : Hall → Hall) : (s.updHall h f).tweaks = s.tweaks := rfl
@[simp] theorem State.updHall_sseqs (s : State) (h : Nat) (f : Hall → Hall) : (s.updHall h f).sseqs = s.sseqs := rfl
@[simp] theorem State.updHall_birsp (s : State) (h : Nat) (f : Hall → Hall) : (s.updHall h f).birsp = s.birsp := rfl
@[simp] theorem State.updHall_sectors (s : State) (h : Nat) (f : Hall → Hall) : (s.updHall h f).sectors = s.sectors := rfl
@[simp] theorem State.updHall_badLs (s : State) (h : Nat) (f : Hall → Hall) : (s.updHall h f).badLs = s.badLs := rfl
@[simp] theorem State.updHall_badHbm (s : State) (h : Nat) (f : Hall → Hall) : (s.updHall h f).badHbm = s.badHbm := rfl
@[simp] theorem State.updHall_badHall (s : State) (h : Nat) (f : Hall → Hall) : (s.updHall h f).badHall = s.badHall := rfl
@[simp] theorem State.updHall_badArray (s : State) (h : Nat) (f : Hall → Hall) : (s.updHall h f).badArray = s.badArray := rfl
@[simp] theorem State.updHall_corrected (s : State) (h : Nat) (f : Hall → Hall) : (s.updHall h f).corrected = s.corrected := rfl
@[simp] theorem State.updHall_scrub (s : State) (h : Nat) (f : Hall → Hall) : (s.updHall h f).scrub = s.scrub := rfl
@[simp] theorem State.updHall_roots (s : State) (h : Nat) (f : Hall → Hall) : (s.updHall h f).roots = s.roots := rfl
@[simp] theorem State.updHall_keys (s : State) (h : Nat) (f : Hall → Hall) : (s.updHall h f).keys = s.keys := rfl
@[simp] theorem State.updHall_keyLock (s : State) (h : Nat) (f : Hall → Hall) : (s.updHall h f).keyLock = s.keyLock := rfl
@[simp] theorem State.updHall_slots (s : State) (h : Nat) (f : Hall → Hall) : (s.updHall h f).slots = s.slots := rfl
@[simp] theorem State.updHall_regions (s : State) (h : Nat) (f : Hall → Hall) : (s.updHall h f).regions = s.regions := rfl
@[simp] theorem State.updHall_ports (s : State) (h : Nat) (f : Hall → Hall) : (s.updHall h f).ports = s.ports := rfl
@[simp] theorem State.updHall_flights (s : State) (h : Nat) (f : Hall → Hall) : (s.updHall h f).flights = s.flights := rfl
@[simp] theorem State.updHall_rings (s : State) (h : Nat) (f : Hall → Hall) : (s.updHall h f).rings = s.rings := rfl
@[simp] theorem State.updHall_ringTurn (s : State) (h : Nat) (f : Hall → Hall) : (s.updHall h f).ringTurn = s.ringTurn := rfl
@[simp] theorem State.updHall_graphs (s : State) (h : Nat) (f : Hall → Hall) : (s.updHall h f).graphs = s.graphs := rfl
@[simp] theorem State.updHall_tables (s : State) (h : Nat) (f : Hall → Hall) : (s.updHall h f).tables = s.tables := rfl
@[simp] theorem State.updHall_imageBase (s : State) (h : Nat) (f : Hall → Hall) : (s.updHall h f).imageBase = s.imageBase := rfl
@[simp] theorem State.updHall_imageBytes (s : State) (h : Nat) (f : Hall → Hall) : (s.updHall h f).imageBytes = s.imageBytes := rfl
@[simp] theorem State.updHall_pkg (s : State) (h : Nat) (f : Hall → Hall) : (s.updHall h f).pkg = s.pkg := rfl
@[simp] theorem State.updHall_torusX (s : State) (h : Nat) (f : Hall → Hall) : (s.updHall h f).torusX = s.torusX := rfl
@[simp] theorem State.updHall_torusY (s : State) (h : Nat) (f : Hall → Hall) : (s.updHall h f).torusY = s.torusY := rfl
@[simp] theorem State.updHall_mismatched (s : State) (h : Nat) (f : Hall → Hall) : (s.updHall h f).mismatched = s.mismatched := rfl
@[simp] theorem State.updHall_away (s : State) (h : Nat) (f : Hall → Hall) : (s.updHall h f).away = s.away := rfl
@[simp] theorem State.updHall_lag (s : State) (h : Nat) (f : Hall → Hall) : (s.updHall h f).lag = s.lag := rfl
@[simp] theorem State.updHall_exchanged (s : State) (h : Nat) (f : Hall → Hall) : (s.updHall h f).exchanged = s.exchanged := rfl
@[simp] theorem State.updHall_slewed (s : State) (h : Nat) (f : Hall → Hall) : (s.updHall h f).slewed = s.slewed := rfl
@[simp] theorem State.updHall_cap (s : State) (h : Nat) (f : Hall → Hall) : (s.updHall h f).cap = s.cap := rfl
@[simp] theorem State.updHall_islands (s : State) (h : Nat) (f : Hall → Hall) : (s.updHall h f).islands = s.islands := rfl
@[simp] theorem State.updHall_thermal (s : State) (h : Nat) (f : Hall → Hall) : (s.updHall h f).thermal = s.thermal := rfl
@[simp] theorem State.updHall_powerAt (s : State) (h : Nat) (f : Hall → Hall) : (s.updHall h f).powerAt = s.powerAt := rfl
@[simp] theorem State.updHall_fails (s : State) (h : Nat) (f : Hall → Hall) : (s.updHall h f).fails = s.fails := rfl
@[simp] theorem State.updHall_why (s : State) (h : Nat) (f : Hall → Hall) : (s.updHall h f).why = s.why := rfl
@[simp] theorem State.updHall_min (s : State) (h : Nat) (f : Hall → Hall) : (s.updHall h f).min = s.min := rfl
@[simp] theorem State.updHall_up (s : State) (h : Nat) (f : Hall → Hall) : (s.updHall h f).up = s.up := rfl
@[simp] theorem State.updHall_startedAt (s : State) (h : Nat) (f : Hall → Hall) : (s.updHall h f).startedAt = s.startedAt := rfl
@[simp] theorem State.updHall_firmware (s : State) (h : Nat) (f : Hall → Hall) : (s.updHall h f).firmware = s.firmware := rfl
@[simp] theorem State.updHall_staged (s : State) (h : Nat) (f : Hall → Hall) : (s.updHall h f).staged = s.staged := rfl
@[simp] theorem State.updHall_measured (s : State) (h : Nat) (f : Hall → Hall) : (s.updHall h f).measured = s.measured := rfl
@[simp] theorem State.updHall_supervisors (s : State) (h : Nat) (f : Hall → Hall) : (s.updHall h f).supervisors = s.supervisors := rfl
@[simp] theorem State.updHall_discarded (s : State) (h : Nat) (f : Hall → Hall) : (s.updHall h f).discarded = s.discarded := rfl
@[simp] theorem State.updHall_reports (s : State) (h : Nat) (f : Hall → Hall) : (s.updHall h f).reports = s.reports := rfl
@[simp] theorem State.updHall_reportsLost (s : State) (h : Nat) (f : Hall → Hall) : (s.updHall h f).reportsLost = s.reportsLost := rfl
@[simp] theorem State.updHall_msix (s : State) (h : Nat) (f : Hall → Hall) : (s.updHall h f).msix = s.msix := rfl
@[simp] theorem State.updHall_background (s : State) (h : Nat) (f : Hall → Hall) : (s.updHall h f).background = s.background := rfl
@[simp] theorem State.updHall_reply (s : State) (h : Nat) (f : Hall → Hall) : (s.updHall h f).reply = s.reply := rfl
@[simp] theorem State.updHall_spdm (s : State) (h : Nat) (f : Hall → Hall) : (s.updHall h f).spdm = s.spdm := rfl
@[simp] theorem State.updHall_jtag (s : State) (h : Nat) (f : Hall → Hall) : (s.updHall h f).jtag = s.jtag := rfl

/-! `setLine`. -/

@[simp] theorem State.setLine_cur (s : State) (l : Nat) (v : Line) : (s.setLine l v).cur = s.cur := rfl
@[simp] theorem State.setLine_ir (s : State) (l : Nat) (v : Line) : (s.setLine l v).ir = s.ir := rfl
@[simp] theorem State.setLine_nonce (s : State) (l : Nat) (v : Line) : (s.setLine l v).nonce = s.nonce := rfl
@[simp] theorem State.setLine_arg (s : State) (l : Nat) (v : Line) : (s.setLine l v).arg = s.arg := rfl
@[simp] theorem State.setLine_agenda (s : State) (l : Nat) (v : Line) : (s.setLine l v).agenda = s.agenda := rfl
@[simp] theorem State.setLine_nextId (s : State) (l : Nat) (v : Line) : (s.setLine l v).nextId = s.nextId := rfl
@[simp] theorem State.setLine_clk (s : State) (l : Nat) (v : Line) : (s.setLine l v).clk = s.clk := rfl
@[simp] theorem State.setLine_mem (s : State) (l : Nat) (v : Line) : (s.setLine l v).mem = s.mem := rfl
@[simp] theorem State.setLine_regs (s : State) (l : Nat) (v : Line) : (s.setLine l v).regs = s.regs := rfl
@[simp] theorem State.setLine_waves (s : State) (l : Nat) (v : Line) : (s.setLine l v).waves = s.waves := rfl
@[simp] theorem State.setLine_climbers (s : State) (l : Nat) (v : Line) : (s.setLine l v).climbers = s.climbers := rfl
@[simp] theorem State.setLine_cores (s : State) (l : Nat) (v : Line) : (s.setLine l v).cores = s.cores := rfl
@[simp] theorem State.setLine_halls (s : State) (l : Nat) (v : Line) : (s.setLine l v).halls = s.halls := rfl
@[simp] theorem State.setLine_groups (s : State) (l : Nat) (v : Line) : (s.setLine l v).groups = s.groups := rfl
@[simp] theorem State.setLine_launches (s : State) (l : Nat) (v : Line) : (s.setLine l v).launches = s.launches := rfl
@[simp] theorem State.setLine_saved (s : State) (l : Nat) (v : Line) : (s.setLine l v).saved = s.saved := rfl
@[simp] theorem State.setLine_accepted (s : State) (l : Nat) (v : Line) : (s.setLine l v).accepted = s.accepted := rfl
@[simp] theorem State.setLine_placements (s : State) (l : Nat) (v : Line) : (s.setLine l v).placements = s.placements := rfl
@[simp] theorem State.setLine_frames (s : State) (l : Nat) (v : Line) : (s.setLine l v).frames = s.frames := rfl
@[simp] theorem State.setLine_cbars (s : State) (l : Nat) (v : Line) : (s.setLine l v).cbars = s.cbars := rfl
@[simp] theorem State.setLine_dirs (s : State) (l : Nat) (v : Line) : (s.setLine l v).dirs = s.dirs := rfl
@[simp] theorem State.setLine_watches (s : State) (l : Nat) (v : Line) : (s.setLine l v).watches = s.watches := rfl
@[simp] theorem State.setLine_shoots (s : State) (l : Nat) (v : Line) : (s.setLine l v).shoots = s.shoots := rfl
@[simp] theorem State.setLine_pageOps (s : State) (l : Nat) (v : Line) : (s.setLine l v).pageOps = s.pageOps := rfl
@[simp] theorem State.setLine_tweaks (s : State) (l : Nat) (v : Line) : (s.setLine l v).tweaks = s.tweaks := rfl
@[simp] theorem State.setLine_sseqs (s : State) (l : Nat) (v : Line) : (s.setLine l v).sseqs = s.sseqs := rfl
@[simp] theorem State.setLine_birsp (s : State) (l : Nat) (v : Line) : (s.setLine l v).birsp = s.birsp := rfl
@[simp] theorem State.setLine_sectors (s : State) (l : Nat) (v : Line) : (s.setLine l v).sectors = s.sectors := rfl
@[simp] theorem State.setLine_badLs (s : State) (l : Nat) (v : Line) : (s.setLine l v).badLs = s.badLs := rfl
@[simp] theorem State.setLine_badHbm (s : State) (l : Nat) (v : Line) : (s.setLine l v).badHbm = s.badHbm := rfl
@[simp] theorem State.setLine_badHall (s : State) (l : Nat) (v : Line) : (s.setLine l v).badHall = s.badHall := rfl
@[simp] theorem State.setLine_badArray (s : State) (l : Nat) (v : Line) : (s.setLine l v).badArray = s.badArray := rfl
@[simp] theorem State.setLine_corrected (s : State) (l : Nat) (v : Line) : (s.setLine l v).corrected = s.corrected := rfl
@[simp] theorem State.setLine_scrub (s : State) (l : Nat) (v : Line) : (s.setLine l v).scrub = s.scrub := rfl
@[simp] theorem State.setLine_roots (s : State) (l : Nat) (v : Line) : (s.setLine l v).roots = s.roots := rfl
@[simp] theorem State.setLine_keys (s : State) (l : Nat) (v : Line) : (s.setLine l v).keys = s.keys := rfl
@[simp] theorem State.setLine_keyLock (s : State) (l : Nat) (v : Line) : (s.setLine l v).keyLock = s.keyLock := rfl
@[simp] theorem State.setLine_slots (s : State) (l : Nat) (v : Line) : (s.setLine l v).slots = s.slots := rfl
@[simp] theorem State.setLine_regions (s : State) (l : Nat) (v : Line) : (s.setLine l v).regions = s.regions := rfl
@[simp] theorem State.setLine_ports (s : State) (l : Nat) (v : Line) : (s.setLine l v).ports = s.ports := rfl
@[simp] theorem State.setLine_flights (s : State) (l : Nat) (v : Line) : (s.setLine l v).flights = s.flights := rfl
@[simp] theorem State.setLine_rings (s : State) (l : Nat) (v : Line) : (s.setLine l v).rings = s.rings := rfl
@[simp] theorem State.setLine_ringTurn (s : State) (l : Nat) (v : Line) : (s.setLine l v).ringTurn = s.ringTurn := rfl
@[simp] theorem State.setLine_graphs (s : State) (l : Nat) (v : Line) : (s.setLine l v).graphs = s.graphs := rfl
@[simp] theorem State.setLine_tables (s : State) (l : Nat) (v : Line) : (s.setLine l v).tables = s.tables := rfl
@[simp] theorem State.setLine_imageBase (s : State) (l : Nat) (v : Line) : (s.setLine l v).imageBase = s.imageBase := rfl
@[simp] theorem State.setLine_imageBytes (s : State) (l : Nat) (v : Line) : (s.setLine l v).imageBytes = s.imageBytes := rfl
@[simp] theorem State.setLine_pkg (s : State) (l : Nat) (v : Line) : (s.setLine l v).pkg = s.pkg := rfl
@[simp] theorem State.setLine_torusX (s : State) (l : Nat) (v : Line) : (s.setLine l v).torusX = s.torusX := rfl
@[simp] theorem State.setLine_torusY (s : State) (l : Nat) (v : Line) : (s.setLine l v).torusY = s.torusY := rfl
@[simp] theorem State.setLine_mismatched (s : State) (l : Nat) (v : Line) : (s.setLine l v).mismatched = s.mismatched := rfl
@[simp] theorem State.setLine_away (s : State) (l : Nat) (v : Line) : (s.setLine l v).away = s.away := rfl
@[simp] theorem State.setLine_lag (s : State) (l : Nat) (v : Line) : (s.setLine l v).lag = s.lag := rfl
@[simp] theorem State.setLine_exchanged (s : State) (l : Nat) (v : Line) : (s.setLine l v).exchanged = s.exchanged := rfl
@[simp] theorem State.setLine_slewed (s : State) (l : Nat) (v : Line) : (s.setLine l v).slewed = s.slewed := rfl
@[simp] theorem State.setLine_cap (s : State) (l : Nat) (v : Line) : (s.setLine l v).cap = s.cap := rfl
@[simp] theorem State.setLine_islands (s : State) (l : Nat) (v : Line) : (s.setLine l v).islands = s.islands := rfl
@[simp] theorem State.setLine_thermal (s : State) (l : Nat) (v : Line) : (s.setLine l v).thermal = s.thermal := rfl
@[simp] theorem State.setLine_powerAt (s : State) (l : Nat) (v : Line) : (s.setLine l v).powerAt = s.powerAt := rfl
@[simp] theorem State.setLine_fails (s : State) (l : Nat) (v : Line) : (s.setLine l v).fails = s.fails := rfl
@[simp] theorem State.setLine_why (s : State) (l : Nat) (v : Line) : (s.setLine l v).why = s.why := rfl
@[simp] theorem State.setLine_min (s : State) (l : Nat) (v : Line) : (s.setLine l v).min = s.min := rfl
@[simp] theorem State.setLine_up (s : State) (l : Nat) (v : Line) : (s.setLine l v).up = s.up := rfl
@[simp] theorem State.setLine_startedAt (s : State) (l : Nat) (v : Line) : (s.setLine l v).startedAt = s.startedAt := rfl
@[simp] theorem State.setLine_firmware (s : State) (l : Nat) (v : Line) : (s.setLine l v).firmware = s.firmware := rfl
@[simp] theorem State.setLine_staged (s : State) (l : Nat) (v : Line) : (s.setLine l v).staged = s.staged := rfl
@[simp] theorem State.setLine_measured (s : State) (l : Nat) (v : Line) : (s.setLine l v).measured = s.measured := rfl
@[simp] theorem State.setLine_supervisors (s : State) (l : Nat) (v : Line) : (s.setLine l v).supervisors = s.supervisors := rfl
@[simp] theorem State.setLine_discarded (s : State) (l : Nat) (v : Line) : (s.setLine l v).discarded = s.discarded := rfl
@[simp] theorem State.setLine_reports (s : State) (l : Nat) (v : Line) : (s.setLine l v).reports = s.reports := rfl
@[simp] theorem State.setLine_reportsLost (s : State) (l : Nat) (v : Line) : (s.setLine l v).reportsLost = s.reportsLost := rfl
@[simp] theorem State.setLine_msix (s : State) (l : Nat) (v : Line) : (s.setLine l v).msix = s.msix := rfl
@[simp] theorem State.setLine_background (s : State) (l : Nat) (v : Line) : (s.setLine l v).background = s.background := rfl
@[simp] theorem State.setLine_reply (s : State) (l : Nat) (v : Line) : (s.setLine l v).reply = s.reply := rfl
@[simp] theorem State.setLine_spdm (s : State) (l : Nat) (v : Line) : (s.setLine l v).spdm = s.spdm := rfl
@[simp] theorem State.setLine_jtag (s : State) (l : Nat) (v : Line) : (s.setLine l v).jtag = s.jtag := rfl

/-! `updLine`. -/

@[simp] theorem State.updLine_cur (s : State) (l : Nat) (f : Line → Line) : (s.updLine l f).cur = s.cur := rfl
@[simp] theorem State.updLine_ir (s : State) (l : Nat) (f : Line → Line) : (s.updLine l f).ir = s.ir := rfl
@[simp] theorem State.updLine_nonce (s : State) (l : Nat) (f : Line → Line) : (s.updLine l f).nonce = s.nonce := rfl
@[simp] theorem State.updLine_arg (s : State) (l : Nat) (f : Line → Line) : (s.updLine l f).arg = s.arg := rfl
@[simp] theorem State.updLine_agenda (s : State) (l : Nat) (f : Line → Line) : (s.updLine l f).agenda = s.agenda := rfl
@[simp] theorem State.updLine_nextId (s : State) (l : Nat) (f : Line → Line) : (s.updLine l f).nextId = s.nextId := rfl
@[simp] theorem State.updLine_clk (s : State) (l : Nat) (f : Line → Line) : (s.updLine l f).clk = s.clk := rfl
@[simp] theorem State.updLine_mem (s : State) (l : Nat) (f : Line → Line) : (s.updLine l f).mem = s.mem := rfl
@[simp] theorem State.updLine_regs (s : State) (l : Nat) (f : Line → Line) : (s.updLine l f).regs = s.regs := rfl
@[simp] theorem State.updLine_waves (s : State) (l : Nat) (f : Line → Line) : (s.updLine l f).waves = s.waves := rfl
@[simp] theorem State.updLine_climbers (s : State) (l : Nat) (f : Line → Line) : (s.updLine l f).climbers = s.climbers := rfl
@[simp] theorem State.updLine_cores (s : State) (l : Nat) (f : Line → Line) : (s.updLine l f).cores = s.cores := rfl
@[simp] theorem State.updLine_halls (s : State) (l : Nat) (f : Line → Line) : (s.updLine l f).halls = s.halls := rfl
@[simp] theorem State.updLine_groups (s : State) (l : Nat) (f : Line → Line) : (s.updLine l f).groups = s.groups := rfl
@[simp] theorem State.updLine_launches (s : State) (l : Nat) (f : Line → Line) : (s.updLine l f).launches = s.launches := rfl
@[simp] theorem State.updLine_saved (s : State) (l : Nat) (f : Line → Line) : (s.updLine l f).saved = s.saved := rfl
@[simp] theorem State.updLine_accepted (s : State) (l : Nat) (f : Line → Line) : (s.updLine l f).accepted = s.accepted := rfl
@[simp] theorem State.updLine_placements (s : State) (l : Nat) (f : Line → Line) : (s.updLine l f).placements = s.placements := rfl
@[simp] theorem State.updLine_frames (s : State) (l : Nat) (f : Line → Line) : (s.updLine l f).frames = s.frames := rfl
@[simp] theorem State.updLine_cbars (s : State) (l : Nat) (f : Line → Line) : (s.updLine l f).cbars = s.cbars := rfl
@[simp] theorem State.updLine_dirs (s : State) (l : Nat) (f : Line → Line) : (s.updLine l f).dirs = s.dirs := rfl
@[simp] theorem State.updLine_watches (s : State) (l : Nat) (f : Line → Line) : (s.updLine l f).watches = s.watches := rfl
@[simp] theorem State.updLine_shoots (s : State) (l : Nat) (f : Line → Line) : (s.updLine l f).shoots = s.shoots := rfl
@[simp] theorem State.updLine_pageOps (s : State) (l : Nat) (f : Line → Line) : (s.updLine l f).pageOps = s.pageOps := rfl
@[simp] theorem State.updLine_tweaks (s : State) (l : Nat) (f : Line → Line) : (s.updLine l f).tweaks = s.tweaks := rfl
@[simp] theorem State.updLine_sseqs (s : State) (l : Nat) (f : Line → Line) : (s.updLine l f).sseqs = s.sseqs := rfl
@[simp] theorem State.updLine_birsp (s : State) (l : Nat) (f : Line → Line) : (s.updLine l f).birsp = s.birsp := rfl
@[simp] theorem State.updLine_sectors (s : State) (l : Nat) (f : Line → Line) : (s.updLine l f).sectors = s.sectors := rfl
@[simp] theorem State.updLine_badLs (s : State) (l : Nat) (f : Line → Line) : (s.updLine l f).badLs = s.badLs := rfl
@[simp] theorem State.updLine_badHbm (s : State) (l : Nat) (f : Line → Line) : (s.updLine l f).badHbm = s.badHbm := rfl
@[simp] theorem State.updLine_badHall (s : State) (l : Nat) (f : Line → Line) : (s.updLine l f).badHall = s.badHall := rfl
@[simp] theorem State.updLine_badArray (s : State) (l : Nat) (f : Line → Line) : (s.updLine l f).badArray = s.badArray := rfl
@[simp] theorem State.updLine_corrected (s : State) (l : Nat) (f : Line → Line) : (s.updLine l f).corrected = s.corrected := rfl
@[simp] theorem State.updLine_scrub (s : State) (l : Nat) (f : Line → Line) : (s.updLine l f).scrub = s.scrub := rfl
@[simp] theorem State.updLine_roots (s : State) (l : Nat) (f : Line → Line) : (s.updLine l f).roots = s.roots := rfl
@[simp] theorem State.updLine_keys (s : State) (l : Nat) (f : Line → Line) : (s.updLine l f).keys = s.keys := rfl
@[simp] theorem State.updLine_keyLock (s : State) (l : Nat) (f : Line → Line) : (s.updLine l f).keyLock = s.keyLock := rfl
@[simp] theorem State.updLine_slots (s : State) (l : Nat) (f : Line → Line) : (s.updLine l f).slots = s.slots := rfl
@[simp] theorem State.updLine_regions (s : State) (l : Nat) (f : Line → Line) : (s.updLine l f).regions = s.regions := rfl
@[simp] theorem State.updLine_ports (s : State) (l : Nat) (f : Line → Line) : (s.updLine l f).ports = s.ports := rfl
@[simp] theorem State.updLine_flights (s : State) (l : Nat) (f : Line → Line) : (s.updLine l f).flights = s.flights := rfl
@[simp] theorem State.updLine_rings (s : State) (l : Nat) (f : Line → Line) : (s.updLine l f).rings = s.rings := rfl
@[simp] theorem State.updLine_ringTurn (s : State) (l : Nat) (f : Line → Line) : (s.updLine l f).ringTurn = s.ringTurn := rfl
@[simp] theorem State.updLine_graphs (s : State) (l : Nat) (f : Line → Line) : (s.updLine l f).graphs = s.graphs := rfl
@[simp] theorem State.updLine_tables (s : State) (l : Nat) (f : Line → Line) : (s.updLine l f).tables = s.tables := rfl
@[simp] theorem State.updLine_imageBase (s : State) (l : Nat) (f : Line → Line) : (s.updLine l f).imageBase = s.imageBase := rfl
@[simp] theorem State.updLine_imageBytes (s : State) (l : Nat) (f : Line → Line) : (s.updLine l f).imageBytes = s.imageBytes := rfl
@[simp] theorem State.updLine_pkg (s : State) (l : Nat) (f : Line → Line) : (s.updLine l f).pkg = s.pkg := rfl
@[simp] theorem State.updLine_torusX (s : State) (l : Nat) (f : Line → Line) : (s.updLine l f).torusX = s.torusX := rfl
@[simp] theorem State.updLine_torusY (s : State) (l : Nat) (f : Line → Line) : (s.updLine l f).torusY = s.torusY := rfl
@[simp] theorem State.updLine_mismatched (s : State) (l : Nat) (f : Line → Line) : (s.updLine l f).mismatched = s.mismatched := rfl
@[simp] theorem State.updLine_away (s : State) (l : Nat) (f : Line → Line) : (s.updLine l f).away = s.away := rfl
@[simp] theorem State.updLine_lag (s : State) (l : Nat) (f : Line → Line) : (s.updLine l f).lag = s.lag := rfl
@[simp] theorem State.updLine_exchanged (s : State) (l : Nat) (f : Line → Line) : (s.updLine l f).exchanged = s.exchanged := rfl
@[simp] theorem State.updLine_slewed (s : State) (l : Nat) (f : Line → Line) : (s.updLine l f).slewed = s.slewed := rfl
@[simp] theorem State.updLine_cap (s : State) (l : Nat) (f : Line → Line) : (s.updLine l f).cap = s.cap := rfl
@[simp] theorem State.updLine_islands (s : State) (l : Nat) (f : Line → Line) : (s.updLine l f).islands = s.islands := rfl
@[simp] theorem State.updLine_thermal (s : State) (l : Nat) (f : Line → Line) : (s.updLine l f).thermal = s.thermal := rfl
@[simp] theorem State.updLine_powerAt (s : State) (l : Nat) (f : Line → Line) : (s.updLine l f).powerAt = s.powerAt := rfl
@[simp] theorem State.updLine_fails (s : State) (l : Nat) (f : Line → Line) : (s.updLine l f).fails = s.fails := rfl
@[simp] theorem State.updLine_why (s : State) (l : Nat) (f : Line → Line) : (s.updLine l f).why = s.why := rfl
@[simp] theorem State.updLine_min (s : State) (l : Nat) (f : Line → Line) : (s.updLine l f).min = s.min := rfl
@[simp] theorem State.updLine_up (s : State) (l : Nat) (f : Line → Line) : (s.updLine l f).up = s.up := rfl
@[simp] theorem State.updLine_startedAt (s : State) (l : Nat) (f : Line → Line) : (s.updLine l f).startedAt = s.startedAt := rfl
@[simp] theorem State.updLine_firmware (s : State) (l : Nat) (f : Line → Line) : (s.updLine l f).firmware = s.firmware := rfl
@[simp] theorem State.updLine_staged (s : State) (l : Nat) (f : Line → Line) : (s.updLine l f).staged = s.staged := rfl
@[simp] theorem State.updLine_measured (s : State) (l : Nat) (f : Line → Line) : (s.updLine l f).measured = s.measured := rfl
@[simp] theorem State.updLine_supervisors (s : State) (l : Nat) (f : Line → Line) : (s.updLine l f).supervisors = s.supervisors := rfl
@[simp] theorem State.updLine_discarded (s : State) (l : Nat) (f : Line → Line) : (s.updLine l f).discarded = s.discarded := rfl
@[simp] theorem State.updLine_reports (s : State) (l : Nat) (f : Line → Line) : (s.updLine l f).reports = s.reports := rfl
@[simp] theorem State.updLine_reportsLost (s : State) (l : Nat) (f : Line → Line) : (s.updLine l f).reportsLost = s.reportsLost := rfl
@[simp] theorem State.updLine_msix (s : State) (l : Nat) (f : Line → Line) : (s.updLine l f).msix = s.msix := rfl
@[simp] theorem State.updLine_background (s : State) (l : Nat) (f : Line → Line) : (s.updLine l f).background = s.background := rfl
@[simp] theorem State.updLine_reply (s : State) (l : Nat) (f : Line → Line) : (s.updLine l f).reply = s.reply := rfl
@[simp] theorem State.updLine_spdm (s : State) (l : Nat) (f : Line → Line) : (s.updLine l f).spdm = s.spdm := rfl
@[simp] theorem State.updLine_jtag (s : State) (l : Nat) (f : Line → Line) : (s.updLine l f).jtag = s.jtag := rfl

/-! `updGroup`. -/

@[simp] theorem State.updGroup_cur (s : State) (g : Nat) (f : Group → Group) : (s.updGroup g f).cur = s.cur := rfl
@[simp] theorem State.updGroup_ir (s : State) (g : Nat) (f : Group → Group) : (s.updGroup g f).ir = s.ir := rfl
@[simp] theorem State.updGroup_nonce (s : State) (g : Nat) (f : Group → Group) : (s.updGroup g f).nonce = s.nonce := rfl
@[simp] theorem State.updGroup_arg (s : State) (g : Nat) (f : Group → Group) : (s.updGroup g f).arg = s.arg := rfl
@[simp] theorem State.updGroup_agenda (s : State) (g : Nat) (f : Group → Group) : (s.updGroup g f).agenda = s.agenda := rfl
@[simp] theorem State.updGroup_nextId (s : State) (g : Nat) (f : Group → Group) : (s.updGroup g f).nextId = s.nextId := rfl
@[simp] theorem State.updGroup_clk (s : State) (g : Nat) (f : Group → Group) : (s.updGroup g f).clk = s.clk := rfl
@[simp] theorem State.updGroup_mem (s : State) (g : Nat) (f : Group → Group) : (s.updGroup g f).mem = s.mem := rfl
@[simp] theorem State.updGroup_regs (s : State) (g : Nat) (f : Group → Group) : (s.updGroup g f).regs = s.regs := rfl
@[simp] theorem State.updGroup_waves (s : State) (g : Nat) (f : Group → Group) : (s.updGroup g f).waves = s.waves := rfl
@[simp] theorem State.updGroup_climbers (s : State) (g : Nat) (f : Group → Group) : (s.updGroup g f).climbers = s.climbers := rfl
@[simp] theorem State.updGroup_cores (s : State) (g : Nat) (f : Group → Group) : (s.updGroup g f).cores = s.cores := rfl
@[simp] theorem State.updGroup_halls (s : State) (g : Nat) (f : Group → Group) : (s.updGroup g f).halls = s.halls := rfl
@[simp] theorem State.updGroup_launches (s : State) (g : Nat) (f : Group → Group) : (s.updGroup g f).launches = s.launches := rfl
@[simp] theorem State.updGroup_saved (s : State) (g : Nat) (f : Group → Group) : (s.updGroup g f).saved = s.saved := rfl
@[simp] theorem State.updGroup_accepted (s : State) (g : Nat) (f : Group → Group) : (s.updGroup g f).accepted = s.accepted := rfl
@[simp] theorem State.updGroup_placements (s : State) (g : Nat) (f : Group → Group) : (s.updGroup g f).placements = s.placements := rfl
@[simp] theorem State.updGroup_frames (s : State) (g : Nat) (f : Group → Group) : (s.updGroup g f).frames = s.frames := rfl
@[simp] theorem State.updGroup_cbars (s : State) (g : Nat) (f : Group → Group) : (s.updGroup g f).cbars = s.cbars := rfl
@[simp] theorem State.updGroup_lines (s : State) (g : Nat) (f : Group → Group) : (s.updGroup g f).lines = s.lines := rfl
@[simp] theorem State.updGroup_dirs (s : State) (g : Nat) (f : Group → Group) : (s.updGroup g f).dirs = s.dirs := rfl
@[simp] theorem State.updGroup_watches (s : State) (g : Nat) (f : Group → Group) : (s.updGroup g f).watches = s.watches := rfl
@[simp] theorem State.updGroup_shoots (s : State) (g : Nat) (f : Group → Group) : (s.updGroup g f).shoots = s.shoots := rfl
@[simp] theorem State.updGroup_pageOps (s : State) (g : Nat) (f : Group → Group) : (s.updGroup g f).pageOps = s.pageOps := rfl
@[simp] theorem State.updGroup_tweaks (s : State) (g : Nat) (f : Group → Group) : (s.updGroup g f).tweaks = s.tweaks := rfl
@[simp] theorem State.updGroup_sseqs (s : State) (g : Nat) (f : Group → Group) : (s.updGroup g f).sseqs = s.sseqs := rfl
@[simp] theorem State.updGroup_birsp (s : State) (g : Nat) (f : Group → Group) : (s.updGroup g f).birsp = s.birsp := rfl
@[simp] theorem State.updGroup_sectors (s : State) (g : Nat) (f : Group → Group) : (s.updGroup g f).sectors = s.sectors := rfl
@[simp] theorem State.updGroup_badLs (s : State) (g : Nat) (f : Group → Group) : (s.updGroup g f).badLs = s.badLs := rfl
@[simp] theorem State.updGroup_badHbm (s : State) (g : Nat) (f : Group → Group) : (s.updGroup g f).badHbm = s.badHbm := rfl
@[simp] theorem State.updGroup_badHall (s : State) (g : Nat) (f : Group → Group) : (s.updGroup g f).badHall = s.badHall := rfl
@[simp] theorem State.updGroup_badArray (s : State) (g : Nat) (f : Group → Group) : (s.updGroup g f).badArray = s.badArray := rfl
@[simp] theorem State.updGroup_corrected (s : State) (g : Nat) (f : Group → Group) : (s.updGroup g f).corrected = s.corrected := rfl
@[simp] theorem State.updGroup_scrub (s : State) (g : Nat) (f : Group → Group) : (s.updGroup g f).scrub = s.scrub := rfl
@[simp] theorem State.updGroup_roots (s : State) (g : Nat) (f : Group → Group) : (s.updGroup g f).roots = s.roots := rfl
@[simp] theorem State.updGroup_keys (s : State) (g : Nat) (f : Group → Group) : (s.updGroup g f).keys = s.keys := rfl
@[simp] theorem State.updGroup_keyLock (s : State) (g : Nat) (f : Group → Group) : (s.updGroup g f).keyLock = s.keyLock := rfl
@[simp] theorem State.updGroup_slots (s : State) (g : Nat) (f : Group → Group) : (s.updGroup g f).slots = s.slots := rfl
@[simp] theorem State.updGroup_regions (s : State) (g : Nat) (f : Group → Group) : (s.updGroup g f).regions = s.regions := rfl
@[simp] theorem State.updGroup_ports (s : State) (g : Nat) (f : Group → Group) : (s.updGroup g f).ports = s.ports := rfl
@[simp] theorem State.updGroup_flights (s : State) (g : Nat) (f : Group → Group) : (s.updGroup g f).flights = s.flights := rfl
@[simp] theorem State.updGroup_rings (s : State) (g : Nat) (f : Group → Group) : (s.updGroup g f).rings = s.rings := rfl
@[simp] theorem State.updGroup_ringTurn (s : State) (g : Nat) (f : Group → Group) : (s.updGroup g f).ringTurn = s.ringTurn := rfl
@[simp] theorem State.updGroup_graphs (s : State) (g : Nat) (f : Group → Group) : (s.updGroup g f).graphs = s.graphs := rfl
@[simp] theorem State.updGroup_tables (s : State) (g : Nat) (f : Group → Group) : (s.updGroup g f).tables = s.tables := rfl
@[simp] theorem State.updGroup_imageBase (s : State) (g : Nat) (f : Group → Group) : (s.updGroup g f).imageBase = s.imageBase := rfl
@[simp] theorem State.updGroup_imageBytes (s : State) (g : Nat) (f : Group → Group) : (s.updGroup g f).imageBytes = s.imageBytes := rfl
@[simp] theorem State.updGroup_pkg (s : State) (g : Nat) (f : Group → Group) : (s.updGroup g f).pkg = s.pkg := rfl
@[simp] theorem State.updGroup_torusX (s : State) (g : Nat) (f : Group → Group) : (s.updGroup g f).torusX = s.torusX := rfl
@[simp] theorem State.updGroup_torusY (s : State) (g : Nat) (f : Group → Group) : (s.updGroup g f).torusY = s.torusY := rfl
@[simp] theorem State.updGroup_mismatched (s : State) (g : Nat) (f : Group → Group) : (s.updGroup g f).mismatched = s.mismatched := rfl
@[simp] theorem State.updGroup_away (s : State) (g : Nat) (f : Group → Group) : (s.updGroup g f).away = s.away := rfl
@[simp] theorem State.updGroup_lag (s : State) (g : Nat) (f : Group → Group) : (s.updGroup g f).lag = s.lag := rfl
@[simp] theorem State.updGroup_exchanged (s : State) (g : Nat) (f : Group → Group) : (s.updGroup g f).exchanged = s.exchanged := rfl
@[simp] theorem State.updGroup_slewed (s : State) (g : Nat) (f : Group → Group) : (s.updGroup g f).slewed = s.slewed := rfl
@[simp] theorem State.updGroup_cap (s : State) (g : Nat) (f : Group → Group) : (s.updGroup g f).cap = s.cap := rfl
@[simp] theorem State.updGroup_islands (s : State) (g : Nat) (f : Group → Group) : (s.updGroup g f).islands = s.islands := rfl
@[simp] theorem State.updGroup_thermal (s : State) (g : Nat) (f : Group → Group) : (s.updGroup g f).thermal = s.thermal := rfl
@[simp] theorem State.updGroup_powerAt (s : State) (g : Nat) (f : Group → Group) : (s.updGroup g f).powerAt = s.powerAt := rfl
@[simp] theorem State.updGroup_fails (s : State) (g : Nat) (f : Group → Group) : (s.updGroup g f).fails = s.fails := rfl
@[simp] theorem State.updGroup_why (s : State) (g : Nat) (f : Group → Group) : (s.updGroup g f).why = s.why := rfl
@[simp] theorem State.updGroup_min (s : State) (g : Nat) (f : Group → Group) : (s.updGroup g f).min = s.min := rfl
@[simp] theorem State.updGroup_up (s : State) (g : Nat) (f : Group → Group) : (s.updGroup g f).up = s.up := rfl
@[simp] theorem State.updGroup_startedAt (s : State) (g : Nat) (f : Group → Group) : (s.updGroup g f).startedAt = s.startedAt := rfl
@[simp] theorem State.updGroup_firmware (s : State) (g : Nat) (f : Group → Group) : (s.updGroup g f).firmware = s.firmware := rfl
@[simp] theorem State.updGroup_staged (s : State) (g : Nat) (f : Group → Group) : (s.updGroup g f).staged = s.staged := rfl
@[simp] theorem State.updGroup_measured (s : State) (g : Nat) (f : Group → Group) : (s.updGroup g f).measured = s.measured := rfl
@[simp] theorem State.updGroup_supervisors (s : State) (g : Nat) (f : Group → Group) : (s.updGroup g f).supervisors = s.supervisors := rfl
@[simp] theorem State.updGroup_discarded (s : State) (g : Nat) (f : Group → Group) : (s.updGroup g f).discarded = s.discarded := rfl
@[simp] theorem State.updGroup_reports (s : State) (g : Nat) (f : Group → Group) : (s.updGroup g f).reports = s.reports := rfl
@[simp] theorem State.updGroup_reportsLost (s : State) (g : Nat) (f : Group → Group) : (s.updGroup g f).reportsLost = s.reportsLost := rfl
@[simp] theorem State.updGroup_msix (s : State) (g : Nat) (f : Group → Group) : (s.updGroup g f).msix = s.msix := rfl
@[simp] theorem State.updGroup_background (s : State) (g : Nat) (f : Group → Group) : (s.updGroup g f).background = s.background := rfl
@[simp] theorem State.updGroup_reply (s : State) (g : Nat) (f : Group → Group) : (s.updGroup g f).reply = s.reply := rfl
@[simp] theorem State.updGroup_spdm (s : State) (g : Nat) (f : Group → Group) : (s.updGroup g f).spdm = s.spdm := rfl
@[simp] theorem State.updGroup_jtag (s : State) (g : Nat) (f : Group → Group) : (s.updGroup g f).jtag = s.jtag := rfl

/-! `updLaunch`. -/

@[simp] theorem State.updLaunch_cur (s : State) (l : Nat) (f : Launch → Launch) : (s.updLaunch l f).cur = s.cur := rfl
@[simp] theorem State.updLaunch_ir (s : State) (l : Nat) (f : Launch → Launch) : (s.updLaunch l f).ir = s.ir := rfl
@[simp] theorem State.updLaunch_nonce (s : State) (l : Nat) (f : Launch → Launch) : (s.updLaunch l f).nonce = s.nonce := rfl
@[simp] theorem State.updLaunch_arg (s : State) (l : Nat) (f : Launch → Launch) : (s.updLaunch l f).arg = s.arg := rfl
@[simp] theorem State.updLaunch_agenda (s : State) (l : Nat) (f : Launch → Launch) : (s.updLaunch l f).agenda = s.agenda := rfl
@[simp] theorem State.updLaunch_nextId (s : State) (l : Nat) (f : Launch → Launch) : (s.updLaunch l f).nextId = s.nextId := rfl
@[simp] theorem State.updLaunch_clk (s : State) (l : Nat) (f : Launch → Launch) : (s.updLaunch l f).clk = s.clk := rfl
@[simp] theorem State.updLaunch_mem (s : State) (l : Nat) (f : Launch → Launch) : (s.updLaunch l f).mem = s.mem := rfl
@[simp] theorem State.updLaunch_regs (s : State) (l : Nat) (f : Launch → Launch) : (s.updLaunch l f).regs = s.regs := rfl
@[simp] theorem State.updLaunch_waves (s : State) (l : Nat) (f : Launch → Launch) : (s.updLaunch l f).waves = s.waves := rfl
@[simp] theorem State.updLaunch_climbers (s : State) (l : Nat) (f : Launch → Launch) : (s.updLaunch l f).climbers = s.climbers := rfl
@[simp] theorem State.updLaunch_cores (s : State) (l : Nat) (f : Launch → Launch) : (s.updLaunch l f).cores = s.cores := rfl
@[simp] theorem State.updLaunch_halls (s : State) (l : Nat) (f : Launch → Launch) : (s.updLaunch l f).halls = s.halls := rfl
@[simp] theorem State.updLaunch_groups (s : State) (l : Nat) (f : Launch → Launch) : (s.updLaunch l f).groups = s.groups := rfl
@[simp] theorem State.updLaunch_saved (s : State) (l : Nat) (f : Launch → Launch) : (s.updLaunch l f).saved = s.saved := rfl
@[simp] theorem State.updLaunch_accepted (s : State) (l : Nat) (f : Launch → Launch) : (s.updLaunch l f).accepted = s.accepted := rfl
@[simp] theorem State.updLaunch_placements (s : State) (l : Nat) (f : Launch → Launch) : (s.updLaunch l f).placements = s.placements := rfl
@[simp] theorem State.updLaunch_frames (s : State) (l : Nat) (f : Launch → Launch) : (s.updLaunch l f).frames = s.frames := rfl
@[simp] theorem State.updLaunch_cbars (s : State) (l : Nat) (f : Launch → Launch) : (s.updLaunch l f).cbars = s.cbars := rfl
@[simp] theorem State.updLaunch_lines (s : State) (l : Nat) (f : Launch → Launch) : (s.updLaunch l f).lines = s.lines := rfl
@[simp] theorem State.updLaunch_dirs (s : State) (l : Nat) (f : Launch → Launch) : (s.updLaunch l f).dirs = s.dirs := rfl
@[simp] theorem State.updLaunch_watches (s : State) (l : Nat) (f : Launch → Launch) : (s.updLaunch l f).watches = s.watches := rfl
@[simp] theorem State.updLaunch_shoots (s : State) (l : Nat) (f : Launch → Launch) : (s.updLaunch l f).shoots = s.shoots := rfl
@[simp] theorem State.updLaunch_pageOps (s : State) (l : Nat) (f : Launch → Launch) : (s.updLaunch l f).pageOps = s.pageOps := rfl
@[simp] theorem State.updLaunch_tweaks (s : State) (l : Nat) (f : Launch → Launch) : (s.updLaunch l f).tweaks = s.tweaks := rfl
@[simp] theorem State.updLaunch_sseqs (s : State) (l : Nat) (f : Launch → Launch) : (s.updLaunch l f).sseqs = s.sseqs := rfl
@[simp] theorem State.updLaunch_birsp (s : State) (l : Nat) (f : Launch → Launch) : (s.updLaunch l f).birsp = s.birsp := rfl
@[simp] theorem State.updLaunch_sectors (s : State) (l : Nat) (f : Launch → Launch) : (s.updLaunch l f).sectors = s.sectors := rfl
@[simp] theorem State.updLaunch_badLs (s : State) (l : Nat) (f : Launch → Launch) : (s.updLaunch l f).badLs = s.badLs := rfl
@[simp] theorem State.updLaunch_badHbm (s : State) (l : Nat) (f : Launch → Launch) : (s.updLaunch l f).badHbm = s.badHbm := rfl
@[simp] theorem State.updLaunch_badHall (s : State) (l : Nat) (f : Launch → Launch) : (s.updLaunch l f).badHall = s.badHall := rfl
@[simp] theorem State.updLaunch_badArray (s : State) (l : Nat) (f : Launch → Launch) : (s.updLaunch l f).badArray = s.badArray := rfl
@[simp] theorem State.updLaunch_corrected (s : State) (l : Nat) (f : Launch → Launch) : (s.updLaunch l f).corrected = s.corrected := rfl
@[simp] theorem State.updLaunch_scrub (s : State) (l : Nat) (f : Launch → Launch) : (s.updLaunch l f).scrub = s.scrub := rfl
@[simp] theorem State.updLaunch_roots (s : State) (l : Nat) (f : Launch → Launch) : (s.updLaunch l f).roots = s.roots := rfl
@[simp] theorem State.updLaunch_keys (s : State) (l : Nat) (f : Launch → Launch) : (s.updLaunch l f).keys = s.keys := rfl
@[simp] theorem State.updLaunch_keyLock (s : State) (l : Nat) (f : Launch → Launch) : (s.updLaunch l f).keyLock = s.keyLock := rfl
@[simp] theorem State.updLaunch_slots (s : State) (l : Nat) (f : Launch → Launch) : (s.updLaunch l f).slots = s.slots := rfl
@[simp] theorem State.updLaunch_regions (s : State) (l : Nat) (f : Launch → Launch) : (s.updLaunch l f).regions = s.regions := rfl
@[simp] theorem State.updLaunch_ports (s : State) (l : Nat) (f : Launch → Launch) : (s.updLaunch l f).ports = s.ports := rfl
@[simp] theorem State.updLaunch_flights (s : State) (l : Nat) (f : Launch → Launch) : (s.updLaunch l f).flights = s.flights := rfl
@[simp] theorem State.updLaunch_rings (s : State) (l : Nat) (f : Launch → Launch) : (s.updLaunch l f).rings = s.rings := rfl
@[simp] theorem State.updLaunch_ringTurn (s : State) (l : Nat) (f : Launch → Launch) : (s.updLaunch l f).ringTurn = s.ringTurn := rfl
@[simp] theorem State.updLaunch_graphs (s : State) (l : Nat) (f : Launch → Launch) : (s.updLaunch l f).graphs = s.graphs := rfl
@[simp] theorem State.updLaunch_tables (s : State) (l : Nat) (f : Launch → Launch) : (s.updLaunch l f).tables = s.tables := rfl
@[simp] theorem State.updLaunch_imageBase (s : State) (l : Nat) (f : Launch → Launch) : (s.updLaunch l f).imageBase = s.imageBase := rfl
@[simp] theorem State.updLaunch_imageBytes (s : State) (l : Nat) (f : Launch → Launch) : (s.updLaunch l f).imageBytes = s.imageBytes := rfl
@[simp] theorem State.updLaunch_pkg (s : State) (l : Nat) (f : Launch → Launch) : (s.updLaunch l f).pkg = s.pkg := rfl
@[simp] theorem State.updLaunch_torusX (s : State) (l : Nat) (f : Launch → Launch) : (s.updLaunch l f).torusX = s.torusX := rfl
@[simp] theorem State.updLaunch_torusY (s : State) (l : Nat) (f : Launch → Launch) : (s.updLaunch l f).torusY = s.torusY := rfl
@[simp] theorem State.updLaunch_mismatched (s : State) (l : Nat) (f : Launch → Launch) : (s.updLaunch l f).mismatched = s.mismatched := rfl
@[simp] theorem State.updLaunch_away (s : State) (l : Nat) (f : Launch → Launch) : (s.updLaunch l f).away = s.away := rfl
@[simp] theorem State.updLaunch_lag (s : State) (l : Nat) (f : Launch → Launch) : (s.updLaunch l f).lag = s.lag := rfl
@[simp] theorem State.updLaunch_exchanged (s : State) (l : Nat) (f : Launch → Launch) : (s.updLaunch l f).exchanged = s.exchanged := rfl
@[simp] theorem State.updLaunch_slewed (s : State) (l : Nat) (f : Launch → Launch) : (s.updLaunch l f).slewed = s.slewed := rfl
@[simp] theorem State.updLaunch_cap (s : State) (l : Nat) (f : Launch → Launch) : (s.updLaunch l f).cap = s.cap := rfl
@[simp] theorem State.updLaunch_islands (s : State) (l : Nat) (f : Launch → Launch) : (s.updLaunch l f).islands = s.islands := rfl
@[simp] theorem State.updLaunch_thermal (s : State) (l : Nat) (f : Launch → Launch) : (s.updLaunch l f).thermal = s.thermal := rfl
@[simp] theorem State.updLaunch_powerAt (s : State) (l : Nat) (f : Launch → Launch) : (s.updLaunch l f).powerAt = s.powerAt := rfl
@[simp] theorem State.updLaunch_fails (s : State) (l : Nat) (f : Launch → Launch) : (s.updLaunch l f).fails = s.fails := rfl
@[simp] theorem State.updLaunch_why (s : State) (l : Nat) (f : Launch → Launch) : (s.updLaunch l f).why = s.why := rfl
@[simp] theorem State.updLaunch_min (s : State) (l : Nat) (f : Launch → Launch) : (s.updLaunch l f).min = s.min := rfl
@[simp] theorem State.updLaunch_up (s : State) (l : Nat) (f : Launch → Launch) : (s.updLaunch l f).up = s.up := rfl
@[simp] theorem State.updLaunch_startedAt (s : State) (l : Nat) (f : Launch → Launch) : (s.updLaunch l f).startedAt = s.startedAt := rfl
@[simp] theorem State.updLaunch_firmware (s : State) (l : Nat) (f : Launch → Launch) : (s.updLaunch l f).firmware = s.firmware := rfl
@[simp] theorem State.updLaunch_staged (s : State) (l : Nat) (f : Launch → Launch) : (s.updLaunch l f).staged = s.staged := rfl
@[simp] theorem State.updLaunch_measured (s : State) (l : Nat) (f : Launch → Launch) : (s.updLaunch l f).measured = s.measured := rfl
@[simp] theorem State.updLaunch_supervisors (s : State) (l : Nat) (f : Launch → Launch) : (s.updLaunch l f).supervisors = s.supervisors := rfl
@[simp] theorem State.updLaunch_discarded (s : State) (l : Nat) (f : Launch → Launch) : (s.updLaunch l f).discarded = s.discarded := rfl
@[simp] theorem State.updLaunch_reports (s : State) (l : Nat) (f : Launch → Launch) : (s.updLaunch l f).reports = s.reports := rfl
@[simp] theorem State.updLaunch_reportsLost (s : State) (l : Nat) (f : Launch → Launch) : (s.updLaunch l f).reportsLost = s.reportsLost := rfl
@[simp] theorem State.updLaunch_msix (s : State) (l : Nat) (f : Launch → Launch) : (s.updLaunch l f).msix = s.msix := rfl
@[simp] theorem State.updLaunch_background (s : State) (l : Nat) (f : Launch → Launch) : (s.updLaunch l f).background = s.background := rfl
@[simp] theorem State.updLaunch_reply (s : State) (l : Nat) (f : Launch → Launch) : (s.updLaunch l f).reply = s.reply := rfl
@[simp] theorem State.updLaunch_spdm (s : State) (l : Nat) (f : Launch → Launch) : (s.updLaunch l f).spdm = s.spdm := rfl
@[simp] theorem State.updLaunch_jtag (s : State) (l : Nat) (f : Launch → Launch) : (s.updLaunch l f).jtag = s.jtag := rfl

/-! `post`. -/

@[simp] theorem State.post_cur (s : State) (op : Instr) (x : Arg) : (s.post op x).cur = s.cur := rfl
@[simp] theorem State.post_ir (s : State) (op : Instr) (x : Arg) : (s.post op x).ir = s.ir := rfl
@[simp] theorem State.post_nonce (s : State) (op : Instr) (x : Arg) : (s.post op x).nonce = s.nonce := rfl
@[simp] theorem State.post_arg (s : State) (op : Instr) (x : Arg) : (s.post op x).arg = s.arg := rfl
@[simp] theorem State.post_nextId (s : State) (op : Instr) (x : Arg) : (s.post op x).nextId = s.nextId := rfl
@[simp] theorem State.post_clk (s : State) (op : Instr) (x : Arg) : (s.post op x).clk = s.clk := rfl
@[simp] theorem State.post_mem (s : State) (op : Instr) (x : Arg) : (s.post op x).mem = s.mem := rfl
@[simp] theorem State.post_regs (s : State) (op : Instr) (x : Arg) : (s.post op x).regs = s.regs := rfl
@[simp] theorem State.post_waves (s : State) (op : Instr) (x : Arg) : (s.post op x).waves = s.waves := rfl
@[simp] theorem State.post_climbers (s : State) (op : Instr) (x : Arg) : (s.post op x).climbers = s.climbers := rfl
@[simp] theorem State.post_cores (s : State) (op : Instr) (x : Arg) : (s.post op x).cores = s.cores := rfl
@[simp] theorem State.post_halls (s : State) (op : Instr) (x : Arg) : (s.post op x).halls = s.halls := rfl
@[simp] theorem State.post_groups (s : State) (op : Instr) (x : Arg) : (s.post op x).groups = s.groups := rfl
@[simp] theorem State.post_launches (s : State) (op : Instr) (x : Arg) : (s.post op x).launches = s.launches := rfl
@[simp] theorem State.post_saved (s : State) (op : Instr) (x : Arg) : (s.post op x).saved = s.saved := rfl
@[simp] theorem State.post_accepted (s : State) (op : Instr) (x : Arg) : (s.post op x).accepted = s.accepted := rfl
@[simp] theorem State.post_placements (s : State) (op : Instr) (x : Arg) : (s.post op x).placements = s.placements := rfl
@[simp] theorem State.post_frames (s : State) (op : Instr) (x : Arg) : (s.post op x).frames = s.frames := rfl
@[simp] theorem State.post_cbars (s : State) (op : Instr) (x : Arg) : (s.post op x).cbars = s.cbars := rfl
@[simp] theorem State.post_lines (s : State) (op : Instr) (x : Arg) : (s.post op x).lines = s.lines := rfl
@[simp] theorem State.post_dirs (s : State) (op : Instr) (x : Arg) : (s.post op x).dirs = s.dirs := rfl
@[simp] theorem State.post_watches (s : State) (op : Instr) (x : Arg) : (s.post op x).watches = s.watches := rfl
@[simp] theorem State.post_shoots (s : State) (op : Instr) (x : Arg) : (s.post op x).shoots = s.shoots := rfl
@[simp] theorem State.post_pageOps (s : State) (op : Instr) (x : Arg) : (s.post op x).pageOps = s.pageOps := rfl
@[simp] theorem State.post_tweaks (s : State) (op : Instr) (x : Arg) : (s.post op x).tweaks = s.tweaks := rfl
@[simp] theorem State.post_sseqs (s : State) (op : Instr) (x : Arg) : (s.post op x).sseqs = s.sseqs := rfl
@[simp] theorem State.post_birsp (s : State) (op : Instr) (x : Arg) : (s.post op x).birsp = s.birsp := rfl
@[simp] theorem State.post_sectors (s : State) (op : Instr) (x : Arg) : (s.post op x).sectors = s.sectors := rfl
@[simp] theorem State.post_badLs (s : State) (op : Instr) (x : Arg) : (s.post op x).badLs = s.badLs := rfl
@[simp] theorem State.post_badHbm (s : State) (op : Instr) (x : Arg) : (s.post op x).badHbm = s.badHbm := rfl
@[simp] theorem State.post_badHall (s : State) (op : Instr) (x : Arg) : (s.post op x).badHall = s.badHall := rfl
@[simp] theorem State.post_badArray (s : State) (op : Instr) (x : Arg) : (s.post op x).badArray = s.badArray := rfl
@[simp] theorem State.post_corrected (s : State) (op : Instr) (x : Arg) : (s.post op x).corrected = s.corrected := rfl
@[simp] theorem State.post_scrub (s : State) (op : Instr) (x : Arg) : (s.post op x).scrub = s.scrub := rfl
@[simp] theorem State.post_roots (s : State) (op : Instr) (x : Arg) : (s.post op x).roots = s.roots := rfl
@[simp] theorem State.post_keys (s : State) (op : Instr) (x : Arg) : (s.post op x).keys = s.keys := rfl
@[simp] theorem State.post_keyLock (s : State) (op : Instr) (x : Arg) : (s.post op x).keyLock = s.keyLock := rfl
@[simp] theorem State.post_slots (s : State) (op : Instr) (x : Arg) : (s.post op x).slots = s.slots := rfl
@[simp] theorem State.post_regions (s : State) (op : Instr) (x : Arg) : (s.post op x).regions = s.regions := rfl
@[simp] theorem State.post_ports (s : State) (op : Instr) (x : Arg) : (s.post op x).ports = s.ports := rfl
@[simp] theorem State.post_flights (s : State) (op : Instr) (x : Arg) : (s.post op x).flights = s.flights := rfl
@[simp] theorem State.post_rings (s : State) (op : Instr) (x : Arg) : (s.post op x).rings = s.rings := rfl
@[simp] theorem State.post_ringTurn (s : State) (op : Instr) (x : Arg) : (s.post op x).ringTurn = s.ringTurn := rfl
@[simp] theorem State.post_graphs (s : State) (op : Instr) (x : Arg) : (s.post op x).graphs = s.graphs := rfl
@[simp] theorem State.post_tables (s : State) (op : Instr) (x : Arg) : (s.post op x).tables = s.tables := rfl
@[simp] theorem State.post_imageBase (s : State) (op : Instr) (x : Arg) : (s.post op x).imageBase = s.imageBase := rfl
@[simp] theorem State.post_imageBytes (s : State) (op : Instr) (x : Arg) : (s.post op x).imageBytes = s.imageBytes := rfl
@[simp] theorem State.post_pkg (s : State) (op : Instr) (x : Arg) : (s.post op x).pkg = s.pkg := rfl
@[simp] theorem State.post_torusX (s : State) (op : Instr) (x : Arg) : (s.post op x).torusX = s.torusX := rfl
@[simp] theorem State.post_torusY (s : State) (op : Instr) (x : Arg) : (s.post op x).torusY = s.torusY := rfl
@[simp] theorem State.post_mismatched (s : State) (op : Instr) (x : Arg) : (s.post op x).mismatched = s.mismatched := rfl
@[simp] theorem State.post_away (s : State) (op : Instr) (x : Arg) : (s.post op x).away = s.away := rfl
@[simp] theorem State.post_lag (s : State) (op : Instr) (x : Arg) : (s.post op x).lag = s.lag := rfl
@[simp] theorem State.post_exchanged (s : State) (op : Instr) (x : Arg) : (s.post op x).exchanged = s.exchanged := rfl
@[simp] theorem State.post_slewed (s : State) (op : Instr) (x : Arg) : (s.post op x).slewed = s.slewed := rfl
@[simp] theorem State.post_cap (s : State) (op : Instr) (x : Arg) : (s.post op x).cap = s.cap := rfl
@[simp] theorem State.post_islands (s : State) (op : Instr) (x : Arg) : (s.post op x).islands = s.islands := rfl
@[simp] theorem State.post_thermal (s : State) (op : Instr) (x : Arg) : (s.post op x).thermal = s.thermal := rfl
@[simp] theorem State.post_powerAt (s : State) (op : Instr) (x : Arg) : (s.post op x).powerAt = s.powerAt := rfl
@[simp] theorem State.post_fails (s : State) (op : Instr) (x : Arg) : (s.post op x).fails = s.fails := rfl
@[simp] theorem State.post_why (s : State) (op : Instr) (x : Arg) : (s.post op x).why = s.why := rfl
@[simp] theorem State.post_min (s : State) (op : Instr) (x : Arg) : (s.post op x).min = s.min := rfl
@[simp] theorem State.post_up (s : State) (op : Instr) (x : Arg) : (s.post op x).up = s.up := rfl
@[simp] theorem State.post_startedAt (s : State) (op : Instr) (x : Arg) : (s.post op x).startedAt = s.startedAt := rfl
@[simp] theorem State.post_firmware (s : State) (op : Instr) (x : Arg) : (s.post op x).firmware = s.firmware := rfl
@[simp] theorem State.post_staged (s : State) (op : Instr) (x : Arg) : (s.post op x).staged = s.staged := rfl
@[simp] theorem State.post_measured (s : State) (op : Instr) (x : Arg) : (s.post op x).measured = s.measured := rfl
@[simp] theorem State.post_supervisors (s : State) (op : Instr) (x : Arg) : (s.post op x).supervisors = s.supervisors := rfl
@[simp] theorem State.post_discarded (s : State) (op : Instr) (x : Arg) : (s.post op x).discarded = s.discarded := rfl
@[simp] theorem State.post_reports (s : State) (op : Instr) (x : Arg) : (s.post op x).reports = s.reports := rfl
@[simp] theorem State.post_reportsLost (s : State) (op : Instr) (x : Arg) : (s.post op x).reportsLost = s.reportsLost := rfl
@[simp] theorem State.post_msix (s : State) (op : Instr) (x : Arg) : (s.post op x).msix = s.msix := rfl
@[simp] theorem State.post_background (s : State) (op : Instr) (x : Arg) : (s.post op x).background = s.background := rfl
@[simp] theorem State.post_reply (s : State) (op : Instr) (x : Arg) : (s.post op x).reply = s.reply := rfl
@[simp] theorem State.post_spdm (s : State) (op : Instr) (x : Arg) : (s.post op x).spdm = s.spdm := rfl
@[simp] theorem State.post_jtag (s : State) (op : Instr) (x : Arg) : (s.post op x).jtag = s.jtag := rfl

/-! `postAll`. -/

@[simp] theorem State.postAll_cur (s : State) (ts : List Task) : (s.postAll ts).cur = s.cur := rfl
@[simp] theorem State.postAll_ir (s : State) (ts : List Task) : (s.postAll ts).ir = s.ir := rfl
@[simp] theorem State.postAll_nonce (s : State) (ts : List Task) : (s.postAll ts).nonce = s.nonce := rfl
@[simp] theorem State.postAll_arg (s : State) (ts : List Task) : (s.postAll ts).arg = s.arg := rfl
@[simp] theorem State.postAll_nextId (s : State) (ts : List Task) : (s.postAll ts).nextId = s.nextId := rfl
@[simp] theorem State.postAll_clk (s : State) (ts : List Task) : (s.postAll ts).clk = s.clk := rfl
@[simp] theorem State.postAll_mem (s : State) (ts : List Task) : (s.postAll ts).mem = s.mem := rfl
@[simp] theorem State.postAll_regs (s : State) (ts : List Task) : (s.postAll ts).regs = s.regs := rfl
@[simp] theorem State.postAll_waves (s : State) (ts : List Task) : (s.postAll ts).waves = s.waves := rfl
@[simp] theorem State.postAll_climbers (s : State) (ts : List Task) : (s.postAll ts).climbers = s.climbers := rfl
@[simp] theorem State.postAll_cores (s : State) (ts : List Task) : (s.postAll ts).cores = s.cores := rfl
@[simp] theorem State.postAll_halls (s : State) (ts : List Task) : (s.postAll ts).halls = s.halls := rfl
@[simp] theorem State.postAll_groups (s : State) (ts : List Task) : (s.postAll ts).groups = s.groups := rfl
@[simp] theorem State.postAll_launches (s : State) (ts : List Task) : (s.postAll ts).launches = s.launches := rfl
@[simp] theorem State.postAll_saved (s : State) (ts : List Task) : (s.postAll ts).saved = s.saved := rfl
@[simp] theorem State.postAll_accepted (s : State) (ts : List Task) : (s.postAll ts).accepted = s.accepted := rfl
@[simp] theorem State.postAll_placements (s : State) (ts : List Task) : (s.postAll ts).placements = s.placements := rfl
@[simp] theorem State.postAll_frames (s : State) (ts : List Task) : (s.postAll ts).frames = s.frames := rfl
@[simp] theorem State.postAll_cbars (s : State) (ts : List Task) : (s.postAll ts).cbars = s.cbars := rfl
@[simp] theorem State.postAll_lines (s : State) (ts : List Task) : (s.postAll ts).lines = s.lines := rfl
@[simp] theorem State.postAll_dirs (s : State) (ts : List Task) : (s.postAll ts).dirs = s.dirs := rfl
@[simp] theorem State.postAll_watches (s : State) (ts : List Task) : (s.postAll ts).watches = s.watches := rfl
@[simp] theorem State.postAll_shoots (s : State) (ts : List Task) : (s.postAll ts).shoots = s.shoots := rfl
@[simp] theorem State.postAll_pageOps (s : State) (ts : List Task) : (s.postAll ts).pageOps = s.pageOps := rfl
@[simp] theorem State.postAll_tweaks (s : State) (ts : List Task) : (s.postAll ts).tweaks = s.tweaks := rfl
@[simp] theorem State.postAll_sseqs (s : State) (ts : List Task) : (s.postAll ts).sseqs = s.sseqs := rfl
@[simp] theorem State.postAll_birsp (s : State) (ts : List Task) : (s.postAll ts).birsp = s.birsp := rfl
@[simp] theorem State.postAll_sectors (s : State) (ts : List Task) : (s.postAll ts).sectors = s.sectors := rfl
@[simp] theorem State.postAll_badLs (s : State) (ts : List Task) : (s.postAll ts).badLs = s.badLs := rfl
@[simp] theorem State.postAll_badHbm (s : State) (ts : List Task) : (s.postAll ts).badHbm = s.badHbm := rfl
@[simp] theorem State.postAll_badHall (s : State) (ts : List Task) : (s.postAll ts).badHall = s.badHall := rfl
@[simp] theorem State.postAll_badArray (s : State) (ts : List Task) : (s.postAll ts).badArray = s.badArray := rfl
@[simp] theorem State.postAll_corrected (s : State) (ts : List Task) : (s.postAll ts).corrected = s.corrected := rfl
@[simp] theorem State.postAll_scrub (s : State) (ts : List Task) : (s.postAll ts).scrub = s.scrub := rfl
@[simp] theorem State.postAll_roots (s : State) (ts : List Task) : (s.postAll ts).roots = s.roots := rfl
@[simp] theorem State.postAll_keys (s : State) (ts : List Task) : (s.postAll ts).keys = s.keys := rfl
@[simp] theorem State.postAll_keyLock (s : State) (ts : List Task) : (s.postAll ts).keyLock = s.keyLock := rfl
@[simp] theorem State.postAll_slots (s : State) (ts : List Task) : (s.postAll ts).slots = s.slots := rfl
@[simp] theorem State.postAll_regions (s : State) (ts : List Task) : (s.postAll ts).regions = s.regions := rfl
@[simp] theorem State.postAll_ports (s : State) (ts : List Task) : (s.postAll ts).ports = s.ports := rfl
@[simp] theorem State.postAll_flights (s : State) (ts : List Task) : (s.postAll ts).flights = s.flights := rfl
@[simp] theorem State.postAll_rings (s : State) (ts : List Task) : (s.postAll ts).rings = s.rings := rfl
@[simp] theorem State.postAll_ringTurn (s : State) (ts : List Task) : (s.postAll ts).ringTurn = s.ringTurn := rfl
@[simp] theorem State.postAll_graphs (s : State) (ts : List Task) : (s.postAll ts).graphs = s.graphs := rfl
@[simp] theorem State.postAll_tables (s : State) (ts : List Task) : (s.postAll ts).tables = s.tables := rfl
@[simp] theorem State.postAll_imageBase (s : State) (ts : List Task) : (s.postAll ts).imageBase = s.imageBase := rfl
@[simp] theorem State.postAll_imageBytes (s : State) (ts : List Task) : (s.postAll ts).imageBytes = s.imageBytes := rfl
@[simp] theorem State.postAll_pkg (s : State) (ts : List Task) : (s.postAll ts).pkg = s.pkg := rfl
@[simp] theorem State.postAll_torusX (s : State) (ts : List Task) : (s.postAll ts).torusX = s.torusX := rfl
@[simp] theorem State.postAll_torusY (s : State) (ts : List Task) : (s.postAll ts).torusY = s.torusY := rfl
@[simp] theorem State.postAll_mismatched (s : State) (ts : List Task) : (s.postAll ts).mismatched = s.mismatched := rfl
@[simp] theorem State.postAll_away (s : State) (ts : List Task) : (s.postAll ts).away = s.away := rfl
@[simp] theorem State.postAll_lag (s : State) (ts : List Task) : (s.postAll ts).lag = s.lag := rfl
@[simp] theorem State.postAll_exchanged (s : State) (ts : List Task) : (s.postAll ts).exchanged = s.exchanged := rfl
@[simp] theorem State.postAll_slewed (s : State) (ts : List Task) : (s.postAll ts).slewed = s.slewed := rfl
@[simp] theorem State.postAll_cap (s : State) (ts : List Task) : (s.postAll ts).cap = s.cap := rfl
@[simp] theorem State.postAll_islands (s : State) (ts : List Task) : (s.postAll ts).islands = s.islands := rfl
@[simp] theorem State.postAll_thermal (s : State) (ts : List Task) : (s.postAll ts).thermal = s.thermal := rfl
@[simp] theorem State.postAll_powerAt (s : State) (ts : List Task) : (s.postAll ts).powerAt = s.powerAt := rfl
@[simp] theorem State.postAll_fails (s : State) (ts : List Task) : (s.postAll ts).fails = s.fails := rfl
@[simp] theorem State.postAll_why (s : State) (ts : List Task) : (s.postAll ts).why = s.why := rfl
@[simp] theorem State.postAll_min (s : State) (ts : List Task) : (s.postAll ts).min = s.min := rfl
@[simp] theorem State.postAll_up (s : State) (ts : List Task) : (s.postAll ts).up = s.up := rfl
@[simp] theorem State.postAll_startedAt (s : State) (ts : List Task) : (s.postAll ts).startedAt = s.startedAt := rfl
@[simp] theorem State.postAll_firmware (s : State) (ts : List Task) : (s.postAll ts).firmware = s.firmware := rfl
@[simp] theorem State.postAll_staged (s : State) (ts : List Task) : (s.postAll ts).staged = s.staged := rfl
@[simp] theorem State.postAll_measured (s : State) (ts : List Task) : (s.postAll ts).measured = s.measured := rfl
@[simp] theorem State.postAll_supervisors (s : State) (ts : List Task) : (s.postAll ts).supervisors = s.supervisors := rfl
@[simp] theorem State.postAll_discarded (s : State) (ts : List Task) : (s.postAll ts).discarded = s.discarded := rfl
@[simp] theorem State.postAll_reports (s : State) (ts : List Task) : (s.postAll ts).reports = s.reports := rfl
@[simp] theorem State.postAll_reportsLost (s : State) (ts : List Task) : (s.postAll ts).reportsLost = s.reportsLost := rfl
@[simp] theorem State.postAll_msix (s : State) (ts : List Task) : (s.postAll ts).msix = s.msix := rfl
@[simp] theorem State.postAll_background (s : State) (ts : List Task) : (s.postAll ts).background = s.background := rfl
@[simp] theorem State.postAll_reply (s : State) (ts : List Task) : (s.postAll ts).reply = s.reply := rfl
@[simp] theorem State.postAll_spdm (s : State) (ts : List Task) : (s.postAll ts).spdm = s.spdm := rfl
@[simp] theorem State.postAll_jtag (s : State) (ts : List Task) : (s.postAll ts).jtag = s.jtag := rfl

/-! `freshId`. -/

@[simp] theorem State.freshId_cur (s : State) : (s.freshId).cur = s.cur := rfl
@[simp] theorem State.freshId_ir (s : State) : (s.freshId).ir = s.ir := rfl
@[simp] theorem State.freshId_nonce (s : State) : (s.freshId).nonce = s.nonce := rfl
@[simp] theorem State.freshId_arg (s : State) : (s.freshId).arg = s.arg := rfl
@[simp] theorem State.freshId_agenda (s : State) : (s.freshId).agenda = s.agenda := rfl
@[simp] theorem State.freshId_clk (s : State) : (s.freshId).clk = s.clk := rfl
@[simp] theorem State.freshId_mem (s : State) : (s.freshId).mem = s.mem := rfl
@[simp] theorem State.freshId_regs (s : State) : (s.freshId).regs = s.regs := rfl
@[simp] theorem State.freshId_waves (s : State) : (s.freshId).waves = s.waves := rfl
@[simp] theorem State.freshId_climbers (s : State) : (s.freshId).climbers = s.climbers := rfl
@[simp] theorem State.freshId_cores (s : State) : (s.freshId).cores = s.cores := rfl
@[simp] theorem State.freshId_halls (s : State) : (s.freshId).halls = s.halls := rfl
@[simp] theorem State.freshId_groups (s : State) : (s.freshId).groups = s.groups := rfl
@[simp] theorem State.freshId_launches (s : State) : (s.freshId).launches = s.launches := rfl
@[simp] theorem State.freshId_saved (s : State) : (s.freshId).saved = s.saved := rfl
@[simp] theorem State.freshId_accepted (s : State) : (s.freshId).accepted = s.accepted := rfl
@[simp] theorem State.freshId_placements (s : State) : (s.freshId).placements = s.placements := rfl
@[simp] theorem State.freshId_frames (s : State) : (s.freshId).frames = s.frames := rfl
@[simp] theorem State.freshId_cbars (s : State) : (s.freshId).cbars = s.cbars := rfl
@[simp] theorem State.freshId_lines (s : State) : (s.freshId).lines = s.lines := rfl
@[simp] theorem State.freshId_dirs (s : State) : (s.freshId).dirs = s.dirs := rfl
@[simp] theorem State.freshId_watches (s : State) : (s.freshId).watches = s.watches := rfl
@[simp] theorem State.freshId_shoots (s : State) : (s.freshId).shoots = s.shoots := rfl
@[simp] theorem State.freshId_pageOps (s : State) : (s.freshId).pageOps = s.pageOps := rfl
@[simp] theorem State.freshId_tweaks (s : State) : (s.freshId).tweaks = s.tweaks := rfl
@[simp] theorem State.freshId_sseqs (s : State) : (s.freshId).sseqs = s.sseqs := rfl
@[simp] theorem State.freshId_birsp (s : State) : (s.freshId).birsp = s.birsp := rfl
@[simp] theorem State.freshId_sectors (s : State) : (s.freshId).sectors = s.sectors := rfl
@[simp] theorem State.freshId_badLs (s : State) : (s.freshId).badLs = s.badLs := rfl
@[simp] theorem State.freshId_badHbm (s : State) : (s.freshId).badHbm = s.badHbm := rfl
@[simp] theorem State.freshId_badHall (s : State) : (s.freshId).badHall = s.badHall := rfl
@[simp] theorem State.freshId_badArray (s : State) : (s.freshId).badArray = s.badArray := rfl
@[simp] theorem State.freshId_corrected (s : State) : (s.freshId).corrected = s.corrected := rfl
@[simp] theorem State.freshId_scrub (s : State) : (s.freshId).scrub = s.scrub := rfl
@[simp] theorem State.freshId_roots (s : State) : (s.freshId).roots = s.roots := rfl
@[simp] theorem State.freshId_keys (s : State) : (s.freshId).keys = s.keys := rfl
@[simp] theorem State.freshId_keyLock (s : State) : (s.freshId).keyLock = s.keyLock := rfl
@[simp] theorem State.freshId_slots (s : State) : (s.freshId).slots = s.slots := rfl
@[simp] theorem State.freshId_regions (s : State) : (s.freshId).regions = s.regions := rfl
@[simp] theorem State.freshId_ports (s : State) : (s.freshId).ports = s.ports := rfl
@[simp] theorem State.freshId_flights (s : State) : (s.freshId).flights = s.flights := rfl
@[simp] theorem State.freshId_rings (s : State) : (s.freshId).rings = s.rings := rfl
@[simp] theorem State.freshId_ringTurn (s : State) : (s.freshId).ringTurn = s.ringTurn := rfl
@[simp] theorem State.freshId_graphs (s : State) : (s.freshId).graphs = s.graphs := rfl
@[simp] theorem State.freshId_tables (s : State) : (s.freshId).tables = s.tables := rfl
@[simp] theorem State.freshId_imageBase (s : State) : (s.freshId).imageBase = s.imageBase := rfl
@[simp] theorem State.freshId_imageBytes (s : State) : (s.freshId).imageBytes = s.imageBytes := rfl
@[simp] theorem State.freshId_pkg (s : State) : (s.freshId).pkg = s.pkg := rfl
@[simp] theorem State.freshId_torusX (s : State) : (s.freshId).torusX = s.torusX := rfl
@[simp] theorem State.freshId_torusY (s : State) : (s.freshId).torusY = s.torusY := rfl
@[simp] theorem State.freshId_mismatched (s : State) : (s.freshId).mismatched = s.mismatched := rfl
@[simp] theorem State.freshId_away (s : State) : (s.freshId).away = s.away := rfl
@[simp] theorem State.freshId_lag (s : State) : (s.freshId).lag = s.lag := rfl
@[simp] theorem State.freshId_exchanged (s : State) : (s.freshId).exchanged = s.exchanged := rfl
@[simp] theorem State.freshId_slewed (s : State) : (s.freshId).slewed = s.slewed := rfl
@[simp] theorem State.freshId_cap (s : State) : (s.freshId).cap = s.cap := rfl
@[simp] theorem State.freshId_islands (s : State) : (s.freshId).islands = s.islands := rfl
@[simp] theorem State.freshId_thermal (s : State) : (s.freshId).thermal = s.thermal := rfl
@[simp] theorem State.freshId_powerAt (s : State) : (s.freshId).powerAt = s.powerAt := rfl
@[simp] theorem State.freshId_fails (s : State) : (s.freshId).fails = s.fails := rfl
@[simp] theorem State.freshId_why (s : State) : (s.freshId).why = s.why := rfl
@[simp] theorem State.freshId_min (s : State) : (s.freshId).min = s.min := rfl
@[simp] theorem State.freshId_up (s : State) : (s.freshId).up = s.up := rfl
@[simp] theorem State.freshId_startedAt (s : State) : (s.freshId).startedAt = s.startedAt := rfl
@[simp] theorem State.freshId_firmware (s : State) : (s.freshId).firmware = s.firmware := rfl
@[simp] theorem State.freshId_staged (s : State) : (s.freshId).staged = s.staged := rfl
@[simp] theorem State.freshId_measured (s : State) : (s.freshId).measured = s.measured := rfl
@[simp] theorem State.freshId_supervisors (s : State) : (s.freshId).supervisors = s.supervisors := rfl
@[simp] theorem State.freshId_discarded (s : State) : (s.freshId).discarded = s.discarded := rfl
@[simp] theorem State.freshId_reports (s : State) : (s.freshId).reports = s.reports := rfl
@[simp] theorem State.freshId_reportsLost (s : State) : (s.freshId).reportsLost = s.reportsLost := rfl
@[simp] theorem State.freshId_msix (s : State) : (s.freshId).msix = s.msix := rfl
@[simp] theorem State.freshId_background (s : State) : (s.freshId).background = s.background := rfl
@[simp] theorem State.freshId_reply (s : State) : (s.freshId).reply = s.reply := rfl
@[simp] theorem State.freshId_spdm (s : State) : (s.freshId).spdm = s.spdm := rfl
@[simp] theorem State.freshId_jtag (s : State) : (s.freshId).jtag = s.jtag := rfl

/-! `setLs`. -/

@[simp] theorem State.setLs_cur (s : State) (c off n v : Nat) : (s.setLs c off n v).cur = s.cur := rfl
@[simp] theorem State.setLs_ir (s : State) (c off n v : Nat) : (s.setLs c off n v).ir = s.ir := rfl
@[simp] theorem State.setLs_nonce (s : State) (c off n v : Nat) : (s.setLs c off n v).nonce = s.nonce := rfl
@[simp] theorem State.setLs_arg (s : State) (c off n v : Nat) : (s.setLs c off n v).arg = s.arg := rfl
@[simp] theorem State.setLs_agenda (s : State) (c off n v : Nat) : (s.setLs c off n v).agenda = s.agenda := rfl
@[simp] theorem State.setLs_nextId (s : State) (c off n v : Nat) : (s.setLs c off n v).nextId = s.nextId := rfl
@[simp] theorem State.setLs_clk (s : State) (c off n v : Nat) : (s.setLs c off n v).clk = s.clk := rfl
@[simp] theorem State.setLs_regs (s : State) (c off n v : Nat) : (s.setLs c off n v).regs = s.regs := rfl
@[simp] theorem State.setLs_waves (s : State) (c off n v : Nat) : (s.setLs c off n v).waves = s.waves := rfl
@[simp] theorem State.setLs_climbers (s : State) (c off n v : Nat) : (s.setLs c off n v).climbers = s.climbers := rfl
@[simp] theorem State.setLs_cores (s : State) (c off n v : Nat) : (s.setLs c off n v).cores = s.cores := rfl
@[simp] theorem State.setLs_halls (s : State) (c off n v : Nat) : (s.setLs c off n v).halls = s.halls := rfl
@[simp] theorem State.setLs_groups (s : State) (c off n v : Nat) : (s.setLs c off n v).groups = s.groups := rfl
@[simp] theorem State.setLs_launches (s : State) (c off n v : Nat) : (s.setLs c off n v).launches = s.launches := rfl
@[simp] theorem State.setLs_saved (s : State) (c off n v : Nat) : (s.setLs c off n v).saved = s.saved := rfl
@[simp] theorem State.setLs_accepted (s : State) (c off n v : Nat) : (s.setLs c off n v).accepted = s.accepted := rfl
@[simp] theorem State.setLs_placements (s : State) (c off n v : Nat) : (s.setLs c off n v).placements = s.placements := rfl
@[simp] theorem State.setLs_frames (s : State) (c off n v : Nat) : (s.setLs c off n v).frames = s.frames := rfl
@[simp] theorem State.setLs_cbars (s : State) (c off n v : Nat) : (s.setLs c off n v).cbars = s.cbars := rfl
@[simp] theorem State.setLs_lines (s : State) (c off n v : Nat) : (s.setLs c off n v).lines = s.lines := rfl
@[simp] theorem State.setLs_dirs (s : State) (c off n v : Nat) : (s.setLs c off n v).dirs = s.dirs := rfl
@[simp] theorem State.setLs_watches (s : State) (c off n v : Nat) : (s.setLs c off n v).watches = s.watches := rfl
@[simp] theorem State.setLs_shoots (s : State) (c off n v : Nat) : (s.setLs c off n v).shoots = s.shoots := rfl
@[simp] theorem State.setLs_pageOps (s : State) (c off n v : Nat) : (s.setLs c off n v).pageOps = s.pageOps := rfl
@[simp] theorem State.setLs_tweaks (s : State) (c off n v : Nat) : (s.setLs c off n v).tweaks = s.tweaks := rfl
@[simp] theorem State.setLs_sseqs (s : State) (c off n v : Nat) : (s.setLs c off n v).sseqs = s.sseqs := rfl
@[simp] theorem State.setLs_birsp (s : State) (c off n v : Nat) : (s.setLs c off n v).birsp = s.birsp := rfl
@[simp] theorem State.setLs_sectors (s : State) (c off n v : Nat) : (s.setLs c off n v).sectors = s.sectors := rfl
@[simp] theorem State.setLs_badLs (s : State) (c off n v : Nat) : (s.setLs c off n v).badLs = s.badLs := rfl
@[simp] theorem State.setLs_badHbm (s : State) (c off n v : Nat) : (s.setLs c off n v).badHbm = s.badHbm := rfl
@[simp] theorem State.setLs_badHall (s : State) (c off n v : Nat) : (s.setLs c off n v).badHall = s.badHall := rfl
@[simp] theorem State.setLs_badArray (s : State) (c off n v : Nat) : (s.setLs c off n v).badArray = s.badArray := rfl
@[simp] theorem State.setLs_corrected (s : State) (c off n v : Nat) : (s.setLs c off n v).corrected = s.corrected := rfl
@[simp] theorem State.setLs_scrub (s : State) (c off n v : Nat) : (s.setLs c off n v).scrub = s.scrub := rfl
@[simp] theorem State.setLs_roots (s : State) (c off n v : Nat) : (s.setLs c off n v).roots = s.roots := rfl
@[simp] theorem State.setLs_keys (s : State) (c off n v : Nat) : (s.setLs c off n v).keys = s.keys := rfl
@[simp] theorem State.setLs_keyLock (s : State) (c off n v : Nat) : (s.setLs c off n v).keyLock = s.keyLock := rfl
@[simp] theorem State.setLs_slots (s : State) (c off n v : Nat) : (s.setLs c off n v).slots = s.slots := rfl
@[simp] theorem State.setLs_regions (s : State) (c off n v : Nat) : (s.setLs c off n v).regions = s.regions := rfl
@[simp] theorem State.setLs_ports (s : State) (c off n v : Nat) : (s.setLs c off n v).ports = s.ports := rfl
@[simp] theorem State.setLs_flights (s : State) (c off n v : Nat) : (s.setLs c off n v).flights = s.flights := rfl
@[simp] theorem State.setLs_rings (s : State) (c off n v : Nat) : (s.setLs c off n v).rings = s.rings := rfl
@[simp] theorem State.setLs_ringTurn (s : State) (c off n v : Nat) : (s.setLs c off n v).ringTurn = s.ringTurn := rfl
@[simp] theorem State.setLs_graphs (s : State) (c off n v : Nat) : (s.setLs c off n v).graphs = s.graphs := rfl
@[simp] theorem State.setLs_tables (s : State) (c off n v : Nat) : (s.setLs c off n v).tables = s.tables := rfl
@[simp] theorem State.setLs_imageBase (s : State) (c off n v : Nat) : (s.setLs c off n v).imageBase = s.imageBase := rfl
@[simp] theorem State.setLs_imageBytes (s : State) (c off n v : Nat) : (s.setLs c off n v).imageBytes = s.imageBytes := rfl
@[simp] theorem State.setLs_pkg (s : State) (c off n v : Nat) : (s.setLs c off n v).pkg = s.pkg := rfl
@[simp] theorem State.setLs_torusX (s : State) (c off n v : Nat) : (s.setLs c off n v).torusX = s.torusX := rfl
@[simp] theorem State.setLs_torusY (s : State) (c off n v : Nat) : (s.setLs c off n v).torusY = s.torusY := rfl
@[simp] theorem State.setLs_mismatched (s : State) (c off n v : Nat) : (s.setLs c off n v).mismatched = s.mismatched := rfl
@[simp] theorem State.setLs_away (s : State) (c off n v : Nat) : (s.setLs c off n v).away = s.away := rfl
@[simp] theorem State.setLs_lag (s : State) (c off n v : Nat) : (s.setLs c off n v).lag = s.lag := rfl
@[simp] theorem State.setLs_exchanged (s : State) (c off n v : Nat) : (s.setLs c off n v).exchanged = s.exchanged := rfl
@[simp] theorem State.setLs_slewed (s : State) (c off n v : Nat) : (s.setLs c off n v).slewed = s.slewed := rfl
@[simp] theorem State.setLs_cap (s : State) (c off n v : Nat) : (s.setLs c off n v).cap = s.cap := rfl
@[simp] theorem State.setLs_islands (s : State) (c off n v : Nat) : (s.setLs c off n v).islands = s.islands := rfl
@[simp] theorem State.setLs_thermal (s : State) (c off n v : Nat) : (s.setLs c off n v).thermal = s.thermal := rfl
@[simp] theorem State.setLs_powerAt (s : State) (c off n v : Nat) : (s.setLs c off n v).powerAt = s.powerAt := rfl
@[simp] theorem State.setLs_fails (s : State) (c off n v : Nat) : (s.setLs c off n v).fails = s.fails := rfl
@[simp] theorem State.setLs_why (s : State) (c off n v : Nat) : (s.setLs c off n v).why = s.why := rfl
@[simp] theorem State.setLs_min (s : State) (c off n v : Nat) : (s.setLs c off n v).min = s.min := rfl
@[simp] theorem State.setLs_up (s : State) (c off n v : Nat) : (s.setLs c off n v).up = s.up := rfl
@[simp] theorem State.setLs_startedAt (s : State) (c off n v : Nat) : (s.setLs c off n v).startedAt = s.startedAt := rfl
@[simp] theorem State.setLs_firmware (s : State) (c off n v : Nat) : (s.setLs c off n v).firmware = s.firmware := rfl
@[simp] theorem State.setLs_staged (s : State) (c off n v : Nat) : (s.setLs c off n v).staged = s.staged := rfl
@[simp] theorem State.setLs_measured (s : State) (c off n v : Nat) : (s.setLs c off n v).measured = s.measured := rfl
@[simp] theorem State.setLs_supervisors (s : State) (c off n v : Nat) : (s.setLs c off n v).supervisors = s.supervisors := rfl
@[simp] theorem State.setLs_discarded (s : State) (c off n v : Nat) : (s.setLs c off n v).discarded = s.discarded := rfl
@[simp] theorem State.setLs_reports (s : State) (c off n v : Nat) : (s.setLs c off n v).reports = s.reports := rfl
@[simp] theorem State.setLs_reportsLost (s : State) (c off n v : Nat) : (s.setLs c off n v).reportsLost = s.reportsLost := rfl
@[simp] theorem State.setLs_msix (s : State) (c off n v : Nat) : (s.setLs c off n v).msix = s.msix := rfl
@[simp] theorem State.setLs_background (s : State) (c off n v : Nat) : (s.setLs c off n v).background = s.background := rfl
@[simp] theorem State.setLs_reply (s : State) (c off n v : Nat) : (s.setLs c off n v).reply = s.reply := rfl
@[simp] theorem State.setLs_spdm (s : State) (c off n v : Nat) : (s.setLs c off n v).spdm = s.spdm := rfl
@[simp] theorem State.setLs_jtag (s : State) (c off n v : Nat) : (s.setLs c off n v).jtag = s.jtag := rfl

/-! `setVreg`. -/

@[simp] theorem State.setVreg_cur (s : State) (c w r l : Nat) (v : Word) : (s.setVreg c w r l v).cur = s.cur := rfl
@[simp] theorem State.setVreg_ir (s : State) (c w r l : Nat) (v : Word) : (s.setVreg c w r l v).ir = s.ir := rfl
@[simp] theorem State.setVreg_nonce (s : State) (c w r l : Nat) (v : Word) : (s.setVreg c w r l v).nonce = s.nonce := rfl
@[simp] theorem State.setVreg_arg (s : State) (c w r l : Nat) (v : Word) : (s.setVreg c w r l v).arg = s.arg := rfl
@[simp] theorem State.setVreg_agenda (s : State) (c w r l : Nat) (v : Word) : (s.setVreg c w r l v).agenda = s.agenda := rfl
@[simp] theorem State.setVreg_nextId (s : State) (c w r l : Nat) (v : Word) : (s.setVreg c w r l v).nextId = s.nextId := rfl
@[simp] theorem State.setVreg_clk (s : State) (c w r l : Nat) (v : Word) : (s.setVreg c w r l v).clk = s.clk := rfl
@[simp] theorem State.setVreg_mem (s : State) (c w r l : Nat) (v : Word) : (s.setVreg c w r l v).mem = s.mem := rfl
@[simp] theorem State.setVreg_waves (s : State) (c w r l : Nat) (v : Word) : (s.setVreg c w r l v).waves = s.waves := rfl
@[simp] theorem State.setVreg_climbers (s : State) (c w r l : Nat) (v : Word) : (s.setVreg c w r l v).climbers = s.climbers := rfl
@[simp] theorem State.setVreg_cores (s : State) (c w r l : Nat) (v : Word) : (s.setVreg c w r l v).cores = s.cores := rfl
@[simp] theorem State.setVreg_halls (s : State) (c w r l : Nat) (v : Word) : (s.setVreg c w r l v).halls = s.halls := rfl
@[simp] theorem State.setVreg_groups (s : State) (c w r l : Nat) (v : Word) : (s.setVreg c w r l v).groups = s.groups := rfl
@[simp] theorem State.setVreg_launches (s : State) (c w r l : Nat) (v : Word) : (s.setVreg c w r l v).launches = s.launches := rfl
@[simp] theorem State.setVreg_saved (s : State) (c w r l : Nat) (v : Word) : (s.setVreg c w r l v).saved = s.saved := rfl
@[simp] theorem State.setVreg_accepted (s : State) (c w r l : Nat) (v : Word) : (s.setVreg c w r l v).accepted = s.accepted := rfl
@[simp] theorem State.setVreg_placements (s : State) (c w r l : Nat) (v : Word) : (s.setVreg c w r l v).placements = s.placements := rfl
@[simp] theorem State.setVreg_frames (s : State) (c w r l : Nat) (v : Word) : (s.setVreg c w r l v).frames = s.frames := rfl
@[simp] theorem State.setVreg_cbars (s : State) (c w r l : Nat) (v : Word) : (s.setVreg c w r l v).cbars = s.cbars := rfl
@[simp] theorem State.setVreg_lines (s : State) (c w r l : Nat) (v : Word) : (s.setVreg c w r l v).lines = s.lines := rfl
@[simp] theorem State.setVreg_dirs (s : State) (c w r l : Nat) (v : Word) : (s.setVreg c w r l v).dirs = s.dirs := rfl
@[simp] theorem State.setVreg_watches (s : State) (c w r l : Nat) (v : Word) : (s.setVreg c w r l v).watches = s.watches := rfl
@[simp] theorem State.setVreg_shoots (s : State) (c w r l : Nat) (v : Word) : (s.setVreg c w r l v).shoots = s.shoots := rfl
@[simp] theorem State.setVreg_pageOps (s : State) (c w r l : Nat) (v : Word) : (s.setVreg c w r l v).pageOps = s.pageOps := rfl
@[simp] theorem State.setVreg_tweaks (s : State) (c w r l : Nat) (v : Word) : (s.setVreg c w r l v).tweaks = s.tweaks := rfl
@[simp] theorem State.setVreg_sseqs (s : State) (c w r l : Nat) (v : Word) : (s.setVreg c w r l v).sseqs = s.sseqs := rfl
@[simp] theorem State.setVreg_birsp (s : State) (c w r l : Nat) (v : Word) : (s.setVreg c w r l v).birsp = s.birsp := rfl
@[simp] theorem State.setVreg_sectors (s : State) (c w r l : Nat) (v : Word) : (s.setVreg c w r l v).sectors = s.sectors := rfl
@[simp] theorem State.setVreg_badLs (s : State) (c w r l : Nat) (v : Word) : (s.setVreg c w r l v).badLs = s.badLs := rfl
@[simp] theorem State.setVreg_badHbm (s : State) (c w r l : Nat) (v : Word) : (s.setVreg c w r l v).badHbm = s.badHbm := rfl
@[simp] theorem State.setVreg_badHall (s : State) (c w r l : Nat) (v : Word) : (s.setVreg c w r l v).badHall = s.badHall := rfl
@[simp] theorem State.setVreg_badArray (s : State) (c w r l : Nat) (v : Word) : (s.setVreg c w r l v).badArray = s.badArray := rfl
@[simp] theorem State.setVreg_corrected (s : State) (c w r l : Nat) (v : Word) : (s.setVreg c w r l v).corrected = s.corrected := rfl
@[simp] theorem State.setVreg_scrub (s : State) (c w r l : Nat) (v : Word) : (s.setVreg c w r l v).scrub = s.scrub := rfl
@[simp] theorem State.setVreg_roots (s : State) (c w r l : Nat) (v : Word) : (s.setVreg c w r l v).roots = s.roots := rfl
@[simp] theorem State.setVreg_keys (s : State) (c w r l : Nat) (v : Word) : (s.setVreg c w r l v).keys = s.keys := rfl
@[simp] theorem State.setVreg_keyLock (s : State) (c w r l : Nat) (v : Word) : (s.setVreg c w r l v).keyLock = s.keyLock := rfl
@[simp] theorem State.setVreg_slots (s : State) (c w r l : Nat) (v : Word) : (s.setVreg c w r l v).slots = s.slots := rfl
@[simp] theorem State.setVreg_regions (s : State) (c w r l : Nat) (v : Word) : (s.setVreg c w r l v).regions = s.regions := rfl
@[simp] theorem State.setVreg_ports (s : State) (c w r l : Nat) (v : Word) : (s.setVreg c w r l v).ports = s.ports := rfl
@[simp] theorem State.setVreg_flights (s : State) (c w r l : Nat) (v : Word) : (s.setVreg c w r l v).flights = s.flights := rfl
@[simp] theorem State.setVreg_rings (s : State) (c w r l : Nat) (v : Word) : (s.setVreg c w r l v).rings = s.rings := rfl
@[simp] theorem State.setVreg_ringTurn (s : State) (c w r l : Nat) (v : Word) : (s.setVreg c w r l v).ringTurn = s.ringTurn := rfl
@[simp] theorem State.setVreg_graphs (s : State) (c w r l : Nat) (v : Word) : (s.setVreg c w r l v).graphs = s.graphs := rfl
@[simp] theorem State.setVreg_tables (s : State) (c w r l : Nat) (v : Word) : (s.setVreg c w r l v).tables = s.tables := rfl
@[simp] theorem State.setVreg_imageBase (s : State) (c w r l : Nat) (v : Word) : (s.setVreg c w r l v).imageBase = s.imageBase := rfl
@[simp] theorem State.setVreg_imageBytes (s : State) (c w r l : Nat) (v : Word) : (s.setVreg c w r l v).imageBytes = s.imageBytes := rfl
@[simp] theorem State.setVreg_pkg (s : State) (c w r l : Nat) (v : Word) : (s.setVreg c w r l v).pkg = s.pkg := rfl
@[simp] theorem State.setVreg_torusX (s : State) (c w r l : Nat) (v : Word) : (s.setVreg c w r l v).torusX = s.torusX := rfl
@[simp] theorem State.setVreg_torusY (s : State) (c w r l : Nat) (v : Word) : (s.setVreg c w r l v).torusY = s.torusY := rfl
@[simp] theorem State.setVreg_mismatched (s : State) (c w r l : Nat) (v : Word) : (s.setVreg c w r l v).mismatched = s.mismatched := rfl
@[simp] theorem State.setVreg_away (s : State) (c w r l : Nat) (v : Word) : (s.setVreg c w r l v).away = s.away := rfl
@[simp] theorem State.setVreg_lag (s : State) (c w r l : Nat) (v : Word) : (s.setVreg c w r l v).lag = s.lag := rfl
@[simp] theorem State.setVreg_exchanged (s : State) (c w r l : Nat) (v : Word) : (s.setVreg c w r l v).exchanged = s.exchanged := rfl
@[simp] theorem State.setVreg_slewed (s : State) (c w r l : Nat) (v : Word) : (s.setVreg c w r l v).slewed = s.slewed := rfl
@[simp] theorem State.setVreg_cap (s : State) (c w r l : Nat) (v : Word) : (s.setVreg c w r l v).cap = s.cap := rfl
@[simp] theorem State.setVreg_islands (s : State) (c w r l : Nat) (v : Word) : (s.setVreg c w r l v).islands = s.islands := rfl
@[simp] theorem State.setVreg_thermal (s : State) (c w r l : Nat) (v : Word) : (s.setVreg c w r l v).thermal = s.thermal := rfl
@[simp] theorem State.setVreg_powerAt (s : State) (c w r l : Nat) (v : Word) : (s.setVreg c w r l v).powerAt = s.powerAt := rfl
@[simp] theorem State.setVreg_fails (s : State) (c w r l : Nat) (v : Word) : (s.setVreg c w r l v).fails = s.fails := rfl
@[simp] theorem State.setVreg_why (s : State) (c w r l : Nat) (v : Word) : (s.setVreg c w r l v).why = s.why := rfl
@[simp] theorem State.setVreg_min (s : State) (c w r l : Nat) (v : Word) : (s.setVreg c w r l v).min = s.min := rfl
@[simp] theorem State.setVreg_up (s : State) (c w r l : Nat) (v : Word) : (s.setVreg c w r l v).up = s.up := rfl
@[simp] theorem State.setVreg_startedAt (s : State) (c w r l : Nat) (v : Word) : (s.setVreg c w r l v).startedAt = s.startedAt := rfl
@[simp] theorem State.setVreg_firmware (s : State) (c w r l : Nat) (v : Word) : (s.setVreg c w r l v).firmware = s.firmware := rfl
@[simp] theorem State.setVreg_staged (s : State) (c w r l : Nat) (v : Word) : (s.setVreg c w r l v).staged = s.staged := rfl
@[simp] theorem State.setVreg_measured (s : State) (c w r l : Nat) (v : Word) : (s.setVreg c w r l v).measured = s.measured := rfl
@[simp] theorem State.setVreg_supervisors (s : State) (c w r l : Nat) (v : Word) : (s.setVreg c w r l v).supervisors = s.supervisors := rfl
@[simp] theorem State.setVreg_discarded (s : State) (c w r l : Nat) (v : Word) : (s.setVreg c w r l v).discarded = s.discarded := rfl
@[simp] theorem State.setVreg_reports (s : State) (c w r l : Nat) (v : Word) : (s.setVreg c w r l v).reports = s.reports := rfl
@[simp] theorem State.setVreg_reportsLost (s : State) (c w r l : Nat) (v : Word) : (s.setVreg c w r l v).reportsLost = s.reportsLost := rfl
@[simp] theorem State.setVreg_msix (s : State) (c w r l : Nat) (v : Word) : (s.setVreg c w r l v).msix = s.msix := rfl
@[simp] theorem State.setVreg_background (s : State) (c w r l : Nat) (v : Word) : (s.setVreg c w r l v).background = s.background := rfl
@[simp] theorem State.setVreg_reply (s : State) (c w r l : Nat) (v : Word) : (s.setVreg c w r l v).reply = s.reply := rfl
@[simp] theorem State.setVreg_spdm (s : State) (c w r l : Nat) (v : Word) : (s.setVreg c w r l v).spdm = s.spdm := rfl
@[simp] theorem State.setVreg_jtag (s : State) (c w r l : Nat) (v : Word) : (s.setVreg c w r l v).jtag = s.jtag := rfl

/-! The field that each writes. -/

@[simp] theorem State.setCore_cores (s : State) (c : Nat) (v : Core) : (s.setCore c v).cores = Sparse.set {} s.cores c v := rfl
@[simp] theorem State.setWave_waves (s : State) (c w : Nat) (v : Wave) :
    (s.setWave c w v).waves = Sparse.set {} s.waves (waveKey c w) v := rfl
@[simp] theorem State.setClimber_climbers (s : State) (c k : Nat) (v : Climber) :
    (s.setClimber c k v).climbers = Sparse.set {} s.climbers (climberKey c k) v := rfl
@[simp] theorem State.setHall_halls (s : State) (h : Nat) (v : Hall) : (s.setHall h v).halls = Sparse.set {} s.halls h v := rfl
@[simp] theorem State.setLine_lines (s : State) (l : Nat) (v : Line) : (s.setLine l v).lines = Sparse.set {} s.lines l v := rfl
@[simp] theorem State.post_agenda (s : State) (op : Instr) (x : Arg) : (s.post op x).agenda = s.agenda ++ [⟨op, x⟩] := rfl
@[simp] theorem State.postAll_agenda (s : State) (ts : List Task) : (s.postAll ts).agenda = s.agenda ++ ts := rfl
@[simp] theorem State.freshId_nextId (s : State) : s.freshId.nextId = s.nextId + 1 := rfl
@[simp] theorem State.setLs_mem (s : State) (c off n v : Nat) : (s.setLs c off n v).mem = Memory.store s.mem (lsKey c off) n v := rfl

end Sys2Proof.Machine
end

