-- ==== Sys2Proof/Tests/Slice0.lean ====
section
/-! SUPPORT. Tests: for every statement with hypotheses a state and operands that meet them, at the values where its clauses
meet; words of the spec and what they decode to; ill-formed terms, which are refused. -/

namespace Sys2Proof.Tests

open Sys2Proof.Machine

set_option Elab.async false

/-! The states of the tests: a wave of 32 lanes and 320 registers on core 0 with a word placed, and a climber of its launch. -/

def waveState : State := { placeWord State.reset 0 with cur := .wave 0 0 0 }

def climberState : State :=
  { ({ placeWord State.reset 0 with climbers := [(0, {})] } : State).setClid 0 0 1 with cur := .climber 0 0 }

/-- The same wave without privilege. -/
def userState : State := { waveState with launches := [{ placedLaunch with sys := false }] }

/-- A register holds one value in every lane. -/
def withReg (r : Nat) (v : Word) (s : State) : State := putLanes s (List.range 32) r fun _ => v

/-- A register pair holds one pointer in every lane. -/
def withPair (r : Nat) (p : DWord) (s : State) : State := putLanes64 s (List.range 32) r fun _ => p

/-- The wave's one split, changed. -/
def withSplit (f : Split → Split) (s : State) : State := s.updSplit 0 0 0 f

def awaiting (a : Await) (s : State) : State := withSplit (fun p => { p with await := a }) s

def issues (i : Instr) (s : State) : Bool := s.cur != .none && (hold i s).isNone

/-- The witnesses say `issues`, which is `Issues` computed. -/
theorem issues_iff (i : Instr) (s : State) : issues i s = true ↔ Issues i s := by
  simp [issues, Issues]

def inv (s : State) : Bool :=
  Memory.wf s.mem && rises s.waves && rises s.climbers && rises s.cores && rises s.halls && rises s.lines && rises s.regs &&
    s.regs.all (fun r => rises r.2) && s.cores.all (fun c => Memory.wf c.2.acc && Memory.wf c.2.latches) &&
    (s.groups ++ s.saved.map (·.group)).all (fun g => g.pair.all fun p => p.check.regs.all fun r => rises r.2)

/-- The same of `inv`. -/
theorem inv_iff (s : State) : inv s = true ↔ s.Inv := by
  simp [inv, State.Inv, State.memWf, and_assoc]
/-! Witnesses: states and operands that meet the hypotheses of the statements. -/

theorem witness_IntegerArithmetic : ∀ i ∈ [Instr.add .none 4 6 8, .sub .none 4 6 8, .addSatI32 .none 4 6 8,
    .subSatI32 .none 4 6 8, .addSatN32 .none 4 6 8, .subSatN32 .none 4 6 8, .addCy .none 4 6 8 10, .cy .none 4 6 8 10,
    .add64 .none 4 6 8, .sub64 .none 4 6 8, .mul .none 4 6 8, .mulhI32 .none 4 6 8, .mulhN32 .none 4 6 8, .mad .none 4 6 8 10,
    .mulwI32 .none 4 6 8, .mulwN32 .none 4 6 8, .madwN32 .none 4 6 8 10, .madwI32 .none 4 6 8 10, .minI32 .none 4 6 8,
    .maxI32 .none 4 6 8, .minN32 .none 4 6 8, .maxN32 .none 4 6 8, .abs .none 4 6, .neg .none 4 6, .sad .none 4 6 8 10,
    .sadN32 .none 4 6 8 10, .and .none 4 6 8, .or .none 4 6 8, .xor .none 4 6 8, .andn .none 4 6 8, .orn .none 4 6 8,
    .lop3 .none 0x96 4 6 8 10], issues i waveState = true := by decide +kernel

theorem witness_BitForms : ∀ i ∈ [Instr.brev .none 4 6, .bfxN32 .none 4 6 8, .bfxI32 .none 4 6 8, .bfi .none 4 6 8 10,
    .bil2 .none 4 6 8, .bil3 .none 4 6 8 10, .bdl3 .none 4 6 8, .bdl2 .none 4 6 8, .shl .none 4 6 8, .shr .none 4 6 8,
    .sra .none 4 6 8, .rol .none 4 6 8, .ror .none 4 6 8, .fsl .none 4 6 8 10, .fsr .none 4 6 8 10, .popc .none 4 6,
    .clz .none 4 6, .ctz .none 4 6], issues i waveState = true := by decide +kernel

theorem witness_Compares : (∀ i ∈ [Instr.icmp .none .ltI .and false 4 6 8 10, .sxt8 .none 4 6, .sxt16 .none 4 6,
    .zxt8 .none 4 6, .zxt16 .none 4 6, .prm .none 4 6 8 10, .bswp .none 4 6, .divI32 .none 4 6 8, .divN32 .none 4 6 8,
    .remI32 .none 4 6 8, .remN32 .none 4 6 8], issues i waveState = true) ∧
    issues (.icmp .none .ltN .and true 3 4 5 2) climberState = true := by decide +kernel

theorem witness_SelectionAndImmediateCompares : (∀ i ∈ [Instr.sel .none 4 6 8 10, .icmpi .none .geN 0xFFFFFFF 4 6],
    issues i waveState = true) ∧ (10 ≤ 10 ∧ 15 < 16) := by decide +kernel

theorem witness_MovesAndImmediates : ∀ i ∈ [Instr.mov .none 4 6, .mov64 .none 4 6, .addi .none 1 4 6, .muli .none 1 4 6,
    .andi .none 1 4 6, .ori .none 1 4 6, .xori .none 1 4 6, .movi .none 1 4, .shli .none 32 4 6, .shri .none 32 4 6,
    .srai .none 32 4 6, .miniI32 .none 1 4 6, .maxiI32 .none 1 4 6, .addi64 .none 1 4 6, .pairWord ⟨.add, 4, 5, false⟩ none,
    .pairWord ⟨.shl, 4, 40, true⟩ (some ⟨.fadd, 5, 6, false⟩)], issues i waveState = true := by decide +kernel

def pointing (p : DWord) : State := withPair 6 p waveState

/-- A core word and an offset at the last value that fits, and the first that does not. -/
theorem witness_Pointers :
    (let s := withReg 6 0x7FFFFFF (withReg 8 0x3FFFFF waveState)
     issues (.mpmk .none 4 6 8) s = true ∧ ∀ l ∈ active s .none, (src s 6 l).toNat < 2 ^ 27 ∧ (src s 8 l).toNat < 2 ^ 22) ∧
    (let s := withReg 6 0x8000000 waveState
     issues (.mpmk .none 4 6 8) s = true ∧ 0 ∈ active s .none ∧ ¬(src s 6 0).toNat < 2 ^ 27) := by decide +kernel

/-- Pointers at the boundaries of R195's causes: kinds 1, 2 and 3, y 19 and 20, offset bit 22, and kind 2 without privilege. -/
theorem witness_Pointers_causes :
    (∀ i ∈ [Instr.mpcore .none 4 6, .mpoff .none 4 6, .mploc .none 4 6], ∀ s ∈ [pointing 0, pointing 0x4000000000000000,
      pointing 0x8000009800000000, pointing 0x800000A000000000, pointing 0xC000000000000000, pointing 0x4000000000400000],
      issues i s = true) ∧
    (let s := withPair 6 0x8000009800000000 userState
     issues (.mpcore .none 4 6) s = true ∧ s.privileged = false) := by decide +kernel

/-- A window of one column: x 0 lies in it and x 1 does not; and a climber. -/
theorem witness_Pointers_mpadd :
    placedGroup.ifw.toNat % 32 = 0 ∧ placedGroup.ifw.toNat / 256 % 64 = 1 ∧ waveState.curGroup = some placedGroup ∧
    (∀ s ∈ [pointing 0x4000000000000000, pointing 0x4000010000000000], issues (.mpadd .none 9 4 6 8) s = true) ∧
    issues (.mpadd .none 9 4 6 8) (withPair 6 0x4000000000000000 climberState) = true := by decide +kernel

theorem witness_FloatForms : (∀ i ∈ [Instr.fadd .none 0 4 6 8, .fsub .none 0 4 6 8, .fmul .none 0 4 6 8, .ffma .none 0 4 6 8 10,
    .ffms .none 0 4 6 8 10, .fnma .none 0 4 6 8 10, .fnms .none 0 4 6 8 10, .fdiv .none 4 6 8, .frcp .none 4 6, .frsq .none 4 6,
    .fsqrt .none 4 6, .fex2 .none 4 6, .flg2 .none 4 6, .fsinp .none 4 6, .fcosp .none 4 6, .ftanh .none 4 6, .fscl .none 4 6 8,
    .ffrac .none 4 6, .frint .none 1 4 6, .fcls .none 4 6, .fcpsgn .none 4 6 8, .fmin .none 4 6 8, .fmax .none 4 6 8,
    .fminp .none 4 6 8, .fmaxp .none 4 6 8, .fcmp .none .lt .none false 4 6 8 0, .hadd .none true 4 6 8, .hsub .none false 4 6 8,
    .hmul .none true 4 6 8, .hfma .none true 4 6 8 10, .hmin .none false 4 6 8, .hmax .none true 4 6 8,
    .dot .none .e2m1 4 6 8 10, .cvt .none 4 0 4 6 0, .qpk .none .e2m1 4 8 16, .qupk .none .e2m1 8 4 16, .mxsc .none .e2m1 4 6],
    issues i waveState = true) ∧
    (∀ k ∈ List.range 27, issues (.cvt .none k 3 4 6 (if k = 8 ∨ k = 9 then 8 else 0)) waveState = true ∨
      issues (.cvt .none k 0 4 6 (if k = 8 ∨ k = 9 then 8 else 0)) waveState = true) ∧
    (∀ t ∈ [DotFmt.bf16, .f16, .e4m3, .e5m2, .e2m1, .i8, .n8, .i4, .n4], issues (.dot .none t 4 6 8 10) waveState = true) ∧
    (∀ q ∈ [QFmt.e4m3, .e5m2, .e2m1, .i8], issues (.qpk .none q 4 8 16) waveState = true ∧
      issues (.qupk .none q 8 4 16) waveState = true) ∧
    (∀ q ∈ [QFmt.e4m3, .e5m2, .e2m1], issues (.mxsc .none q 4 6) waveState = true) ∧
    issues (.fcmp .none .un .none true 2 6 8 0) climberState = true ∧
    ((f32 0x7F800001).isNan = true ∧ (0 : BitVec 8).getLsbD 3 = false ∧ (f32 0x7F800000).isNan = false ∧ (f32 0x7FFFFFFF).isNan = true) := by decide +kernel

theorem witness_LaneForms : ∀ i ∈ [Instr.shfl .none .xor 5 .own 4 6 8, .voteAny .none 4 6, .voteAll .none 4 6, .voteUni .none 4 6,
    .ballot .none 4 6, .matchLanes .none 4 6, .lmask .none 4, .lbelow .none 4, .lcnt .none 4, .lfirst .none 4, .elect .none 4,
    .lred .none .maxN 4 6, .lred .none .fadd 4 6, .lscan .none .addI true 4 6, .lscan .none .fadd false 4 6], issues i waveState = true := by
  decide +kernel

/-- An unprivileged wave with a constant region of 0x100 bytes at 0x50000, and an address in v6. -/
def localState (x : Word) : State :=
  withReg 6 x { userState with groups := [{ placedGroup with cregb := 0x50000, cregl := 0x100 }] }

def fits (x : Word) (i : Instr) : Bool :=
  let s := localState x
  issues i s && (active s .none == List.range 32) && (List.range 32).all fun l => src s 6 l == x && src s 8 l == 0

def loadable (x : Word) : Bool :=
  let s := localState x
  [Instr.ld .none .w 0 4 6, .ldix .none .w 2 4 6 8, .st .none .w 0 6 8, .atl .none .add 0 0 4 6 8].all (fits x) && s.badLs.isEmpty &&
    !s.paired && x.toNat % 4 == 0 && accessOk s true x.toNat 4 && accessOk s false x.toNat 4 && !constWrite s x.toNat 4 &&
    decide (x.toNat + 4 ≤ 0x2F0000)

/-- The first and last words that may be read and written. -/
theorem witness_LocalLoads : loadable 0x40000 = true ∧ loadable 0x2EFFFC = true := by decide +kernel

def constant (x : Word) : Bool :=
  let s := localState x
  fits x (.ldk .none .w 0 4 6) && fits x (.st .none .w 0 6 8) && x.toNat % 4 == 0 && constOk s x.toNat 4 && constWrite s x.toNat 4

/-- The first and last words of the constant region. -/
theorem witness_LocalLoads_ldk : constant 0x50000 = true ∧ constant 0x500FC = true := by decide +kernel

def unreadable (x : Word) : Bool :=
  fits x (.ld .none .w 0 4 6) && fits x (.st .none .w 0 6 8) && (x.toNat % 4 != 0 || !accessOk (localState x) true x.toNat 4)

/-- Privileged code at the ends of the system region, and a wave without privilege in the first and last word of its lease
window, the third of eight; the window beside it is refused. -/
theorem witness_LocalStores_system :
    (∀ x ∈ [0x2F0000, 0x2FFFFC], let s := withReg 6 (BitVec.ofNat 32 x) waveState
      issues (.st .none .w 0 6 8) s = true ∧ s.cur.isClimber = false ∧ s.privileged = true ∧ accessOk s true x 4 = true ∧
        constWrite s x 4 = false ∧ s.badLs = [] ∧ s.paired = false ∧ s.xbnd s.curCore ≤ x) ∧
    (∀ x ∈ [0x2FE100, 0x2FE17C], let s := (localState (BitVec.ofNat 32 x)).updCurWave fun w => { w with leases := [⟨1, 2, 0, 0, true, 0, 0, 0, 0⟩] }
      (∀ i ∈ [Instr.st .none .w 0 6 8, .atl .none .add 0 0 4 6 8], issues i s = true) ∧ s.privileged = false ∧
        (s.curWave.leases.any fun l => l.window == (x - 0x2FE000) / 128) = true ∧ accessOk s false x 4 = true ∧
        accessOk s true x 4 = true ∧ constWrite s x 4 = false ∧ s.badLs = [] ∧ s.paired = false ∧
        (s.curWave.leases.any fun l => l.window == (x + 128 - 0x2FE000) / 128) = false) := by decide +kernel

/-- A misaligned word, and the words just outside the data region. -/
theorem witness_LocalFaults : unreadable 0x40001 = true ∧ unreadable 0x3FFFC = true ∧ unreadable 0x2F0000 = true := by
  decide +kernel

/-- The same for the other forms: a misaligned word, the words just outside their regions, and a constant one. -/
theorem witness_LocalFaults_others :
    (∀ i ∈ [Instr.ldk .none .w 0 4 6, .ldix .none .w 2 4 6 8, .atl .none .add 0 0 4 6 8], fits 0x40001 i = true) ∧
    (∀ x ∈ [0x4FFFC, 0x50100], fits (BitVec.ofNat 32 x) (.ldk .none .w 0 4 6) = true ∧
      constOk (localState (BitVec.ofNat 32 x)) x 4 = false) ∧
    (∀ x ∈ [0x3FFFC, 0x2F0000], ∀ i ∈ [Instr.ldix .none .w 2 4 6 8, .atl .none .add 0 0 4 6 8],
      fits (BitVec.ofNat 32 x) i = true ∧ accessOk (localState (BitVec.ofNat 32 x)) false x 4 = false) ∧
    (fits 0x50000 (.atl .none .add 0 0 4 6 8) = true ∧ accessOk (localState 0x50000) false 0x50000 4 = true ∧
      constWrite (localState 0x50000) 0x50000 4 = true) := by decide +kernel

/-- Lanes 0 to 15 hold all ones in v3, the others 0. -/
def half : State := putLanes waveState (List.range 16) 3 fun _ => 0xFFFFFFFF

def withSplits (d : Nat) (s : State) : State :=
  s.updWave 0 0 fun w => { w with splits := [{ live := true, mask := 0xFFFFFFFF, depth := d }, { live := true }, { live := true },
    { live := true }] }

/-- The split's stack holds one entry. -/
def stacked (e : StackEntry) (s : State) : State := withSplit (fun p => { p with depth := 1 }) (s.setStackEntry 0 0 0 0 e)

def v3 : Guard := ⟨true, false, 3⟩

/-- All lanes of the split active; none; half of them, with a free split, and with none at depth 8 and below. -/
theorem witness_Branches : ∀ i ∈ [Instr.br v3 8 1 false, .call v3 8 1 false 2],
    (let s := withReg 3 1 waveState; issues i s = true ∧ s.curMask &&& ~~~activeMask s v3 = 0) ∧
    (issues i waveState = true ∧ activeMask waveState v3 = 0 ∧ waveState.curMask ≠ 0) ∧
    (issues i half = true ∧ activeMask half v3 = 0xFFFF ∧ half.curMask = 0xFFFFFFFF ∧ half.curSplit.depth ≤ 8 ∧
      freeSplits half.curWave = [1, 2, 3]) ∧
    (∀ d ∈ [7, 8], issues i (withSplits d half) = true ∧ (withSplits d half).curSplit.depth = d ∧
      freeSplits (withSplits d half).curWave = []) := by decide +kernel

/-- Two targets and lanes left behind, no free split: at depth 6 the stack has room for both sets, at depth 7 it has not. -/
theorem witness_IndirectJumps_stack : ∀ d ∈ [6, 7],
    (let s := putLanes (withSplits d half) (List.range 8) 4 fun _ => 64
     issues (.jmpi v3 0 4) s = true ∧ issues (.ret v3 0 4) s = true ∧
       sortNats ((active s v3).map fun l => (src s 4 l).toNat) = [0, 64] ∧ (active s v3).all (fun l => (src s 4 l).toNat % 8 == 0) = true ∧
       s.curMask &&& ~~~activeMask s v3 ≠ 0 ∧ freeSplits s.curWave = [] ∧ s.curSplit.depth = d) := by decide +kernel

/-- One target; no lane; two targets, with lanes left behind; a target that is no multiple of 8. -/
theorem witness_IndirectJumps :
    (let s := withReg 4 64 waveState
     issues (.jmpi .none 0 4) s = true ∧ issues (.ret .none 0 4) s = true ∧ (active s .none).all (fun l => src s 4 l == 64) = true) ∧
    (issues (.jmpi v3 0 4) waveState = true ∧ issues (.ret v3 0 4) waveState = true ∧ active waveState v3 = []) ∧
    (let s := putLanes half (List.range 8) 4 fun _ => 64
     issues (.jmpi v3 0 4) s = true ∧ issues (.ret v3 0 4) s = true ∧
       sortNats ((active s v3).map fun l => (src s 4 l).toNat) = [0, 64] ∧ s.curMask &&& ~~~activeMask s v3 ≠ 0 ∧
       2 ≤ (freeSplits s.curWave).length) ∧
    (let s := withReg 4 4 waveState
     issues (.jmpi .none 0 4) s = true ∧ issues (.ret .none 0 4) s = true ∧ 0 ∈ active s .none ∧ (src s 4 0).toNat % 8 ≠ 0) := by
  decide +kernel

def pathEntry : StackEntry := ⟨0xF0, 1, false, false, 64⟩
def rejoinEntry : StackEntry := ⟨0xF0, 1, true, false, 8⟩
def barEntry : StackEntry := ⟨0xF0, 1, true, true, 8⟩

theorem witness_JoinAndExit :
    (issues (.join 1) waveState = true ∧ topEntry waveState = none) ∧
    (∀ e ∈ [pathEntry, rejoinEntry, barEntry], issues (.join 1) (stacked e waveState) = true ∧
      issues (.join 2) (stacked e waveState) = true ∧ topEntry (stacked e waveState) = some e) ∧
    rejoinEntry.pc = waveState.curPc + 8 ∧ issues (.exit .none) waveState = true ∧ waveState.dfValid 0 0 = false ∧
    (issues (.exit .none) (waveState.setDfr 0 0 1) = true ∧ (waveState.setDfr 0 0 1).dfValid 0 0 = true) := by decide +kernel

/-- A group of `n` waves at a barrier for `n`: one arrival completes the generation when `n` is 1. -/
def groupOf (n : Nat) (s : State) : State :=
  withReg 8 (BitVec.ofNat 32 n) { s with groups := [{ placedGroup with waves := n }] }

theorem witness_GroupBarriers :
    (∀ n ∈ [1, 2], let s := groupOf n waveState
      issues (.barArr 4 6 8) s = true ∧ issues (.barSync 6 8) s = true ∧ arrivalFault s 0 (src s 8 0) = none ∧ src s 6 0 = 0 ∧
        topEntry (arrive 0 n s) = none ∧ decide (barrierGen (arrive 0 n s) 0 = barrierGen s 0) = decide (n = 2)) ∧
    (let s := stacked pathEntry (groupOf 2 waveState)
     issues (.barSync 6 8) s = true ∧ arrivalFault s 0 2 = none ∧ topEntry (arrive 0 2 s) = some pathEntry) ∧
    (let s := stacked barEntry (groupOf 2 waveState)
     issues (.barSync 6 8) s = true ∧ arrivalFault s 0 2 = none ∧ topEntry (arrive 0 2 s) = some barEntry ∧
       barEntry.pc = (arrive 0 2 s).curPc + 8 ∧ barrierGen (arrive 0 2 s) 0 = barrierGen s 0) ∧
    (issues (.barWait 6 8) waveState = true ∧ barrierGen waveState 0 - 0 = 0) ∧
    (let s := withReg 8 0xFFFFFFFF waveState; issues (.barWait 6 8) s = true ∧ barrierGen s 0 - src s 8 0 = 1) ∧
    (let s := withReg 8 0x80000000 waveState; issues (.barWait 6 8) s = true ∧ (barrierGen s 0 - src s 8 0).toNat = 2 ^ 31) ∧
    (let s := withReg 6 16 waveState
     (∀ i ∈ [Instr.barSync 6 8, .barArr 4 6 8, .barWait 6 8], issues i s = true) ∧ s.curGroup = some placedGroup ∧ src s 6 0 = 16) := by
  decide +kernel

def handling : State := waveState.updWave 0 0 fun w => { w with tm := true }
def marking : State := waveState.updCore 0 fun c => { c with sampctl := 3 }

theorem witness_SleepsAndTraps :
    (∀ i ∈ [Instr.slpUntil .none 4, .slpFor .none 4, .yield .none, .nop .none, .mark .none 21, .trap .none 66, .brk .none 7, .eret],
      issues i waveState = true) ∧ (waveState.core 0).sampctl.getLsbD 1 = false ∧ waveState.curWave.tm = false ∧
    (issues (.mark .none 21) marking = true ∧ (marking.core 0).sampctl.getLsbD 1 = true) ∧
    (issues .eret handling = true ∧ handling.curWave.tm = true) := by decide +kernel

theorem witness_TrapEntry : inv waveState = true ∧ inv handling = true ∧ waveState.curWave.tm = false ∧ handling.curWave.tm = true ∧
    waveState.curWave.splits.length = 4 ∧ waveState.curSplit.depth ≤ 8 ∧ waveState.curWave.block = none ∧
    waveState.curSplit.live = true ∧ (8 : Word) ≠ 0 ∧ (0x1C : Nat) < 256 := by decide +kernel

def channelGuard : Guard := ⟨true, false, 5⟩

theorem witness_IssueChecks :
    waveMay 0x69 = false ∧ climberMay 0x59 = false ∧ waveState.cur.isClimber = false ∧ climberState.cur.isClimber = true ∧
    (shapeOf (.hop .none 4)).map (·.maj) = some 0x69 ∧ (shapeOf (.barSync 6 8)).map (·.maj) = some 0x59 ∧
    (∀ sh ∈ (shapeOf (.tlbi .none false 4 8)).toList, illegalHere (.tlbi .none false 4 8) sh userState = false ∧
      needsPrivilege (.tlbi .none false 4 8) sh = true ∧ userState.privileged = false) ∧
    (let s := { waveState with groups := [{ placedGroup with regs := 8 }] }
     ∀ sh ∈ (shapeOf (.mov .none 4 8)).toList, illegalHere (.mov .none 4 8) sh s = false ∧ s.privileged = true ∧
       registersOk sh s = false) ∧
    (let s := waveState.setLs 0 (saveArea 0 + 128) 8 (2 ^ 63)
     s.dmValid 0 0 = true ∧ ∀ sh ∈ (shapeOf (.mxfr .none)).toList, illegalHere (.mxfr .none) sh s = false ∧ registersOk sh s = true ∧
       0x60 ≤ sh.maj ∧ sh.maj ≤ 0x66) ∧
    (∀ sh ∈ (shapeOf (.mov .none 4 8)).toList, illegalHere (.mov .none 4 8) sh waveState = false ∧ registersOk sh waveState = true ∧
      channelsOf sh.srcs = [] ∧ channelsOf sh.dsts = [] ∧ waveState.dmValid 0 0 = false ∧ waveState.curWave.block = none ∧
      waveState.curWave.failed = [] ∧ waveState.pending = [] ∧ activeMask waveState sh.guard ≠ 0) ∧
    (∀ sh ∈ (shapeOf (.mov channelGuard 4 8)).toList, isControl sh.maj = false ∧ activeMask waveState sh.guard = 0) := by
  decide +kernel

def isOk (r : CsrWrite) : Bool := match r with
  | .ok _ => true
  | .error _ => false

/-- Values at the boundaries of what CSRs take. -/
theorem witness_CsrForms : waveState.pending = [] ∧ waveState.curGroup = some placedGroup ∧
    (∀ i ∈ [Instr.csrRd .none 1 4, .csrWr .none 1 4 6, .csrSet .none 1 4 6, .csrClr .none 1 4 6, .csrWr .none 2 4 6], issues i waveState = true) ∧
    isOk (csrWrite 2 0x3FFFF8 waveState) = true ∧ isOk (csrWrite 2 4 waveState) = false ∧
    isOk (csrWrite 0x020 0x3FFF80 waveState) = true ∧ isOk (csrWrite 0x020 0x40 waveState) = false ∧
    isOk (csrWrite 0x022 0x2000 waveState) = true ∧ isOk (csrWrite 0x022 0x2001 waveState) = false ∧
    isOk (csrWrite 0x022 0x11F waveState) = true ∧ isOk (csrWrite 0x022 0x1F waveState) = false ∧
    isOk (csrWrite 0x040 0x1000 waveState) = true ∧ isOk (csrWrite 0x040 0x2EFFFF waveState) = true ∧ isOk (csrWrite 0x060 4 waveState) = false := by decide +kernel

/-- The writes of CSRs as steps are tasks with numbers. -/
def arg (a : Arg) : State := { waveState with cur := .none, arg := a }

theorem witness_CsrWriteSteps : (arg (.nums [0, 0])).arg = .nums [0, 0] ∧ (arg (.nums [0, 0, 0, 8])).arg = .nums [0, 0, 0, 8] ∧
    (arg (.nums [0, 0, 0, 1, 8])).arg = .nums [0, 0, 0, 1, 8] := ⟨rfl, rfl, rfl⟩

/-- The last landing of a local store, a phase to wait for, bytes expected. -/
def landingAt (t : Landing) : State := withReg 4 0x2EFFF0 (waveState.setLanding (lsKey 0 0x2EFFF0) t)

def idle : Landing := ⟨64, 1, 0, false, 0, 64, 1, 0, false⟩

theorem witness_Landings : 0x2EFFF0 % 16 = 0 ∧ waveState.xbnd 0 ≤ 0x2EFFF0 ∧ touchesConst waveState 0 0x2EFFF0 16 = false ∧
    waveState.badLs = [] ∧ waveState.paired = false ∧
    (∀ i ∈ [Instr.lndInit .none 0 4 6 8, .lndArr .none 10 4 6, .lndExp .none 10 4 6, .lndTest .none 10 4 6, .lndWait .none 10 4 6,
      .lndInv .none 10 4], ∀ t ∈ [idle, { idle with flt := true }, { idle with ph := true }], issues i (landingAt t) = true) ∧
    (landingAt idle).landing (lsKey 0 0x2EFFF0) = idle ∧ landingBusy (landingAt idle) (lsKey 0 0x2EFFF0) = false ∧
    (let s := (landingAt idle).updWave 0 0 fun w => { w with ops := [{ id := 1, cls := 2, landing := some 0x40000000002EFFF0 }] }
     issues (.lndInv .none 10 4) s = true ∧ landingBusy s (lsKey 0 0x2EFFF0) = true) := by decide +kernel

theorem witness_LandingUpdates :
    (1 ≤ idle.parr ∧ 64 ≤ idle.pbytes ∧ 63 < idle.pbytes ∧ (idle.parr < 2 ∨ idle.pbytes < 65)) ∧
    (idle.pbytes + (2 ^ 32 - 65) < 2 ^ 32 ∧ 2 ^ 32 ≤ idle.pbytes + (2 ^ 32 - 64)) ∧ idle.flt = false ∧ Memory.wf waveState.mem = true ∧
    idle.ibytes < 2 ^ 32 ∧ idle.iarr < 2 ^ 16 ∧ idle.fidx < 2 ^ 8 ∧ idle.scope < 8 ∧ idle.eng < 2 ^ 9 := by decide +kernel

/-- Core 1 is sealed; privileged code names its landing by a pointer of kind 10. -/
def sealed1 (s : State) : State := s.updCore 1 fun c => { c with sealed := true }

/-- A `twait` of the landing, with a promise of 100. -/
def timed (clk : Nat) (t : Landing) : State := withPair 4 100 (withPair 6 0x40000000002EFFF0 { landingAt t with clk := clk })

theorem witness_TimedWaits :
    (∀ t ∈ [idle, { idle with flt := true }, { idle with ph := true }], ∀ c ∈ [99, 100], issues (.twait .none 10 4 6 8) (timed c t) = true ∧ (timed c t).badLs = [] ∧
      twaitCause (timed c t) 0x40000000002EFFF0 = none ∧
      lsTarget (timed c t) (timed c t).curLid 0x40000000002EFFF0 = some (lsKey 0 0x2EFFF0, 0) ∧
      farCause (timed c t) (lsKey 0 0x2EFFF0) = none) ∧
    (let s := sealed1 (withPair 6 0x80000008002EFFF0 waveState)
     issues (.twait .none 10 4 6 8) s = true ∧ twaitCause s 0x80000008002EFFF0 = none ∧
       lsTarget s s.curLid 0x80000008002EFFF0 = some (lsKey 1 0x2EFFF0, 0) ∧ farCause s (lsKey 1 0x2EFFF0) = some 0x1A) ∧
    (∀ p ∈ [0x10000, 0x40000000002EFFF8, 0x8000BFF8002EFFF0], let s := withPair 6 (BitVec.ofNat 64 p) waveState
     issues (.twait .none 10 4 6 8) s = true ∧ (twaitCause s (BitVec.ofNat 64 p)).isSome = true) ∧
    (let s := withSplit (fun p => { p with park := .waiting 8 }) { waveState with arg := .nums [0, 0, 0] }
     s.arg = .nums [0, 0, 0] ∧ mayIssue s 0 0 0 = true ∧
       wordAt ((s.wave 0 0).splits.getD 0 {}).buf ((s.wave 0 0).splits.getD 0 {}).pc.toNat = some 0) := by decide +kernel

/-- A ring of two 16-byte slots at 0x40000, its slots at 0x40100, with these pointers and attached cursors. -/
def ringAt (rsvp cmtp minc cur : Word) (att : Nat) : State :=
  let w (k : Nat) (v : Word) (s : State) : State := s.setLs 0 (0x40000 + k) 4 v.toNat
  withPair 4 0x4000000000040000 (w 0 (BitVec.ofNat 32 (1 + 0x30 * 0 + att * 256)) (w 4 0x40100 (w 8 rsvp (w 12 cmtp (w 16 cur (w 48 minc waveState))))))

theorem witness_Rings :
    (let s := withReg 6 0x40100 (withReg 4 0x40000 (withReg 8 1 waveState))
     issues (.ringInit .none 0 4 6 8) s = true ∧ ringInitCause s 0x40000 0x40100 1 = none) ∧
    (∀ s ∈ [ringAt 0 0 0 0 0, ringAt 1 0 0 0 1, ringAt 2 0 0 0 1, ringAt 2 0 0 0 255, ringAt 2 1 0 0 1, ringAt 2 0x7FFFFFFF 0 0 1,
        ringAt 2 0x80000000 0 0 1], s.badLs = [] ∧ s.paired = false ∧ ringCause s 0x4000000000040000 = none ∧
      lsTarget s s.curLid 0x4000000000040000 = some (lsKey 0 0x40000, 0) ∧ farCause s (lsKey 0 0x40000) = none ∧
      (∀ i ∈ [Instr.ringRsv .none 10 4, .ringCmt .none 10 4 6, .ringAtt .none 10 4, .ringWait .none 10 4 6, .ringRel .none 10 4 6,
        .ringDet .none 10 4 6], issues i (withReg 6 0 s) = true)) ∧
    (let s := sealed1 (withPair 4 0x8000000800040000 waveState)
     ringCause s 0x8000000800040000 = none ∧ lsTarget s s.curLid 0x8000000800040000 = some (lsKey 1 0x40000, 0) ∧
       farCause s (lsKey 1 0x40000) = some 0x1A ∧ (∀ i ∈ [Instr.ringRsv .none 10 4, .ringCmt .none 10 4 6, .ringAtt .none 10 4,
         .ringWait .none 10 4 6, .ringRel .none 10 4 6, .ringDet .none 10 4 6], issues i s = true)) ∧
    ((ringAt 0 0 0 0 0).ring (lsKey 0 0x40000)).att = 0 ∧
    (let r := (ringAt 1 0 0 0 1).ring (lsKey 0 0x40000); r.att ≠ 0 ∧ (r.rsvp - r.minc).toNat < r.n) ∧
    (let r := (ringAt 2 0 0 0 1).ring (lsKey 0 0x40000); r.att ≠ 0 ∧ r.n ≤ (r.rsvp - r.minc).toNat ∧ attached r 0 = true ∧
      (List.range 8).find? (fun k => !attached r k) = some 1) ∧
    (let r := (ringAt 2 0 0 0 255).ring (lsKey 0 0x40000); ((List.range 8).all fun k => attached r k) = true) ∧
    (let s := withPair 6 0x4000000000040100 (ringAt 2 0 0 0 1)
     issues (.ringCmt .none 10 4 6) s = true ∧ ptrKind (src64 s 6 0) ≠ 2 ∧ sameStore s 0x4000000000040000 (src64 s 6 0) = true) ∧
    (let s := withPair 6 0x4000000800040100 (ringAt 2 0 0 0 1)
     issues (.ringCmt .none 10 4 6) s = true ∧ ptrKind (src64 s 6 0) ≠ 2 ∧ sameStore s 0x4000000000040000 (src64 s 6 0) = false) ∧
    (let s := withReg 6 8 (ringAt 2 1 0 0 1)
     issues (.ringWait .none 10 4 6) s = true ∧ issues (.ringRel .none 10 4 6) s = true ∧ issues (.ringDet .none 10 4 6) s = true) := by
  decide +kernel

/-- Positions 0 and 1 reserved: a commit of the first, of the second, below the slots and past them. -/
theorem witness_RingCommits :
    let s := ringAt 2 0 0 0 1
    let h := lsKey 0 0x40000
    Memory.wf s.mem = true ∧ s.paired = false ∧ mirrorOf s (keyCore h) = none ∧ isLsKey h = true ∧ (s.ring h).ok = true ∧ openPosition s h 0 = some 0 ∧ openPosition s h 1 = some 1 ∧
      (s.ring h).dbase = 0x40100 ∧ (s.ring h).n = 2 ∧ (s.ring h).size = 16 ∧ (1 : Word) ≠ (s.ring h).cmtp ∧ word32 s (seqKey h 0) ≠ 1 ∧
      openPosition (ringAt 0 0 0 0 1) h 0 = none := by decide +kernel

/-- A counter at 0x40000 of this count and state, whose node is 7. -/
def counterAt (cnt : Word) (st : Nat) : State :=
  withReg 4 0x40000 (((waveState.setLs 0 0x40000 4 cnt.toNat).setLs 0 0x40008 1 st).setLs 0 0x4000A 2 7)

/-- The group is an instance of node 7. -/
def nodeGroup : Group := { placedGroup with inst := some ⟨0, 7, 0, 0x40000, 1, 1, 0, 0, 0, [], [], []⟩ }

def decrement (n : Nat) : Msg := { src := ⟨0, 0, false, 0, 1, 8, 0x52⟩, tgt := lsKey 0 0x40000, va := 0x40000, arg := BitVec.ofNat 128 n }

theorem witness_Counters :
    (∀ n ∈ [0, 1], ∀ st ∈ [0, 1], let s := withReg 6 (BitVec.ofNat 32 n) (counterAt 0 st)
      s.badLs = [] ∧ issues (.cntInit .none 10 4 6) s = true ∧ counterTrap s 0x40000 = none ∧ s.curAwait = .none ∧
        counterSt s (lsKey 0 0x40000) = st) ∧
    (issues (.cntInit .none 10 4 5) (setReg 5 1 (setReg 4 0x40000 climberState)) = true ∧
      counterTrap (setReg 4 0x40000 climberState) 0x40000 = none) ∧
    (let s : State := awaiting (.answered 3 0 0) (withReg 6 1 { counterAt 0 0 with groups := [nodeGroup] })
     issues (.cntInit .none 10 4 6) s = true ∧ counterTrap s 0x40000 = none ∧ s.curAwait = .answered 3 0 0 ∧
       (initTarget s (lsKey 0 0x40000) 1).toOption.isSome = true) ∧
    (let s := withReg 6 1 (counterAt 1 1)
     issues (.cntRd .none 10 4) s = true ∧ issues (.cntDec .none 4 6) s = true ∧
       ((active s .none).all fun l => decide ((src s 4 l).toNat % 32 = 0) && accessOk s true (src s 4 l).toNat 4 &&
         (counterTrap s (src s 4 l)).isNone) = true) ∧
    (let s := withReg 6 1 (withPair 4 0x4000000000040000 (counterAt 1 1))
     issues (.cntRdec .none 4 6) s = true ∧ ((active s .none).all fun l => (counterPointer s (src64 s 4 l)).isNone) = true) ∧
    (∀ n ∈ [1, 2, 3], ∀ st ∈ [0, 1], let s : State := { counterAt 2 st with arg := .msg (decrement n) }
      farOff s (decrement n) = false ∧ keyRefuses s (lsKey 0 0x40000) 32 = none ∧ imageFault s (decrement n) = none ∧
        touchedBy s (decrement n) = [] ∧ s.arg = .msg (decrement n) ∧ s.badLs = [] ∧
        (let t := acked (decrement n) (niSet (lsKey 0 0x40000) 4 (2 - BitVec.ofNat 32 n : Word).toNat s)
         counterSt t (lsKey 0 0x40000) = st)) ∧
    (let s : State := { counterAt 2 1 with arg := .msg (decrement 1), cores := [(0, { sealed := true })] }
     farOff s (decrement 1) = true ∧ s.badLs = []) := by decide +kernel

/-- A translated page of device memory whose key slot holds a key: VA 0x10000 at DPA 0x100000. -/
def paged (s : State) : State :=
  { (s.updHall 0 fun h => { h with tlb := [⟨0, 0x10000, 0x10000, 0x100000 + 1024 + 28⟩] }) with keys := [(1, some 0)] }

/-- Every lane names the word at 0x40000 of the local store of its own frame. -/
def near : State := withPair 4 0x4000000000040000 waveState

def full (s : State) : State := s.updWave 0 0 fun w => { w with atms := List.replicate 8 ⟨1, []⟩ }

theorem witness_Atomics :
    (∀ i ∈ [Instr.atm .none .w .add 4 0 10 4 6, .red .none .w .add 4 0 false 4 6], issues i near = true) ∧
    ((active near .none).all fun l => (accessCause near 4 (src64 near 4 l)).isNone) = true ∧ scoreboardFull near = false ∧
    issues (.atm .none .w .cas 4 0 10 4 6) (full near) = true ∧ scoreboardFull (full near) = true ∧
    ((active (full near) .none).all fun l => (accessCause (full near) 4 (src64 (full near) 4 l)).isNone) = true ∧
    (let s := putLanes64 near [31] 4 fun _ => 0x4000000000040002
     issues (.red .none .w .add 4 0 false 4 6) s = true ∧ accessCause s 4 (src64 s 4 31) = some 6 ∧
       ((List.range 31).all fun l => (accessCause s 4 (src64 s 4 l)).isNone) = true) ∧
    (let s := withPair 4 0x1FFFC near; s.paired = false ∧ ptrKind (src64 s 4 0) = 0) ∧
    near.paired = false ∧ lsTarget near near.curLid 0x4000000000040000 = some (lsKey 0 0x40000, 0) := by decide +kernel

theorem witness_PostedStores :
    (issues (.pst .none .w 0 4 6) near = true ∧
      ((active near .none).all fun l => (accessCause near 4 (src64 near 4 l + BitVec.ofInt 64 0)).isNone) = true) ∧
    (let s := withPair 4 0x1FFFC (paged waveState)
     issues (.pub .none .w 0 4 6) s = true ∧ (translateLanes 0 (src64 s 4) (active s .none) s).2.toOption.isSome = true ∧
       (active s .none).all (fun l => walkHere s (src64 s 4 l)) = true ∧
       ((active s .none).all fun l => decide ((src64 s 4 l).toNat < 2 ^ 57) && decide ((src64 s 4 l).toNat % 4 = 0)) = true) ∧
    (∀ p ∈ [0x200000000000000, 0x8000000000040000, 0x1FFFE], ∀ u ∈ [waveState, userState],
     let s := putLanes64 (withPair 4 0x1FFFC (paged u)) [31] 4 fun _ => BitVec.ofNat 64 p
     issues (.pub .none .w 0 4 6) s = true ∧ src64 s 4 31 = BitVec.ofNat 64 p ∧ ((List.range 31).all fun l =>
       decide ((src64 s 4 l).toNat < 2 ^ 57) && decide ((src64 s 4 l).toNat % 4 = 0)) = true) ∧
    userState.privileged = false ∧ waveState.privileged = true ∧
    (∀ n ∈ [0x10000, 0x4000000000040000], let p : DWord := BitVec.ofNat 64 n
     let s := withPair 4 p waveState
     s.paired = false ∧ (List.range 32).find? (fun l => targetLine s (src64 s 4 l) == targetLine s p) = some 0 ∧
       (ptrKind p ≠ 0 → lsTarget s s.curLid p = some (lsKey 0 0x40000, 0) ∧ lsKey 0 0x40000 ≠ farKey)) ∧
    (let s := withPair 4 0x1FFFC (paged waveState)
     (match aim (newOp s (issuerOf s 0x4A 0) 3 0x1FF80 128).2 0x1FF80 needWrite with
      | (u, .ok x) => !u.paired && x.key != farKey
      | (_, .error _) => false) = true) ∧
    (let s : State := { withPair 4 0x1000 waveState with roots := [(0, 0x40000)], lines := [(2048, { state := .filling })] }
     issues (.pub .none .w 0 4 6) s = true ∧ walkHere s (src64 s 4 0) = false ∧
       ((active s .none).all fun l => decide ((src64 s 4 l).toNat < 2 ^ 57) && decide ((src64 s 4 l).toNat % 4 = 0)) = true) := by decide +kernel

/-- An operation of this class, and whether it is complete up to device scope. -/
def busy (cls : Nat) (applied : Bool) : State := waveState.updWave 0 0 fun w => { w with ops := [{ id := 0, cls := cls, applied := applied }] }

theorem witness_Fences :
    (∀ s ∈ [waveState, busy 1 true, busy 1 false, busy 3 false], issues (.fence .none 2 4) s = true ∧ s.cur.isClimber = false) ∧
    issues (.fence .none 2 4) climberState = true ∧ climberState.cur.isClimber = true ∧ waveState.nextId = 1 ∧ (4 : Nat) ≤ 5 ∧
    (let s := waveState.setDfr 0 0 1
     issues (.fence .none 2 4) s = true ∧ fenceMet s 2 4 s.nextId = true ∧ s.dfr 0 0 % 2 = 1) := by decide +kernel

/-- A group whose binding table holds `n` entries of object 0x4000000000040000, and operands of `bind`. -/
def binding (n : Nat) (len : Word) : State :=
  withReg 8 len (withPair 6 0x10000 (withPair 4 0x4000000000040000 (paged { waveState with groups := [{ placedGroup with
    binds := (List.range 16).map fun k => if k < n then ⟨true, 0x4000000000040000, BitVec.ofNat 64 (0x10000 + 256 * k), 256⟩ else {} }] })))

theorem witness_Bindings : ∀ n ∈ [0, 1, 15, 16], ∀ len ∈ [(0 : Word), 128, 256].map (·.toNat),
    let s := binding n (BitVec.ofNat 32 len)
    issues (.bind .none 10 4 6 8) s = true ∧ s.curGroup.isSome = true ∧
      bindTrap s 0x4000000000040000 0x10000 (BitVec.ofNat 32 len) = none ∧ (bindings s).length = 16 ∧
      ((bindings s).all fun e => e.valid) = decide (n = 16) := by decide +kernel

theorem witness_ReleaseAcquire :
    (∀ a ∈ [Await.none, .sent 3, .settling [1], .answered 3 5 0, .answered 3 5 0x1A], ∀ i ∈ [Instr.rel .none 4 10 4, .acq .none 4 10 4 6],
      issues i (awaiting a near) = true ∧ (awaiting a near).curAwait = a) ∧
    (let obj : DWord := 0x4000000000040000
     accessCause near 4 obj = none ∧ ptrKind obj ≠ 0 ∧ lsTarget near near.curLid obj = some (lsKey 0 0x40000, 0) ∧ near.paired = false ∧
       isLsKey (lsKey 0 0x40000) = true ∧ near.dfValid 0 0 = false ∧ releaseIds near (· == obj) = [] ∧ opsDone near [] 4 = true) ∧
    (let s : State := withPair 4 0x4000000000040000 ((binding 1 128).updWave 0 0 fun w => { w with ops := [{ id := 0, cls := 1, va := 0x10000, len := 4 }] })
     issues (.rel .none 4 10 4) s = true ∧ releaseIds s (· == 0x4000000000040000) = [0] ∧ opsDone s [0] 4 = false ∧
       accessCause s 4 0x4000000000040000 = none ∧ (s.curWave.ops.any fun o => o.id == 0 && !completeAt 4 o) = true) := by decide +kernel

/-- Leases of lines 0x2000 and up, the innermost first, with the block open. -/
def leasing (n : Nat) (live : Bool) : State :=
  waveState.updWave 0 0 fun w =>
    { w with leases := (List.range n).map fun k => ⟨k + 1, 1 - k, 0x2001 - k, 1, live, 1, 100, 100, 0⟩, block := some ⟨0, 1, false⟩ }

theorem witness_Leases :
    (∀ a ∈ [Await.sent 3, .answered 3 5 0, .answered 3 5 0x1A], ∀ n ∈ [0, 1],
      issues (.lease .none 0 10 4) (awaiting a (leasing n true)) = true ∧ (awaiting a (leasing n true)).curAwait = a) ∧
    (∀ s ∈ [withPair 4 0x4000000000000000 waveState, withPair 4 0x200000000000000 waveState, withPair 4 0x1FFFFFFFFFFFFFF (leasing 2 true)],
      issues (.lease .none 0 10 4) s = true ∧ s.curAwait = .none) ∧
    ((leasing 2 true).curWave.block.isSome = true ∧ (leasing 2 true).curWave.leases.length = 2) ∧
    (let s := withPair 4 0x8000000000040000 userState
     issues (.lease .none 0 10 4) s = true ∧ s.curAwait = .none ∧ s.privileged = false) ∧
    (let s := withPair 4 0x10004 (waveState.updCore 0 fun c => { c with halted := true })
     issues (.lease .none 0 10 4) s = true ∧ s.curAwait = .none ∧ (s.core s.curCore).halted = true ∧ s.curWave.block = none) ∧
    (let s := withPair 4 0x10004 (paged waveState)
     issues (.lease .none 0 10 4) s = true ∧ s.curAwait = .none ∧ s.curWave.leases = [] ∧ (s.core s.curCore).halted = false ∧ s.paired = false ∧ walkHere s (src64 s 4 0) = true ∧
       (match translate s 0 0 0x10004 needBoth with
         | (t, .ok tr) => dpaPkg tr.dpa == t.pkg && (freePair (t.core 0) 0).isSome
         | (_, .error _) => false) = true) ∧
    issues (.lrel .none 10) waveState = true ∧ waveState.curWave.leases = [] ∧
    (∀ s ∈ [leasing 1 true, leasing 2 true, leasing 1 false, leasing 2 false], ∀ a ∈ [Await.none, .answered 1 1 0, .answered 1 0 0x1A],
      issues (.lrel .none 10) (awaiting a s) = true ∧ (awaiting a s).curAwait = a ∧ s.paired = false ∧ inv s = true) := by decide +kernel

def issuer (maj : Nat) : Issuer := ⟨0, 0, false, 0, 0, 0, maj⟩

/-- A lease message of the wave for the first line of the page. -/
def leaseMsg (id : Nat) : Msg := { src := issuer 0x48, tgt := 0x100000, key := 1, ctx := 0, id := id, kind := 1, arg := 256 }

/-- Its home, with this line there. -/
def home (l : Line) (m : Msg) : State := { (paged waveState).setLine 0x2000 l with arg := .msg m, clk := 50 }

/-- A lease that ends at `n`. -/
def leased (n : Nat) : Line := { state := .clean, tag := 1, key := some 0, lease := some ⟨3, issuer 0x48, n, 0⟩ }

theorem witness_LeaseMessages :
    (let s := home { state := .clean, tag := 1, key := some 0 } (leaseMsg 3)
     inv s = true ∧ partnerOf s (issuer 0x48) = none ∧ (s.core 0).sealed = false ∧ pageGate .leaseRequest (leaseMsg 3) s = none ∧
       (s.line 0x2000).lease = none ∧ (s.line 0x2000).queue = [] ∧ (s.line 0x2000).state = .clean ∧ (s.line 0x2000).tag = 1 ∧
       readFault s 0x100000 1 = none) ∧
    (∀ n ∈ [50, 51], ∀ id ∈ [3, 4], let s := home (leased n) (leaseMsg id)
     inv s = true ∧ pageGate .leaseRequest (leaseMsg id) s = none ∧ (s.line 0x2000).lease = some ⟨3, issuer 0x48, n, 0⟩ ∧ s.reached n = decide (n = 50) ∧
       (s.line 0x2000).queue = [] ∧ readFault s 0x100000 1 = none ∧
       (homeWrite (s.updLine 0x2000 fun x => { x with lease := none }) 0x2000 1 0 [(0x100000, 7)] (issuer 0x48) id).any
         (fun t => (t.line 0x2000).queue.isEmpty) = true) ∧
    (∀ n ∈ [50, 51], let s := home (leased 60) { leaseMsg 3 with due := n }
     inv s = true ∧ (s.line 0x2000).lease = some ⟨3, issuer 0x48, 60, 0⟩ ∧ (s.line 0x2000).queue = [] ∧ s.reached n = decide (n = 50)) ∧
    (let s : State := { home (leased 60) (leaseMsg 3) with badHbm := [(0x100000, 2)] }
     (s.line 0x2000).lease = some ⟨3, issuer 0x48, 60, 0⟩ ∧ (s.line 0x2000).queue = [] ∧ readFault { s with keys := [] } 0x100000 1 ≠ none) ∧
    (∀ q ∈ [[], [(⟨.leaseCommit, .msg (leaseMsg 3)⟩ : Task)]], let s : State := { home (leased 50) (leaseMsg 3) with arg := .nums [0x2000], agenda := q }
     s.arg = .nums [0x2000] ∧ (s.line 0x2000).lease = some ⟨3, issuer 0x48, 50, 0⟩ ∧ s.reached 50 = true ∧ (s.line 0x2000).queue = [] ∧
       commitComing s ⟨3, issuer 0x48, 50, 0⟩ = !q.isEmpty) ∧
    (let s : State := { leasing 1 true with clk := 100, arg := .nums [0, 0] }
     (s.wave 0 0).block = some ⟨0, 1, false⟩ ∧ (s.wave 0 0).tm = false ∧ mayIssue s 0 0 0 = true ∧
       ((s.wave 0 0).splits.getD 0 {}).await = .none ∧
       (s.wave 0 0).leases.any (fun e => e.live && s.reached e.abort) = true ∧
       wordAt ((s.wave 0 0).splits.getD 0 {}).buf ((s.wave 0 0).splits.getD 0 {}).pc.toNat = some 0) := by decide +kernel

def subscribed (s : State) : State := s.updCore 0 fun c => { c with subs := [⟨0x40000, 0x100000, 512, 0x40200, 1, 4⟩] }

/-- A wave with the record 0x40000 of a range at `va` in v4, whose copy is to lie at 0x40200, grain 0 its own. -/
def recorded (va : Nat) (s : State) : State :=
  withReg 4 0x40000 (s.setLs 0 0x40000 32 (va + 2 ^ 64 * 0x40200 + 2 ^ 96 * 512 + 2 ^ 144))

/-- The page of `paged`, homed at this die when `hs` is 1. -/
def homed (hs : Nat) (s : State) : State :=
  { (s.updHall 0 fun h => { h with tlb := [⟨0, 0x10000, 0x10000, BitVec.ofNat 128 (0x100000 + 1024 + hs * 256 + 28)⟩] }) with keys := [(1, some 0)] }

/-- The request of that record at the range's home. -/
def subRequest : Msg :=
  { src := issuer 0x4B, tgt := 0x100000, key := 1, va := 0x40000, arg := 512, kind := 1, id := 1, point := pointOf State.reset 0x100000 (0x100000 + 1024 + 256 + 28) }

/-- Its home, whose directory has an entry of the range, for core 5, and these. -/
def atRange (ds : List Dir) (s : State) : State :=
  { recorded 0x10000 (homed 1 s) with arg := .msg subRequest, dirs := ⟨0x100000, 512, 4, [(5, 0x40000)], false, [], subRequest.point⟩ :: ds }

def subMsg (kind : Nat) : Msg := { src := issuer 0x4C, tgt := lsKey 0 0, va := 0x100000, kind := kind, arg := 5, sz := .d }

theorem witness_Subscriptions :
    (∀ a ∈ [Await.none, .sent 3, .answered 3 5 0, .answered 3 5 0x1A], ∀ i ∈ [Instr.subs .none 10 4, .unsub .none 10 4],
      issues i (awaiting a waveState) = true ∧ (awaiting a waveState).curAwait = a) ∧
    subFormed waveState 0 0 = false ∧ subsHere waveState 0 = [] ∧
    (let s := withReg 4 0x40000 (subscribed waveState)
     issues (.unsub .none 10 4) s = true ∧ s.curAwait = .none ∧ s.paired = false ∧ ((s.core 0).subs.find? fun y => y.record == 0x40000).isSome = true) ∧
    (∀ va ∈ [2 ^ 62, 2 ^ 62 - 1, 2 ^ 57, 0x10000, 0x10100], ∀ hs ∈ [0, 1], let s := recorded va (homed hs waveState)
      issues (.subs .none 10 4) s = true ∧ s.curAwait = .none ∧ subFormed s 0 0x40000 = true ∧ (subRecord s 0 0x40000).va = va ∧
        (va < 2 ^ 57 → walkHere s (BitVec.ofNat 64 va) = true ∧ (match locate s 0 0 va with
          | (t, .ok tr) => !t.paired && dpaSpace tr.dpa == 0 && !pteBit tr.pte 7 && pteHs tr.pte == hs && pteHome tr.pte == coreDie 0 &&
              dpaPkg tr.dpa == t.pkg && decide (va + 512 ≤ tr.page + tr.bytes)
          | (_, .error _) => false) = true)) ∧
    (∀ s ∈ [waveState, subscribed waveState], (s.core 0).sealed = false) ∧
    ((subscribed waveState).core 0).subs.find? (fun u => u.record == 0x40000) = some ⟨0x40000, 0x100000, 512, 0x40200, 1, 4⟩ ∧
    (∀ k ∈ [0, 1, 2], ((subscribed waveState).core (keyCore (subMsg k).tgt)).subs.filter (fun u => u.dpa == (subMsg k).va.toNat) =
      [⟨0x40000, 0x100000, 512, 0x40200, 1, 4⟩]) ∧
    (0x40000 ≠ noRecord) ∧
    (∀ n ∈ [3, 4, 5], newerUpdate ⟨0x40000, 0x100000, 512, 0x40200, 1, 4⟩ n = decide (n = 5)) := by decide +kernel

/-- A request whose range is leased, one that the translation refused, one whose key slot is empty, and one that is taken; a record
that is live, and one whose range overlaps another. -/
theorem witness_Subscriptions_home :
    (∀ s ∈ [atRange [] waveState, atRange [] (subscribed waveState), atRange [⟨0x100100, 512, 4, [], false, [], 0⟩] waveState],
      pageGate .subscriptionControl subRequest s = none ∧ rangeFree s subRequest = true ∧ lineFault s 0x100000 1 = none) ∧
    (let s := (atRange [] waveState).setLine 0x2001 (leased 50)
     pageGate .subscriptionControl subRequest s = none ∧ rangeFree s subRequest = false) ∧
    (let s := atRange [] waveState
     subsStatus s 0 subRequest.point 0x100000 (subRecord s 0 0x40000) = 0 ∧ (s.core 0).subs = [] ∧
       (let u := (rangeLines subRequest).foldl (fun s a => touch (lineOf a) 1 (dieHome subRequest.point a) s) s
        ((u.core 0).subs.isEmpty && subsStatus u 0 subRequest.point 0x100000 (subRecord u 0 0x40000) == 0 &&
          (rangeLines subRequest).all (fun a => (readFault u a 1).isNone) && subFormed u 0 0x40000 &&
          (u.dirOf 0x100000 512).isSome && inv u) = true)) ∧
    (∃ y ∈ ((atRange [] (subscribed waveState)).core 0).subs, y.record = 0x40000) ∧
    (let s := atRange [⟨0x100100, 512, 4, [], false, [], 0⟩] waveState
     subsStatus s 0 subRequest.point 0x100000 (subRecord s 0 0x40000) = 4) := by decide +kernel

/-- An operation on the word at 0x40000, sent by an `atm` or by another message, or by an engine. -/
def wordMsg (sz : Sz) (aop : Aop) (maj : Nat) : Msg := { src := issuer maj, tgt := lsKey 0 0x40000, va := 0x4000000000040000, sz := sz, aop := aop, arg := 5, id := 1 }

def given (m : Msg) (s : State) : State := { s with arg := .msg m }

def sealedCore (s : State) : State := s.updCore 0 fun c => { c with sealed := true }

theorem witness_WordOperations :
    (∀ aop ∈ [Aop.add, .xchg, .and, .minI, .maxN, .cas], ∀ sz ∈ [Sz.w, .d], ∀ imm ∈ [0, 1],
      let m : Msg := { wordMsg sz aop 0x45 with imm := BitVec.ofNat 32 imm }
      let s := given m waveState
      s.arg = .msg m ∧ isLsKey m.tgt = true ∧ touchedBy s m = [] ∧ outside s m = false ∧ mirrorOf s 0 = none ∧ s.badLs = [] ∧
        s.outOfService 0 = false ∧ keyRefuses s m.tgt 8 = none ∧ isAgent m.src = true ∧ m.kind = 0) ∧
    (let m : Msg := { wordMsg .w .add 0x45 with tgt := lsKey 0 0x50000 }
     let s := given m (localState 0)
     s.outOfService 0 = false ∧ s.xbnd 0 ≤ m.tgt % 2 ^ 35 ∧ touchesConst s 0 (m.tgt % 2 ^ 35) 4 = true ∧ touchedBy s m = [] ∧
       outside s m = false ∧ mirrorOf s 0 = none ∧ s.badLs = [] ∧ m.src.slot ≠ niSlot) ∧
    (let m : Msg := { wordMsg .w .add 0x45 with tgt := lsKey 0 0x3FFFC }
     m.tgt % 2 ^ 35 < (given m waveState).xbnd 0 ∧ m.src.slot ≠ niSlot) ∧
    (sealedCore waveState).outOfService 0 = true ∧ touchedBy (sealedCore waveState) (wordMsg .w .add 0x45) = [] ∧
    outside (sealedCore waveState) (wordMsg .w .add 0x45) = false := by decide +kernel

/-- An atomic on a word of the page, by its VA, and at its home. -/
def farMsg (va tgt : Nat) : Msg := { src := issuer 0x45, tgt := tgt, va := BitVec.ofNat 64 va, key := 1, arg := 5, id := 1, imm := 1 }

/-- A line of the first region of the pool, which is online. -/
def poolLine (l : Line) (m : Msg) : State :=
  { (waveState.setLine (2 ^ 48) l) with regions := [(0, BitVec.ofNat 64 (2 ^ 62))], keys := [(1, some 0)], arg := .msg m }

theorem witness_WordOperations_home :
    (∀ va ∈ [0x10000, 0x1FFFC, 0x20000], let m := farMsg va farKey
     let s := given m (paged waveState)
     s.arg = .msg m ∧ m.tgt = 2 ^ 66 ∧ isAgent m.src = true ∧ m.src.slot ≠ niSlot ∧ m.kind = 0 ∧
       (translate s 0 0 va needBoth).2.toOption.isSome = decide (va < 0x20000)) ∧
    (∀ st ∈ [LineState.clean, .dirty, .invalid], ∀ point ∈ [0, 320], let m : Msg := { farMsg 0x10000 0x100000 with point := point }
     let s := home { state := st, tag := 1, key := some 0 } m
     s.arg = .msg m ∧ m.tgt < 2 ^ 56 ∧ ptrKind m.va ≠ 1 ∧ pageGate .atomicRequest m s = none ∧ pageGate .reductionDevice m s = none ∧
       (s.line 0x2000).lease = none ∧ (s.line 0x2000).queue = [] ∧ (s.line 0x2000).state = st ∧ (s.line 0x2000).tag = m.key ∧
       cachable s 0x2000 point = decide (point = 0) ∧ lineFault s 0x100000 1 = none ∧ inv s = true ∧ dpaSpace m.tgt ≠ 2 ∧
       (st ≠ .invalid → readFault (s.updLine 0x2000 fun x => { x with used := s.nonce }) 0x100000 1 = none) ∧
       (st = .invalid → readFault (repairLine 0x2000 s) 0x100000 1 = none ∧ setTaken s (storeHall 0x2000 point) 0x2000 < 16)) ∧
    (∀ st ∈ [LineState.clean, .dirty], let m : Msg := { farMsg 0x10000 (2 ^ 55) with point := 321 }
     let s := poolLine { state := st, tag := 1, key := some 0 } m
     m.tgt < 2 ^ 56 ∧ dpaSpace m.tgt = 2 ∧ ptrKind m.va ≠ 1 ∧ pageGate .atomicRequest m s = none ∧ pageGate .reductionDevice m s = none ∧
       (s.line (2 ^ 48)).lease = none ∧ (s.line (2 ^ 48)).queue = [] ∧ (s.line (2 ^ 48)).tag = m.key ∧ inv s = true ∧
       readFault (s.updLine (2 ^ 48) fun x => { x with used := s.nonce }) m.tgt 1 = none) ∧
    (let m := farMsg 0x10000 0x100000
     let s := home (leased 60) m
     pageGate .atomicRequest m s = none ∧ (s.line 0x2000).lease.isSome = true ∧ (s.line 0x2000).state ≠ .invalid ∧ inv s = true) := by decide +kernel

/-- A line written by the wave. -/
def writeMsg : Msg := { src := issuer 0x47, tgt := 0x100000, va := 0x10000, key := 1, bytes := [(0x100000, 7)], id := 1 }

def lineState (st : LineState) : Line := { state := st, tag := 1, key := some 0 }

theorem witness_LineWrites :
    (∀ l ∈ [lineState .clean, lineState .dirty, lineState .invalid, leased 60], let s := home l writeMsg
      s.arg = .msg writeMsg ∧ writeMsg.tgt < 2 ^ 56 ∧ ptrKind writeMsg.va ≠ 1 ∧ pageGate .postedStore writeMsg s = none ∧
        pageGate .publishWrite writeMsg s = none ∧ s.line 0x2000 = l ∧ lineFault s 0x100000 1 = none ∧ l.queue = [] ∧ inv s = true ∧
        cachable s 0x2000 writeMsg.point = true ∧ (writeMsg.bytes.map (·.1)).eraseDups.length ≠ 128 ∧
        (l.state = .invalid → setTaken s (storeHall 0x2000 0) 0x2000 < 16) ∧ (l.lease.isSome = true → l.state ≠ .invalid)) ∧
    (∀ st ∈ [LineState.clean, .dirty], (homeWrite (home (lineState st) writeMsg) 0x2000 1 0 [(0x100000, 7)] (issuer 0x47) 1).isSome = true) ∧
    (let m : Msg := { writeMsg with tgt := lsKey 0 0x40000, bytes := [(lsKey 0 0x40000, 7)] }
     let s := given m waveState
     touchedBy s m = [] ∧ outside s m = false ∧ mirrorOf s 0 = none ∧ s.badLs = [] ∧ s.outOfService 0 = false ∧
       (m.bytes.all fun c => (keyRefuses s c.1 1).isNone) = true ∧ m.bytes.head?.map (·.1) = some m.tgt ∧ isAgent m.src = true) := by
  decide +kernel

theorem witness_HomeWrites :
    poisonedLine (home (lineState .poisoned) writeMsg) 0x2000 = true ∧ (([(0x100000, 7)] : List Host.Cell).map (·.1)).eraseDups.length < 128 ∧
    (∀ ds ∈ [[], [⟨0x100000, 512, 3, [(0, 0x40000)], false, [], 0⟩]], ∀ point ∈ [0, 320],
      let s : State := { home (lineState .clean) writeMsg with dirs := ds }
      poisonedLine s 0x2000 = false ∧ (s.line 0x2000).key = s.keyOf 1 ∧ s.writer 0x2000 = 0x2000 ∧ cachable s 0x2000 point = decide (point = 0) ∧
        (s.line 0x2000).state ≠ .invalid ∧ inv s = true) := by decide +kernel

/-- Sectors of the line in error, and its line being filled. -/
def filling (e : Nat) : State :=
  { home (lineState .filling) writeMsg with badHbm := if e = 0 then [] else [(0x4001, e)], arg := .nums [0x2000, 0] }

def watchMsg (target : Word) : Msg := { wordMsg .w .add 0x4D with imm := target, kind := 1, point := 400 }

theorem witness_LineEvents :
    (∀ e ∈ [0, 2], let s := filling e
      s.arg = .nums [0x2000, 0] ∧ (s.line 0x2000).state = .filling ∧ (s.line 0x2000).queue = [] ∧ inv s = true ∧
        Sparse.get 0 s.badHbm 0x4001 = e ∧ Sparse.get 0 s.badHbm 0x4000 = 0) ∧
    (let s : State := { home (lineState .dirty) writeMsg with arg := .nums [0x2000, 1] }
     s.arg = .nums [0x2000, 1] ∧ (s.line 0x2000).state = .dirty ∧ linkUp s 0x2000 = true ∧ (s.line 0x2000).unwritten = [] ∧ (s.line 0x2000).owed = [] ∧ inv s = true) ∧
    (Sparse.get 0 ({ filling 1 with arg := .nums [0x4001] } : State).badHbm 0x4001 = 1) ∧ Sparse.get 0 (filling 0).badHbm 0x4001 = 0 ∧
    ({ waveState with arg := .error (.localStore 8192) true } : State).arg = .error (.localStore 8192) true ∧
    (∀ t ∈ [watchMsg 0, watchMsg 0x80000001, watchMsg 0x80000000], let s := given t waveState
      s.reached t.due = true ∧ isLsKey t.tgt = true ∧ outside s t = false ∧ targetSealed s t = false ∧ keyRefuses s t.tgt 4 = none ∧ s.badLs = [] ∧
        (s.watches.filter fun x => x.point == t.point).length < 64) ∧
    ((0 : Word) - 0x80000001).toNat < 2 ^ 31 ∧ 2 ^ 31 ≤ ((0 : Word) - 0x80000000).toNat ∧
    (let s : State := { waveState with watches := [⟨lsKey 0 0x40000, 0, 400, 0, issuer 0x4D, 9⟩], arg := .nums [9] }
     (s.watches.find? fun x => x.id == 9).isSome = true ∧ watchMet (watchWord s (lsKey 0 0x40000) 0) 0 = true) ∧
    (isAgent (issuer 0x45) = true ∧ partnerOf waveState (issuer 0x45) = none ∧ (issuer 0x45).slot ≠ niSlot) := by decide +kernel

/-- Replies to a wave of a slot that no group holds. -/
def orphan (m : Msg) : State :=
  { waveState.updWave 0 0 (fun w => { w with atms := [⟨2, [129]⟩], ops := [{ id := 1, cls := 1 }] }) with groups := [], arg := .msg m }

theorem witness_Replies :
    (∀ k ∈ [0, 1], ∀ n ∈ [2, 3], let m : Msg := { wordMsg .w .add 0x45 with kind := k, group := n, dst := [129] }
      let s := orphan m
      s.arg = .msg m ∧ inv s = true ∧ m.src.climber = false ∧ m.src.slot < 16 ∧ partnerOf s m.src = none ∧ s.groupOf 0 0 = none ∧
        (s.core 0).sealed = false ∧ (sealedCore s).arg = .msg m ∧ ((sealedCore s).core 0).sealed = true ∧ inv (sealedCore s) = true ∧
        awaits m.group m.dst (s.wave 0 0).atms = decide (n = 2) ∧ hasOp m.id (s.wave 0 0).ops = true ∧ s.dfValid 0 0 = false) := by
  decide +kernel

/-- A copy of this many bytes between two places of the local store, submitted by the wave; this many bytes issued. -/
def copying (n issued : Nat) : CopyCmd :=
  { id := 0, hall := 0, src := issuer 0x53, ctx := 0, priv := true, lid := 1, kind := .linear, from_ := 0x4000000000040000
    to_ := 0x4000000000050040, bytes := n, issued := issued, landing := none }

/-- Operands of `cp`: two pointers, a length, no landing. -/
def copyOperands (n : Word) (s : State) : State := withReg 9 0 (withReg 8 n (withPair 6 0x4000000000050040 (withPair 4 0x4000000000040000 s)))

def queued (cs : List CopyCmd) (s : State) : State := s.updHall 0 fun h => { h with queue := cs }

/-- The wave's own entry and all shared ones are taken. -/
def engineFull : State := queued (copying 1 0 :: List.replicate 256 { copying 1 0 with shared := true }) waveState

theorem witness_CopyInstructions :
    (∀ a ∈ [Await.sent 3, .answered 3 5 0], ∀ i ∈ [Instr.cp .none false false 10 4 6 8, .cpg .none 2 10 4 6 8, .cpt .none .add 10 4 6 8,
      .collAllred .none 10 4, .collRedsct .none 10 4, .collAllgat .none 10 4, .collBcast .none 10 4],
      issues i (awaiting a waveState) = true ∧ (awaiting a waveState).curAwait = a) ∧
    (∀ n ∈ [0, 1, 0x2EFFFF - 0x50040 + 1], let s := copyOperands (BitVec.ofNat 32 n) waveState
      issues (.cp .none false false 10 4 6 8) s = true ∧ s.curAwait = .none ∧ copyPointerCause s 0x4000000000040000 n = none ∧
        copyPointerCause s 0x4000000000050040 n = none ∧ (src s 9 0).toNat = 0 ∧ inv s = true ∧ s.paired = false ∧
        freeEntry s 0 0 0 false = some false ∧ s.curWave.ops = []) ∧
    (let s := copyOperands 1 engineFull
     issues (.cp .none false false 10 4 6 8) s = true ∧ freeEntry s 0 0 0 false = none) ∧
    (let s := withPair 4 0xC000000000000000 (copyOperands 1 waveState)
     issues (.cp .none false false 10 4 6 8) s = true ∧ copyPointerCause s 0xC000000000000000 1 = some (0x17, 0xC000000000000000)) ∧
    issues (.cpqSt .none 10) waveState = true ∧ issues (.cpqFr .none true 10 4) waveState = true ∧
    issues (.cpqFr .none false 10 4) waveState = true ∧ issues (.cpqCnl .none 10 4) (landingAt idle) = true ∧
    (let s := withPair 4 0x4000000000040000 (queued [copying 1 0] waveState)
     issues (.cpqCnl .none 10 4) s = true ∧ twaitCause s 0x4000000000040000 = none ∧
       ((queuedHere s ++ waitingHere s).all fun e => e.landing.isNone) = true) ∧
    (let s := withPair 4 0x8000000000040008 waveState
     issues (.cpqCnl .none 10 4) s = true ∧ (twaitCause s 0x8000000000040008).isSome = true) := by decide +kernel

/-- A copy with the landing of `landingAt`, held by the engine or on its way to it. -/
def landed (queued_ : Bool) : State :=
  let c : CopyCmd := { copying 1 0 with landing := some 0x40000000002EFFF0 }
  let s : State := waveState.updWave 0 0 fun w => { w with ops := [{ id := 0, cls := 2, landing := c.landing }] }
  withPair 4 0x40000000002EFFF0 (if queued_ then queued [c] s else { s with agenda := [⟨.copyAccept, .copy c⟩] })

theorem witness_CopyInstructions_cancel : ∀ b ∈ [true, false], let s := landed b
    issues (.cpqCnl .none 10 4) s = true ∧ twaitCause s 0x40000000002EFFF0 = none ∧ (queuedHere s).length = b.toNat ∧
      (waitingHere s).length = (!b).toNat ∧ (queuedHere s ++ waitingHere s).all (fun e => e.landing.isSome &&
        landingKey s e == (lsTarget s s.curLid (src64 s 4 0)).map (·.1) && e.stop.isNone && e.written.isNone && !copyApplied s e) = true := by
  decide +kernel

/-- A wave that may submit a copy: with an entry of its own, and a shared one. -/
def submits (s : State) : Bool :=
  s.curAwait == .none && !s.cur.isClimber && decide (s.cur.slot < 16) && !s.paired

/-- `cp` to a landing, a misaligned one, a ring of its destination's core, and a ring with a device destination. -/
theorem witness_CopyInstructions_cp :
    (∀ land ∈ [(0x2EFFF0, false), (0x2EFFF8, true)], let s := withReg 9 (BitVec.ofNat 32 land.1) (copyOperands 1 waveState)
      submits s = true ∧ issues (.cp .none true false 10 4 6 8) s = true ∧ copyPointerCause s 0x4000000000040000 1 = none ∧
        copyPointerCause s 0x4000000000050040 1 = none ∧ (landingTrap s (landingPointer s 0x4000000000050040 land.1) land.1).isSome = land.2) ∧
    (∀ n ∈ [0, 1], let s := copyOperands (BitVec.ofNat 32 n) waveState
      submits s = true ∧ issues (.cp .none false true 10 4 6 8) s = true ∧ freeEntry s 0 0 0 false = some false) ∧
    (let s := withPair 6 0x10000 (copyOperands 1 waveState)
     submits s = true ∧ issues (.cp .none false true 10 4 6 8) s = true ∧ copyPointerCause s 0x10000 1 = none ∧ ptrKind (src64 s 6 0) = 0) ∧
    (let s := withPair 6 0xC000000000000000 (copyOperands 1 waveState)
     submits s = true ∧ issues (.cp .none false false 10 4 6 8) s = true ∧ (copyPointerCause s 0xC000000000000000 1).isSome = true) := by
  decide +kernel

/-- `cpg` of words: without a landing, with one, with a misaligned one; and without a free entry. -/
theorem witness_CopyInstructions_cpg :
    (∀ land ∈ [(0, false), (0x2EFFF0, false), (0x2EFFF8, true)], let s := copyOperands (BitVec.ofNat 32 land.1) waveState
      submits s = true ∧ issues (.cpg .none 0 10 4 6 8) s = true ∧ freeEntry s 0 0 0 false = some false ∧
        ((active s .none).all fun l => (copyPointerCause s (src64 s 4 l) 4).isNone && (copyPointerCause s (src64 s 6 l) 4).isNone &&
          decide ((src64 s 4 l).toNat % 4 = 0) && decide ((src64 s 6 l).toNat % 4 = 0)) = true ∧
        (landingTrap s (ownPointer s land.1) land.1).isSome = land.2) ∧
    issues (.cpg .none 0 10 4 6 8) (copyOperands 0 engineFull) = true ∧ freeEntry (copyOperands 0 engineFull) 0 0 0 false = none := by
  decide +kernel

/-- A shape of 2 by 2 words at 0x60000, or one with this first word; its sides at these offsets. -/
def shaped (w : Nat) (p q : Nat) (s : State) : State :=
  withReg 4 0x60000 (withPair 6 (BitVec.ofNat 64 (0x4000000000040000 + p)) (withPair 8 (BitVec.ofNat 64 (0x4000000000050000 + q))
    (s.setLs 0 0x60000 32 (w + 2 ^ 64 + 2 ^ 80 + 2 ^ 136 * 8 + 2 ^ 196 * 4))))

theorem witness_CopyInstructions_cpt :
    (∀ pq ∈ [(0, 0), (2, 0), (0, 2)], ∀ f ∈ [waveState, engineFull], let s := shaped 0x14 pq.1 pq.2 f
      let v : BitVec 256 := BitVec.ofNat 256 (s.ls 0 0x60000 32)
      submits s = true ∧ issues (.cpt .none .add 10 4 6 8) s = true ∧ recordOk s 0x60000 32 = true ∧ shapeOk v = true ∧ s.badLs = [] ∧
        copyPointerCause s (src64 s 6 0) (tileSpan v 136) = none ∧ copyPointerCause s (src64 s 8 0) (tileSpan v 196) = none ∧
        typeBytes (shapeType v) = 4 ∧ landingTrap s (landingPointer s (src64 s 8 0) 0) 0 = none) ∧
    (∀ w ∈ [0x19, 0x54, 0x04], shapeOk (BitVec.ofNat 256 ((shaped w 0 0 waveState).ls 0 0x60000 32)) = false) ∧
    issues (.cpt .none .add 10 4 6 8) (shaped 0x19 0 0 waveState) = true ∧ recordOk waveState 0x60010 32 = false ∧
    recordOk waveState 0x2F0000 32 = false ∧ recordOk waveState 0x2EFFE0 32 = true := by decide +kernel

/-- A collective's descriptor at 0x60000: this many words of a table in which this package is the second of two ranks. -/
def gathered (op n : Nat) (s : State) : State :=
  withReg 4 0x60000 { s.setLs 0 0x60000 64 (0x4000000000040000 + 2 ^ 64 * 0x4000000000050000 + 2 ^ 160 * n + 2 ^ 192 * 5 + 2 ^ 196 * op) with
    tables := [(0, Members.of 1 [(5, true), (0, true)])] }

theorem witness_CopyInstructions_coll : ∀ i ∈ [Instr.collAllred .none 10 4, .collRedsct .none 10 4, .collAllgat .none 10 4, .collBcast .none 10 4],
    (∀ n ∈ [1, 0x10000], ∀ f ∈ [waveState, engineFull], let s := gathered 0 n f
      submits s = true ∧ issues i s = true ∧ recordOk s 0x60000 64 = true ∧ collOk s (s.ls 0 0x60000 64) = true ∧ s.badLs = [] ∧
        copyPointerCause s 0x4000000000040000 (8 * n) = none ∧ copyPointerCause s 0x4000000000050000 (8 * n) = none ∧
        landingTrap s (ownPointer s 0) 0 = none) ∧
    (let s := gathered 6 1 waveState; issues i s = true ∧ collOk s (s.ls 0 0x60000 64) = false) ∧
    freeEntry waveState 0 0 0 true = some true ∧ freeEntry engineFull 0 0 0 true = none := by decide +kernel

/-- The line of a copy that is on its way. -/
def copyMsg (kind id : Nat) : Msg :=
  { src := issuer 0x53, tgt := lsKey 0 0x50040, va := 0x4000000000050040, bytes := [(lsKey 0 0x50040, 7)], id := id, kind := kind, arg := 1
    ctx := 1, anch := 0x40000000002EFFF0 }

theorem witness_CopyEngines :
    (let s : State := { waveState with arg := .copy (copying 1 0) }
     s.stopped 0 = false ∧ (copying 1 0).tuple = none ∧ ptrKind (copying 1 0).from_ ≠ 0 ∧ ptrKind (copying 1 0).to_ ≠ 0) ∧
    (State.stopped ({ waveState.updCore 0 (fun c => { c with halted := true }) with arg := .copy (copying 1 0) } : State) 0 = true) ∧
    nextCopy waveState 0 = none ∧ overCopy waveState 0 = none ∧
    overCopy (queued [{ copying 1 1 with stop := some (0, 1, 0, 0) }] waveState) 0 = some { copying 1 1 with stop := some (0, 1, 0, 0) } ∧
    (∀ o ∈ [0, 64, 199], let s := queued [copying 200 o] waveState
     nextCopy s 0 = some (copying 200 o) ∧ overCopy s 0 = none ∧ s.inDomain 0 = true ∧ s.outOfService 0 = false ∧
       lsTarget s 1 ((copying 200 o).from_ + BitVec.ofNat 64 o) = some (lsKey 0 (0x40000 + o), 0) ∧
       lsTarget s 1 ((copying 200 o).to_ + BitVec.ofNat 64 o) = some (lsKey 0 (0x50040 + o), 0) ∧ (s.core 0).sealed = false ∧ s.badLs = [] ∧
       s.xbnd 0 ≤ 0x50040 + o ∧ 0x50040 + o + 64 ≤ 0x2F0000) ∧
    (∀ k ∈ [0, 1], ∀ t ∈ [[], [(⟨.copyLineWrite, .msg (copyMsg 0 0)⟩ : Task)]],
     let c : CopyCmd := { copying 1 1 with landing := if k = 1 then some 0x40000000002EFFF0 else none }
     let s : State := { given (copyMsg k 0) (queued [c] waveState) with agenda := t }
     isLsKey (copyMsg k 0).tgt = true ∧ outside s (copyMsg k 0) = false ∧ targetSealed s (copyMsg k 0) = false ∧ (copyMsg k 0).bytes ≠ [] ∧
       commitFree s c = true ∧ orderedHeld s c = false ∧ unwrittenBy s c.src c.id = false ∧ c.bytes ≤ c.issued ∧ ((copyMsg k 0).bytes.all fun x => (mirrorOf s (keyCore x.1)).isNone) = true ∧
       s.badLs = [] ∧ (copyMsg k 0).imm = 0 ∧ inFlight s 0 = !t.isEmpty ∧ findCopy s 0 0 = some c ∧
       landingKey s c = (if k = 1 then some (lsKey 0 0x2EFFF0) else none) ∧ lsTarget s 1 (copyMsg k 0).anch = some (lsKey 0 0x2EFFF0, 0) ∧
       findCopy s 0 9 = none ∧ c.moved = [] ∧ c.kind = .linear ∧ ptrKind c.to_ ≠ 0 ∧ lsTarget s c.lid c.to_ = some (lsKey 0 0x50040, 0) ∧
       farCause s (lsKey 0 0x50040) = none) ∧
    (let m : Msg := { writeMsg with scope := lsKey 0 0x50000 }
     let s := home (lineState .clean) m
     pageGate .copyReadRequest m s = none ∧ (s.line 0x2000).state = .clean ∧ (s.line 0x2000).tag = m.key ∧ (s.line 0x2000).queue = [] ∧
       readFault (s.updLine 0x2000 fun x => { x with used := s.nonce }) m.tgt m.key = none) := by
  decide +kernel

/-- A collective queued at the engine, and a write of the wave to its source that is not complete. -/
def collecting (busy : Bool) : State :=
  let c : CopyCmd := { copying 64 0 with id := 2, kind := .coll 0 0x4000000000040000, prior := [1] }
  let s := queued [c] waveState
  if busy then s.updWave 0 0 fun w => { w with ops := [{ id := 1, cls := 1, va := 0x1003F, len := 4 }] } else s

theorem witness_Collectives :
    (∀ b ∈ [false, true], let s := given { src := issuer 0x56, id := 2 } (collecting b)
      (findCopy s 0 2).isSome = true ∧ (findCopy s 0 2).all (fun c => c.kind == .coll 0 0x4000000000040000 && c.stop.isNone && c.written.isNone && collReady s c == !b) = true) ∧
    (let c : CopyCmd := { copying 64 0 with id := 2, kind := .coll 0 0x4000000000040000, written := some (0, [0], 0) }
     let s := queued [c] waveState
     findCopy s 0 2 = some c ∧ c.stop = none ∧ collReady s c = true ∧ (members s (bitsAt (descBits s c 0x4000000000040000) 200 8)).epoch = 0) ∧
    (let c : CopyCmd := { copying 64 0 with id := 2, kind := .coll 0 0x4000000000040000, stop := some (0, 2, 0, 0) }
     findCopy (queued [c] waveState) 0 2 = some c) ∧
    findCopy waveState 0 2 = none ∧ (5 : Nat) < 6 ∧ (8 : Nat) < 9 ∧ bitsAt 0 196 4 ≠ 6 := by decide +kernel

/-- The launch has a third level, of scope 4 and extent 1. -/
def tall (s : State) : State :=
  { s with launches := [{ placedLaunch with record := placedLaunch.record ^^^ BitVec.ofNat 1024 (2 ^ 8 + (1 + 4 * 2 ^ 24) * 2 ^ 640) }] }

def cbar (expect : Nat) (arrived : List (Nat × Nat × Word)) (replies : List (Nat × Nat × Bool × Word)) : Cbar := ⟨1, 2, 0, 0, expect, 1, arrived, replies⟩

def combining (a : Await) (replied : Bool) : State :=
  awaiting a { tall waveState with cbars := [cbar 2 [] (if replied then [(0, 0, false, 7)] else [])] }

theorem witness_CombiningBarriers :
    (∀ sc ∈ [4, 5], ∀ s ∈ [combining .none false, combining (.sent 3) true, combining (.sent 3) false], ∀ i ∈ [Instr.cbarSync .none (BitVec.ofNat 3 sc) 10,
      .cbarMax .none (BitVec.ofNat 3 sc) 10 4, .cbarMaxn .none (BitVec.ofNat 3 sc) 10 4, .cbarAdd .none (BitVec.ofNat 3 sc) 10 4,
      .cbarMin .none (BitVec.ofNat 3 sc) 10 4],
      issues i s = true ∧ s.curGroup = some placedGroup ∧ s.curLaunch.isSome = true ∧
        activeMask s .none = s.curWave.launchMask &&& ~~~s.curWave.exited ∧
        (s.curLaunch.bind fun l => levelOf l.record sc) = (if sc = 4 then some 2 else none)) ∧
    (combining .none false).curAwait = .none ∧ (combining (.sent 3) true).curAwait = .sent 3 ∧
    ((combining (.sent 3) true).cbars.head?.bind fun e => e.replies.head?) = some (0, 0, false, 7) ∧
    (combining (.sent 3) true).curLaunch.any (fun l => (combining (.sent 3) true).cbars.find? (fun e => e.lid == l.lid && e.level == 2 &&
      e.unit == unitOf l.record 2 0) == some (cbar 2 [] [(0, 0, false, 7)])) = true ∧
    (let s := tall half
     issues (.cbarSync v3 4 10) s = true ∧ activeMask s v3 ≠ s.curWave.launchMask &&& ~~~s.curWave.exited) := by decide +kernel

def arrival (kind : Nat) : Msg := { src := { issuer 0x59 with lane := 1 }, ctx := 1, reason := 2, va := 0, arg := 0, kind := kind, imm := 5 }

theorem witness_BarrierArrivals :
    ∀ n ∈ [2, 3], ∀ k ∈ [1, 3], let s := given (arrival k) { tall waveState with cbars := [cbar n [(0, 0, 9)] []] }
      s.arg = .msg (arrival k) ∧ (s.launch? 1).isSome = true ∧ s.cbars = [cbar n [(0, 0, 9)] []] ∧ (cbar n [(0, 0, 9)] []).arrived ≠ [] ∧
        ((cbar n [(0, 0, 9)] []).sub = (arrival k).kind ↔ k = 1) ∧
        ((cbar n [(0, 0, 9)] []).expect = 2 ↔ n = 2) := by decide +kernel

/-- Every form has a state in which it completes, and an arrival one in which it opens a generation. -/
theorem witness_CombiningCompletions :
    (∀ i ∈ [Instr.cbarSync .none 4 10, .cbarMax .none 4 10 4, .cbarMaxn .none 4 10 4, .cbarAdd .none 4 10 4, .cbarMin .none 4 10 4],
      let s := combining (.sent 3) true
      issues i s = true ∧ activeMask s .none = s.curWave.launchMask &&& ~~~s.curWave.exited ∧ s.curGroup = some placedGroup ∧
        (s.curLaunch.any fun l => levelOf l.record 4 == some 2 && decide (l ∈ s.launches)) = true ∧ s.curAwait = .sent 3) ∧
    (∀ k ∈ [0, 3], let s := given (arrival k) (tall waveState)
      s.arg = .msg (arrival k) ∧ (s.launch? 1).isSome = true ∧ s.cbars = [] ∧ (s.launch? 1).any (fun l => unitWaves s l 2 0 == 1) = true) ∧
    (let s := given (arrival 3) { (tall waveState).setWave 0 1 (placedWave 0) with groups := [{ placedGroup with slots := [0, 1], waves := 2 }] }
     (s.launch? 1).any (fun l => unitWaves s l 2 0 == 2) = true) := by decide +kernel

/-- The wave holds banks 0 and 1 and the matrix turn; format words of i8 with i32 and of f16 with f32 in r12 and r14. -/
def matrix (ms : List Mma) : State :=
  withReg 12 0x466 ((waveState.updWave 0 0 fun w => { w with acc := (0, 2) }).updCore 0 fun c => { c with turn := some 0, mma := ms })

def product (half nc : Bool) : Mma := ⟨0, 0x466, 1, 1, 0, 0, false, true, half, nc, 0xFFFF, 0⟩

/-- The wave in a slot has asked its core's allocator for a bank. -/
def bankAsked (slot : Nat) : State := waveState.updCore 0 fun c => { c with accWait := [(slot, 1)] }

theorem witness_MatrixBanks :
    (∀ s ∈ [awaiting (.sent 3) (matrix []), awaiting (.sent 3) (bankAsked 0), bankAsked 0, matrix [], waveState, withReg 4 1 waveState, withReg 4 16 waveState,
      withReg 4 17 waveState, withReg 4 1 (waveState.updCore 0 fun c => { c with turn := some 0 })], issues (.mxal .none 4) s = true) ∧
    (matrix []).curWave.acc.2 ≠ 0 ∧ waveState.curWave.acc.2 = 0 ∧ (waveState.core 0).turn = none ∧
    issues (.mxfr .none) (matrix []) = true ∧ issues (.mxfr .none) (matrix [product true false]) = true ∧ (product true false).slot = 0 ∧
    ((matrix []).core 0).mma = [] ∧ (waveState.core 0).accWait = [] ∧ ((bankAsked 0).core 0).accWait.any (fun q => q.1 == 0) = true ∧
    (bankAsked 0).curWave.acc.2 = 0 ∧
    (let s : State := { (matrix []).updCore 0 (fun c => { c with accWait := [(1, 14)] }) with arg := .nums [0] }
     inv s = true ∧ (s.core 0).accWait = [(1, 14)] ∧ freeRun s 0 14 = some 2) := by decide +kernel

theorem witness_MatrixTurn :
    (∀ s ∈ [matrix [], waveState], ∀ i ∈ [Instr.turnTake .none, .turnGive .none, .turnWho .none 10], issues i s = true) ∧
    ((matrix []).core 0).turn = some 0 ∧ ((matrix []).wave 0 0).gid = (matrix []).curWave.gid ∧ (waveState.core 0).turn = none ∧
    0 ∉ (waveState.core 0).turnWait ∧
    (let s := waveState.updCore 0 fun c => { c with turn := some 1 }
     issues (.turnWho .none 10) s = true ∧ (s.core 0).turn = some 1 ∧ (s.wave 0 1).gid ≠ s.curWave.gid) ∧
    (let s := waveState.updCore 0 fun c => { c with turnWait := [0] }
     (s.core 0).turn = none ∧ (s.core 0).turnWait = [0]) := by decide +kernel

/-- Base and stride of rows that end with the data area. -/
def rows (base stride : Word) : State := withReg 6 stride (withReg 4 base (matrix []))

def inRows (s : State) (n : Nat) : Bool :=
  (List.range 64).all fun i => (let p := (src s 4 0 + BitVec.ofNat 32 i * src s 6 0).toNat
                                p % 32 == 0 && decide (p + n ≤ 0x2F0000) && accessOk s false p n)

theorem witness_LatchLoads :
    (let s := rows 0x2EF000 64
     inv s = true ∧ s.badLs = [] ∧ (s.core 0).turn = some 0 ∧ s.cur = .wave 0 0 0 ∧ inRows s 64 = true ∧ (src s 6 0).toNat % 32 = 0 ∧
       (∀ x ∈ [0, 3, 4, 7], latchBusy s x = false ∧ issues (.mxl .none (BitVec.ofNat 3 x) false 0 4 6) s = true) ∧
       issues (.mxl .none 3 true 0 4 6) s = true ∧
       ((List.range 64).all fun i => (let p := (src s 4 0 + BitVec.ofNat 32 (4 * i)).toNat
                                      decide (p + 4 ≤ 0x2F0000) && accessOk s false p 4) = true)) ∧
    (let s := rows 0x2EE000 128
     issues (.mxl .none 3 true 1 4 6) s = true ∧ inRows s 128 = true) ∧
    (let s := withReg 6 0x2EFFC0 (withReg 4 0x40000 (matrix []))
     issues (.mxg .none 1 4 6) s = true ∧ latchBusy s 1 = false ∧
       ((active s .none).all fun l => (src s 4 l).toNat % 32 == 0 && accessOk s false (src s 4 l).toNat 64 && (src s 6 l).toNat % 32 == 0 &&
         accessOk s false (src s 6 l).toNat 64 && decide ((src s 6 l).toNat + 64 ≤ 0x2F0000)) = true) ∧
    issues (.mxl .none 3 false 0 4 6) (rows 0x2EF000 16) = true ∧ issues (.mxl .none 4 false 0 4 6) (rows 0x2EF010 64) = true := by decide +kernel

theorem witness_MatrixMultiply :
    (∀ ms ∈ [[], [product true false, product true false]], let s := withReg 13 1 (matrix ms)
      issues (.mma .none false false false false false false 12 13) s = true ∧ activeMask s .none = s.curWave.launchMask ∧
        voteTrap s (active s .none) 12 = none ∧ (bankOf s .none 13).toOption = some 1 ∧ (s.core 0).turn = some 0 ∧
        (s.core 0).mma.length = ms.length) ∧
    (let s := withReg 13 1 ((matrix []).updWave 0 0 fun w => { w with splits := w.splits.map fun p => { p with mask := p.mask &&& 0xFFFF } })
     issues (.mma .none false false false false false false 12 13) s = true ∧ activeMask s .none ≠ s.curWave.launchMask) ∧
    (let s := withReg 12 0xFFFF (matrix [])
     issues (.mma .none false false false true false false 12 13) s = true ∧ voteTrap s (active s .none) 12 = some (0x1B, 0xFFFF)) ∧
    (∀ e ∈ [0, 2], ∀ k ∈ [0, 16], let m : Mma := { product true false with slot := k }
      let s : State := { matrix [m] with arg := .nums [0], badArray := if e = 0 then [] else [(0, 2)] }
      inv s = true ∧ (s.core 0).mma = [m] ∧ Sparse.get 0 s.badArray 0 = e) ∧
    ((matrix []).core 0).mma = [] ∧ fwA 0x466 = 6 ∧ fwB 0x466 = 6 ∧ fwAcc 0x466 = 1 := by decide +kernel

/-- Split 0 runs these lanes. -/
def narrowed (m : Word) (s : State) : State := withSplit (fun p => { p with mask := m }) s

theorem witness_AccumulatorMoves :
    (∀ q ∈ [0, 15, 16], let s := withReg 13 1 (withReg 8 (BitVec.ofNat 32 q) (matrix []))
     issues (.mxr .none 16 13 8) s = true ∧ issues (.mxw .none 16 13 8) s = true ∧ issues (.mxz .none 13) s = true ∧ inv s = true ∧
        (bankOf s .none 13).toOption = some 1 ∧ bankBusy s 1 = false ∧ s.cur ≠ .none ∧ (src s 8 0).toNat = q) ∧
    fwAcc 0 = 0 ∧ fwAcc 0x400 = 1 ∧ fwSat 0x4400 = true ∧ fwAcc 0x4400 = 1 := by decide +kernel

def mxsReady (m : Nat) : State :=
  narrowed (BitVec.ofNat 32 m) (withReg 13 1 (withReg 8 0x2EFF00 (withReg 9 0x40000 (matrix []))))

theorem witness_AccumulatorMoves_store : ∀ m ∈ [0xFFFFFFFF, 1], let s := mxsReady m
    s.curSplit.mask.toNat = m ∧ inv s = true ∧ s.badLs = [] ∧ issues (.mxs .none 4 12 13 8) s = true ∧
      voteTrap s (active s .none) 12 = none ∧ mxsBytes 4 = 4 := by decide +kernel

theorem witness_AccumulatorMoves_bytes : ∀ m ∈ [0xFFFFFFFF, 1], ∀ r ∈ [8, 9], let s := mxsReady m
    (src s r 0).toNat % 32 = 0 ∧ (src s r 0).toNat + 256 ≤ 0x2F0000 ∧
      accessOk s false (src s r 0).toNat 256 = true ∧ constWrite s (src s r 0).toNat 256 = false := by decide +kernel

/-- The launch serves graph 0, whose node 7 has this record; the group is its instance or is none, and the wave holds these credits. -/
def graphed (record : Nat) (inst : Bool) (credits : Nat) : State :=
  let s := (paged waveState).setLine 0x2001 { state := .clean, tag := 1, key := some 0 }
  withReg 4 7 (withReg 6 1 ({ s with
    mem := Memory.store s.mem 0x1000E0 8 record
    launches := [{ placedLaunch with record := placedLaunch.record ^^^ BitVec.ofNat 1024 (2 ^ 26) }]
    groups := [if inst then { placedGroup with inst := some ⟨0, 7, 0, 0x40000, 6, 1, 0, 0, 0, [], [], []⟩ } else placedGroup]
    graphs := [(0, { va := 0x10000, ctx := 0, count := 8 })] }.updWave 0 0 fun w => { w with resv := if credits = 0 then [] else [⟨7, 1, credits⟩] }))

theorem witness_GraphSends :
    (∀ i ∈ [Instr.graphRsv .none false 10 4 6 8, .emit .none 10 4 6, .emith .none 10 4 6 8, .gdone .none 4],
      (let s := withReg 4 8 (graphed 0x600 true 0)
       issues i s = true ∧ s.curLaunch.isSome = true ∧ nodeFree s 0 0 8 = true ∧ (nodeRecord s 0 0 8).isNone = true) ∧
      (let s : State := { graphed 0x600 true 0 with roots := [(0, 0x40000)], lines := [(2048, { state := .filling })]
                                                    graphs := [(0, { va := 0x400000, ctx := 0, count := 8 })] }
       issues i s = true ∧ s.curLaunch.any (fun l => recGn l.record && recGslot l.record == 0) = true ∧ nodeFree s 0 0 7 = false) ∧
      (∀ r ∈ [0x600, 3, 5], ∀ a ∈ [Await.none, .sent 3, .answered 3 0 0],
        let s := awaiting a (graphed r true 0)
        let t := (readNode s 0 0 7).1
        issues i s = true ∧ nodeFree s 0 0 7 = true ∧ (nodeRecord s 0 0 7).any (fun n => n.kind == r % 16) = true ∧
          s.curLaunch.any (fun l => recGn l.record && recGslot l.record == 0) = true ∧ inv t = true ∧ t.paired = false ∧ t.curAwait = a)) ∧
    fixedKind 5 = true ∧ fixedKind 3 = true ∧ fixedKind 0 = false ∧
    (let s := (readNode (graphed 0x600 true 0) 0 0 7).1
     (chooseInst s 0 7).isSome = true ∧ resvRoom s 1 = true ∧ (instances s 0 7).length = 1) ∧
    (let s := (readNode (graphed 0x600 false 0) 0 0 7).1
     chooseInst s 0 7 = none ∧ instances s 0 7 = [] ∧ instAt s 0 7 0 = none) ∧
    (∀ n ∈ [0, 65], let s := withReg 6 (BitVec.ofNat 32 n) (graphed 0x600 true 0)
      issues (.graphRsv .none false 10 4 6 8) s = true ∧ (n = 0 ∨ 2 ^ 6 < n)) ∧
    (let s := graphed 0x600 true 32
     let t := (readNode s 0 0 7).1
     issues (.emit .none 10 4 6) s = true ∧ issues (.emith .none 10 4 6 8) s = true ∧ t.curAwait = .none ∧ entryAt t 1 = some ⟨7, 1, 32⟩ ∧
       entryFor t 7 = some ⟨7, 1, 32⟩ ∧ (instanceOf t 1).isSome = true ∧ (instAt t 0 7 0).isSome = true ∧
       ((active t .none).filter fun k => src t 9 k != 0xFFFFFFFF).length = 32 ∧
       (instanceOf t 1).all (fun q => opsDone t (emitWaits t (namesRing q)) 5) = true) := by decide +kernel

/-- A message about the instance of group 1. -/
def instMsg (kind n due : Nat) : Msg := { src := issuer 0x6A, tgt := lsKey 0 0, group := 1, kind := kind, arg := BitVec.ofNat 128 n, id := 3, due := due }

/-- An instance without free slots, and `n` waves whose splits wait at rings of the core. -/
def crowded (n : Nat) : State :=
  let i : Inst := ⟨0, 7, 0, 0x40000, 6, 1, 0, 64, 0, [], [], []⟩
  let v : Wave := { splits := List.replicate 4 { await := .atRing 0 } }
  { graphed 0x600 true 0 with groups := [{ placedGroup with inst := some i }], waves := (List.range n).map fun w => (w, v) }

theorem witness_GraphMessages :
    (let s := given (instMsg 0 1 0) (graphed 0x600 false 0)
     instSealed s 1 = false ∧ instanceOf s 1 = none) ∧
    (∀ k ∈ [0, 3, 4], let s := given (instMsg k 32 0) (graphed 0x600 true 0)
      instSealed s 1 = false ∧ s.groups.length = 1 ∧ s.saved = [] ∧ niWaiters s 0 < 64 ∧ isAgent (instMsg k 32 0).src = true ∧
        (instanceOf s 1).any (fun q => q.2.waiters.isEmpty && decide (32 ≤ freeSlots s q)) = true) ∧
    (∀ n ∈ [15, 16], let s := given (instMsg 0 1 0) (crowded n)
      instSealed s 1 = false ∧ s.groups.length = 1 ∧ s.saved = [] ∧ niWaiters s 0 = 4 * n ∧
        (instanceOf s 1).any (fun q => freeSlots s q == 0) = true) ∧
    waveState.reached (instMsg 0 1 0).due = true ∧ waveState.reached (instMsg 0 1 1).due = false ∧
    (let s := graphed 0x600 true 0
     let h := lsKey 0 0x40000
     Memory.wf s.mem = true ∧ (instanceOf s 1).bind (fun q => partKey s q.1 q.2.ringa) = some h ∧ mirrorOf s (keyCore h) = none ∧ isLsKey h = true ∧
       isLsKey (h + 64 + 20 * 2 ^ 6) = true ∧ keyCore (h + 64 + 20 * 2 ^ 6) = keyCore h) := by decide +kernel

/-- An instance whose ring holds `n` committed records that wait, one `take` in line. -/
def taking (n : Nat) (takers : List Nat) : State :=
  let s := graphed 0x600 true 0
  { (s.setLs 0 0x4000C 4 n) with groups := [{ placedGroup with
      coalt := 4096, inst := some ⟨0, 7, 0, 0x40000, 6, 2, 0, 0, 0, (List.range n).map fun k => (k, 0), takers, []⟩ }] }

theorem witness_Takes :
    (∀ s ∈ [{ waveState with groups := [] }, waveState, taking 0 [], taking 1 [], taking 2 [], { taking 1 [] with clk := 4096 }],
      issues (.take .none 8) s = true ∧ s.saved = [] ∧ s.badLs = []) ∧
    ({ waveState with groups := [] } : State).curGroup = none ∧ waveState.curGroup = some placedGroup ∧ placedGroup.inst = none ∧
    (∀ n ∈ [1, 2], ((taking n []).curGroup.bind fun g => g.inst.bind fun i => partKey (taking n []) g i.ringa) = some (lsKey 0 0x40000) ∧
      (word32 (taking n []) (lsKey 0 0x4000C) - word32 (taking n []) (lsKey 0 0x40010)).toNat = n) ∧
    ((residents waveState 0).all fun g => g.inst.isNone) = true ∧
    (let s : State := { taking 1 [0] with arg := .nums [0, 7] }
     (residents s 0).length = 1 ∧ s.issuing 0 = true ∧ mayIssue (withSplit (fun p => { p with park := .waiting 13 }) s) 0 0 0 = true ∧
       wordAt ((s.wave 0 0).splits.getD 0 {}).buf ((s.wave 0 0).splits.getD 0 {}).pc.toNat = some 0) := by decide +kernel

/-- Treelet 5 lies at the start of the local store, and record 0 is current; the climber waits so or not. -/
def climbing (t : Trav) (f : Climber → Climber) : State :=
  setReg 11 5 (setTrav t ((climberState.updCore 0 fun c => { c with treelets := [(5, 0, 0)] }).updClimber 0 0 f))

def root0 : Trav := ⟨0, 0, 0, 0, 0⟩

/-- The record in hand is all zero, as the local store is. -/
def probing : State := climbing root0 fun c => { c with probe := some (1, 0) }

/-- A ray along z through the triangle (0,0,1), (1,0,1), (0,1,1). -/
def triangle : BitVec 512 :=
  BitVec.ofNat 512 (0x3F800000 * 2 ^ 64 + 0x3F800000 * 2 ^ 96 + 0x3F800000 * 2 ^ 160 + 0x3F800000 * 2 ^ 224 + 0x3F800000 * 2 ^ 256 + 2 ^ 353)

def hitting : State :=
  setReg 0 0x3E800000 (setReg 1 0x3E800000 (setReg 2 0 (setReg 3 0 (setReg 4 0 (setReg 5 0x3F800000 (setReg 6 0 (setReg 7 0x7F800000
    (climbing root0 fun c => { c with probe := some (1, triangle) }))))))))

theorem witness_Traversal :
    (∀ s ∈ [climberState, probing, hitting, climbing root0 id, climbing { root0 with nloc := 1 } id, climbing { root0 with nlnk := 1 } id,
      setReg 23 5 (climbing { root0 with nlnk := 1 } id)],
      s.cur = .climber 0 0 ∧ s.badLs = [] ∧ Memory.wf s.mem = true ∧ issues (.nbox .none 4) s = true ∧ issues (.ntri .none 4) s = true ∧
        issues (.nlink .none) s = true) ∧
    recordAddr climberState = none ∧ recordAddr probing = some 0 ∧ probing.curClimber.probe = some (1, 0) ∧ probing.ls 0 56 2 = 0 ∧
    probing.ls 0 46 2 = 0 ∧ (climbing root0 id).curClimber.probe = none ∧
    (triTest (probing.updCurClimber fun v => { v with probe := none }) 0).isNone = true ∧ bitsAt triangle.toNat (8 * 46) 16 = 0 ∧
    hitting.ls 0 46 2 = 0 ∧ (triTest (putPred (hitting.updCurClimber fun v => { v with probe := none }) 15 false) triangle.toNat).isSome = true ∧
    bitsAt triangle.toNat 352 1 = 0 ∧ predBit hitting 4 = false ∧
    (curTrav (climbing { root0 with nloc := 1 } id)).loc ≠ 0 ∧ (curTrav (climbing root0 id)).loc = 0 ∧ (curTrav (climbing root0 id)).lnk = 0 ∧
    (let s := climbing { root0 with nlnk := 1 } id
     (curTrav s).loc = 0 ∧ (curTrav s).lnk ≠ 0 ∧ treeletAt s 0 ((curReg s 23).toNat % 2 ^ 22) = none ∧ s.curClimber.await = .none) ∧
    (let s := setReg 23 5 (climbing { root0 with nlnk := 1 } id)
     (curTrav s).lnk ≠ 0 ∧ (treeletAt s 0 ((curReg s 23).toNat % 2 ^ 22)).isSome = true) := by decide +kernel

/-- A core of the frame other than its own. -/
def wide (s : State) : State := { s with frames := [⟨1, 0, 0, none⟩, ⟨1, 1, 1, none⟩] }

theorem witness_Hops :
    (∀ x ∈ [0, 1, 2, 2 ^ 27], let s := setReg 2 (BitVec.ofNat 32 x) (wide climberState)
      s.cur = .climber 0 0 ∧ issues (.hop .none 2) s = true ∧ (src s 2 0).toNat = x ∧ settledHere s = true) ∧
    (wide climberState).frameOf (wide climberState).curLid 0 = some 0 ∧ (wide climberState).frameOf (wide climberState).curLid 1 = some 1 ∧
    (wide climberState).frameOf (wide climberState).curLid 2 = none ∧ waveState.cur.isClimber = false ∧
    (let s := (wide climberState).updClimber 0 0 fun c => { c with ops := [{ id := 1, cls := 1 }] }
     issues (.hop .none 2) s = true ∧ settledHere s = false) := by decide +kernel

/-- A climber with a candidate latched, its anchor record at 0x40000 of its core. -/
def latching (time : Word) (sent : Nat) : State :=
  setReg 9 0x40000000 (setReg 8 0x40000 (putPred (climbing { root0 with ncand := sent } fun c => { c with latch := some (time, 0, 7) }) 12 true))

theorem witness_HitInstructions :
    (∀ s ∈ [climberState, latching 0x7F800000 0, latching 0x3F800000 15, latching 0x3F800000 14], s.cur = .climber 0 0 ∧
      issues (.cand .none) s = true ∧ issues (.rsync .none) s = true ∧ issues (.fin .none) s = true ∧ settledHere s = true) ∧
    predBit climberState 12 = false ∧ predBit (latching 0x3F800000 15) 12 = true ∧ (curTrav (latching 0x3F800000 15)).ncand = 15 ∧
    (curTrav (latching 0x3F800000 14)).ncand = 14 ∧ (latching 0x3F800000 14).curClimber.latch = some (0x3F800000, 0, 7) ∧
    (let s := latching 0x3F800000 14
     anchorKey s s.curLid (anchorOf s 0 0) = some (lsKey 0 0x40000) ∧ anchorKey s (s.clid 0 0) (anchorOf s 0 0) = some (lsKey 0 0x40000) ∧
       isLsKey (lsKey 0 0x40000) = true) ∧
    (∀ a ∈ [Await.none, .sent 3, .answered 3 5 0], let s := climberState.updClimber 0 0 fun c => { c with await := a }
      issues (.rsync .none) s = true ∧ s.curClimber.await = a) ∧
    (let s := climberState.updClimber 0 0 fun c => { c with ops := [{ id := 1, cls := 1 }] }
     issues (.fin .none) s = true ∧ settledHere s = false) := by decide +kernel

def anchors : Anchors := ⟨0x50000, 32, 8, 9, 10, 0, 0, 0, 0x10000, 8, 0x100000, 0x10000⟩

/-- The group traces rays; record 0 of its table has this STATE. -/
def tracing (st : Nat) : State :=
  ({ waveState with groups := [{ placedGroup with anchors := some anchors }] } : State).setLs 0 0x5000C 1 st

/-- Each lane's record. -/
def lanesOf (s : State) : State := withReg 9 8 (putLanes s (List.range 32) 6 fun l => BitVec.ofNat 32 (0x50000 + 32 * l))

def rayMsg (point : Nat) : Msg := { src := .device, tgt := lsKey 0 0, id := 1, point := point, bytes := [(0, 1)] }

theorem witness_RayPlacement :
    (let s := lanesOf (tracing 0)
     s.badLs = [] ∧ issues (.climb .none 10 16 6 8) s = true ∧ s.curGroup.bind (·.anchors) = some anchors ∧
       ((active s .none).all fun l => (src s 6 l).toNat % 32 == 0 && decide (anchors.base ≤ (src s 6 l).toNat) &&
         decide ((src s 6 l).toNat < anchors.base + 32 * anchors.count)) = true ∧ (src s 9 0).toNat % 8 = 0 ∧
       anchorLive s (lsKey 0 0x50000) = false ∧ badRay (fun j => src s (16 + j) 0) (src s 8 0) = false) ∧
    anchorLive (lanesOf (tracing 1)) (lsKey 0 0x50000) = true ∧ badRay (fun _ => 0x7FC00000) 0 = true ∧
    (let s := given (rayMsg 0) waveState
     savedAt s 1 0 = none ∧ (s.core 0).sealed = false ∧ (s.launch? 1).any (fun l => l.phase == .running) = true ∧ s.launch? 2 = none) ∧
    ((sealedCore waveState).core 0).sealed = true ∧ (waveState.core 0).spill = [] ∧ (waveState.core 0).hbmSpill = [] ∧
    raySlot waveState 0 1 = some 0 ∧
    (let s : State := { waveState with groups := [{ placedGroup with cslot := 256 }, { placedGroup with lid := 2 }] }
     raySlot s 0 2 = none ∧ (s.core 0).spill = []) ∧
    (let s : State := { climberState.updCore 0 (fun c => { c with placedQ := [0] }) with arg := .nums [0] }
     (s.core 0).placedQ = [0] ∧ (s.core 0).active.length < 16 ∧ s.issuing 0 = true) ∧
    (let s : State := { (climberState.updClimber 0 0 fun c => { c with buf := [(0, 0)] }).updCore 0 (fun c => { c with active := [0] }) with arg := .nums [0] }
     s.issuing 0 = true ∧ (s.core 0).active.find? (climberReady s 0) = some 0 ∧ (s.climber 0 0).failed = none ∧ (s.cpc 0 0).toNat < s.xbnd 0 ∧
       wordAt (s.climber 0 0).buf (s.cpc 0 0).toNat = some 0 ∧ inv s = true) ∧
    (let s : State := { waveState.updCore 0 (fun c => { c with spill := [1] }) with arg := .nums [0] }
     (s.core 0).spill = [1] ∧ raySlot s 0 1 = some 0 ∧ inv s = true) ∧
    (let s : State := { waveState.updCore 0 (fun c => { c with hbmSpill := [1], spillBase := 0x100000, spillBytes := 4096 }) with arg := .nums [0] }
     mayReload s 0 = true) ∧
    (∀ e ∈ [0, 2], let s : State := { waveState.updCore 0 (fun c => { c with hbmSpill := [1], spillBase := 0x100000, spillBytes := 4096 }) with
        arg := .nums [0], keys := [(0, some 0)], badHbm := if e = 0 then [] else [(0x4000, e)] }
     mayReload s 0 = true ∧ (readFault (touch (hbmAddr (s.core 0) 0 / 128) 0 (pointOf s (hbmAddr (s.core 0) 0) 0) s)
       (hbmAddr (s.core 0) 0) 0).isSome = decide (e = 2)) ∧
    (let s := home (lineState .clean) writeMsg
     homeWrite s (writeMsg.tgt / 128) 0 (pointOf s writeMsg.tgt 0) writeMsg.bytes .device 0).isSome = true := by decide +kernel

def hitMsg : Msg := { src := .device, tgt := lsKey 0 0x50000, anch := 0x4000000000050000, arg := 5, imm := 1 }

theorem witness_AnchorMessages :
    (∀ st ∈ [0, 1, 2], let s := given hitMsg (tracing st)
      s.badLs = [] ∧ Memory.wf s.mem = true ∧ targetSealed s hitMsg = false ∧ (anchorGroup s hitMsg.tgt 0x50000).isSome = true ∧
        hitMsg.anch.toNat % 2 ^ 35 = 0x50000 ∧ anchorLive s hitMsg.tgt = decide (st ≠ 0) ∧ hitMsg.imm.msb = false ∧
        pendOf s hitMsg.tgt = 0 ∧ mirrorOf s 0 = none) ∧
    (let s := given hitMsg waveState
     targetSealed s hitMsg = false ∧ anchorGroup s hitMsg.tgt 0x50000 = none ∧
       (residents s (keyCore hitMsg.tgt)).all (fun g => g.anchors.isNone) = true) ∧
    targetSealed (sealedCore waveState) hitMsg = true ∧ isLsKey (lsKey 0 0x50000 + 12) = true ∧
    (let s : State := given hitMsg { tracing 1 with groups := [{ placedGroup with
        anchors := some anchors, inst := some ⟨0, 8, 0, 0x40000, 6, 1, 0, 0, 0, [], [], []⟩ }] }
     (s.groups.head?.bind fun g => (instOnCore s g anchors.ahit).bind fun q => putRecord q.1.gid 5 s).isSome = true) := by decide +kernel

/-- Context 0 maps VA 0x10000 to DPA 0x100000 by four tables, and the launch's canopy table lies there. -/
def mapped : State :=
  let clean (tag : Nat) : Line := { state := .clean, tag := tag, key := some 0 }
  let put (k v : Nat) (m : List Host.Cell) : List Host.Cell := Memory.store m k 16 v
  { waveState with
    roots := [(0, 0x80000)], keys := [(0, some 0), (1, some 0)]
    lines := [(0x1000, clean 0), (0x1400, clean 0), (0x1800, clean 0), (0x1A00, clean 0), (0x2000, clean 1), (0x2020, clean 1), (0x203F, clean 1)]
    mem := put 0x80000 0xA0001 (put 0xA0000 0xC0001 (put 0xC0000 0xD0001 (put 0xD0010 (0x100000 + 1024 + 256 + 31) waveState.mem)))
    groups := [{ placedGroup with anchors := some anchors }] }

/-- An entry of size 0, slot 256, image at VA 0x11000, with this state and policy. -/
def canopyEntry (st pol : Nat) : Nat := 0x11 * 2 ^ 28 + 256 * 2 ^ 10 + pol * 4 + st

def canopyMsg : Msg := { src := issuer 0x68, key := 1, arg := 5, id := 5, tgt := lsKey 0 0 }

def pagingIn (done : Nat) : State :=
  mapped.updHall 0 fun h => { h with pageIns := [⟨1, 5, 0, BitVec.ofNat 128 (canopyEntry 1 0), done, false⟩] }

def parked (since : Nat) : State :=
  { (mapped.updHall 0 fun h => { h with parked := [⟨0, 0, 1, 5, since⟩], rereads := [(1, 5, since)] }) with clk := 2 ^ 20, arg := .nums [0, 5] }

def cachedEntry (visits : Nat) : State :=
  { (mapped.updHall 0 fun h => { h with canopy := [⟨1, 5, 0x2000, BitVec.ofNat 128 (canopyEntry 2 1), visits⟩] }) with arg := .nums [0, 5] }

/-- The entry of treelet 5 as the table holds it. -/
def withEntry (v : Nat) (s : State) : State := { s with mem := Memory.store s.mem 0x100050 16 v }

/-- A replica's bytes are all written; this image it copies. -/
def replicaIn (img : Nat) : State :=
  mapped.updHall 0 fun h => { h with pageIns := [⟨1, 5, 0, BitVec.ofNat 128 (canopyEntry 2 1 + img * 2 ^ 28), 4096, true⟩] }

/-- A posted store of eight bytes into the second word of anchor record 1. -/
def anchorStore : Msg :=
  { src := issuer 0x47, tgt := lsKey 0 0x50000, va := 0x4000000000050000, id := 1, bytes := (List.range 8).map fun i => (lsKey 0 (0x50028 + i), 0) }

theorem witness_AnchorStores :
    let s := given anchorStore (tracing 1)
    isLsKey anchorStore.tgt = true ∧ farOff s anchorStore = false ∧ farOff (niPosted anchorStore s) anchorStore = false ∧
      (touchedBy s anchorStore).length = 1 ∧ (touchedBy s anchorStore).head?.any (fun r => r.key == lsKey 0 0x50020 && r.off == 0x50020) = true := by
  decide +kernel

theorem witness_Replicas : ∀ img ∈ [0, 0x100], let s := replicaIn img
    let e := canopyEntry 2 1 + img * 2 ^ 28
    (s.hall 0).pageIns.find? (fun p => p.lid == 1 && p.id == 5) = some ⟨1, 5, 0, BitVec.ofNat 128 e, 4096, true⟩ ∧
      ((CanopyEntry.ofBits e).any fun c => (subscribeReplica ⟨1, 5, 0, BitVec.ofNat 128 e, 4096, true⟩ c s).2 == decide (img = 0)) = true := by
  decide +kernel

theorem witness_TreeletPaging :
    (let s := given canopyMsg (cachedEntry 0)
     ((s.hall 0).canopy.find? fun x => x.lid == canopyMsg.key && x.id == 5).isSome = true ∧ (s.hall 0).canopy.all (fun x => decide (x.visits < 4096))) ∧
    ((waveState.hall 0).canopy = [] ∧ canopyOf waveState 1 = none ∧ (waveState.hall 0).pageIns = [] ∧ (waveState.hall 0).parked = []) ∧
    (∀ d ∈ [0, 3968], let s := given canopyMsg (pagingIn d)
      ((s.hall 0).pageIns.find? fun p => p.lid == 1 && p.id == 5).isSome = true ∧
        (CanopyEntry.ofBits (canopyEntry 1 0)).any (fun e => decide (d < (e.size + 1) * 4096)) = true ∧ (s.core 0).sealed = false ∧
        (readVa s 0 (launchCtx s 1) (0x11000 + d) 128).2.toOption = some 0 ∧
        Memory.wf (readVa s 0 (launchCtx s 1) (0x11000 + d) 128).1.mem = true ∧ ((s.hall 0).pageIns.find? fun p => p.id == 5).any (fun p => !p.replica) = true) ∧
    (let s := given { canopyMsg with arg := 0, arg2 := 1 } mapped
     canopyOf s 1 = some (0x10000, 8) ∧ (readVa s 0 0 0x10050 16).2.toOption = some 0 ∧
       (writeVa (readVa s 0 0 0x10050 16).1 0 0 0x10050 16 1).2 = none) ∧
    (let s := parked (2 ^ 20 - 1024)
     (s.hall 0).pageIns = [] ∧ (s.hall 0).parked.length = 1 ∧ 2 ^ 20 - 1024 + 1024 ≤ s.clk ∧ (readCanopy s 0 1 5).2.toOption = some 0) ∧
    (let s := withEntry (canopyEntry 1 0) (parked 0)
     0 + 2 ^ 20 ≤ s.clk ∧ (readCanopy s 0 1 5).2.toOption = some (canopyEntry 1 0) ∧ canopyEntry 1 0 % 4 = 1) ∧
    (let s := cachedEntry 4096
     (s.hall 0).canopy.length = 1 ∧ (s.hall 0).pageIns = [] ∧
       (CanopyEntry.ofBits (canopyEntry 2 1)).any (fun e => e.state == 2 && e.pol == 1 && e.nown == 0 && e.img == 0x11000 && e.slot == 256) = true ∧
       (imagePieces s 0 8 0x11000 4096).isSome = true ∧
       ((pagingOrder s 1 (imageDie s 0 0x11000) 0).find? fun q => arenaFree s 1 q.2 256 0).isSome = true) ∧
    (waveState.hall 0).visitsAt + 2 ^ 20 ≤ ({ waveState with clk := 2 ^ 20 } : State).clk ∧
    ({ waveState with clk := 2 ^ 20 - 1 } : State).clk < (waveState.hall 0).visitsAt + 2 ^ 20 := by decide +kernel

/-- A launch record that is valid: one group of one wave of 8 registers, a partition of 4,096 bytes. -/
def record : BitVec 1024 :=
  BitVec.ofNat 1024 (1 + 2 * 2 ^ 8 + 8 * 2 ^ 128 + 0x40 * 2 ^ 160 + 1 * 2 ^ 176 + 1 * 2 ^ 184 + 4096 * 2 ^ 224 + 0x40000 * 2 ^ 416 +
    32 * 2 ^ 512 + (1 + 2 ^ 24) * 2 ^ 576)

def submission (r : BitVec 1024) (ring : Option Nat) : Submission :=
  { record := r, va := 0x10000, ring := ring, src := issuer 0x5A, priv := false, ctx := 0, prio := 15, id := 3 }

/-- A ring of two slots with this value in the sequence word after the next position. -/
def ringed (next slot value : Nat) : State :=
  { waveState with rings := [(63, ⟨1, 15, false⟩)], mem := Memory.store waveState.mem (ringKey 63 68) 4 next, arg := .nums [63, slot, value] }

/-- The record of a placed program is one that submission accepts. -/
theorem test_placed_record : recReserved placedLaunch.record = false ∧ recFieldsOk placedLaunch.record = true ∧
    recLevelsOk placedLaunch.record = true := by decide +kernel

theorem witness_Submissions :
    (∀ a ∈ [Await.none, .sent 3, .answered 3 1 0, .answered 3 0x80000001 0], ∀ i ∈ [Instr.lnch .none 10 4, .lnchw .none 10 4],
      issues i (awaiting a waveState) = true ∧ (awaiting a waveState).curAwait = a) ∧
    launchOver waveState 1 = false ∧ launchOver waveState 0x80000001 = true ∧
    (∀ p ∈ [0x4000000000000000, 0x200000000000000, 0x1FFFFFFFFFFFF81], issues (.lnch .none 10 4) (withPair 4 (BitVec.ofNat 64 p) waveState) = true) ∧
    issues (.lnch .none 10 4) (withPair 4 0x8000000000040000 userState) = true ∧
    validate waveState { submission 0 none with src := .device } = 1 ∧ isAgent Issuer.device = false ∧
    (let s := withPair 4 0x10000 (home (lineState .clean) writeMsg)
     issues (.lnch .none 10 4) s = true ∧ issues (.lnchw .none 10 4) s = true ∧ readable s 0 0 0x10000 128 = true ∧
       (readVa s 0 0 0x10000 128).2.toOption = some 0) ∧
    (let s : State := { withPair 4 0x10000 waveState with roots := [(0, 0x40000)], lines := [(2048, { state := .filling })] }
     issues (.lnch .none 10 4) s = true ∧ issues (.lnchw .none 10 4) s = true ∧ readable s 0 0 0x10000 128 = false) ∧
    isAgent (issuer 0x5A) = true ∧ validate waveState (submission record none) = 0 ∧ validate waveState (submission record (some 0)) = 0 ∧
    validate waveState (submission 0 none) = 1 ∧ recReserved record = false ∧ recFieldsOk record = true ∧
    (let r := record ^^^ BitVec.ofNat 1024 (2 ^ 512)
     bitsAt r.toNat 0 8 = 1 ∧ recReserved r = false ∧ recFieldsOk r = true ∧ recLevelsOk r = false) ∧
    (let r := record ^^^ BitVec.ofNat 1024 (2 ^ 176)
     bitsAt r.toNat 0 8 = 1 ∧ recReserved r = false ∧ recFieldsOk r = false) ∧
    (let s := ringed 0 0 1
     (ringOf s 63).log2n ≤ 8 ∧ 0 = (ringWord s 63 12).toNat % 2 ^ (ringOf s 63).log2n ∧ BitVec.ofNat 32 1 = ringWord s 63 12 + 1 ∧
       ringWord s 63 (64 + 4 * ((ringWord s 63 12 + 1).toNat % 2)) ≠ ringWord s 63 12 + 2 ∧ Memory.wf s.mem = true) ∧
    (let s := ringed 0 1 1
     1 < 2 ^ (ringOf s 63).log2n ∧ (BitVec.ofNat 32 1 - 1).toNat % 2 ^ (ringOf s 63).log2n ≠ 1) ∧
    (let s := ringed 0 0 3
     0 < 2 ^ (ringOf s 63).log2n ∧ 2 ^ (ringOf s 63).log2n ≤ (BitVec.ofNat 32 3 - 1 - ringWord s 63 12).toNat) := by decide +kernel

/-- A launch of the record's shape. -/
def launchOf (lid prio : Nat) (phase : LaunchPhase) (next total : Nat) : Launch :=
  { lid := lid, record := record, va := 0, prio := prio, sys := false, ctx := 0, order := lid, phase := phase, next := next, total := total }

def groupAt (lid gid num core : Nat) : Group :=
  { gid := gid, lid := lid, num := num, core := core, lcore := core, slots := [0], waves := 1, regs := 8, pb := 0x40000, pl := 4096 }

/-- Launch 2 has one group in hall 0, where its next must go. -/
def placing : State :=
  { State.reset with launches := [launchOf 2 5 .running 1 2], groups := [groupAt 2 2 0 1], arg := .nums [2] }

/-- A group saved by the arbiter. -/
def savedGroup : Saved := ⟨3, 0x10000, 0, groupAt 2 3 1 0, [], none, 0, 4096, 0, true, [], []⟩

/-- A group paired with the core to the east, or as that core. -/
def pairing (low : Bool) : Pairing := ⟨if low then 1 else 0, if low then 0 else 1, low, 0, false, false, ⟨[], [], [], [], [], [], []⟩, [], 0, false⟩

/-- The other cores of hall 0 are sealed, and core 0 is held by a launch of lower priority. -/
def contended : State :=
  { State.reset with
    launches := [launchOf 1 3 .running 1 1, launchOf 2 5 .running 1 2]
    groups := [groupAt 1 1 0 0, groupAt 2 2 0 1]
    cores := sortNats ((hallCores 0 0).filter fun c => 2 ≤ c) |>.map fun c => (c, { sealed := true })
    arg := .nums [1, 0] }

theorem witness_Placement :
    (headLaunch placing = some (launchOf 2 5 .running 1 2) ∧ savedGang placing (launchOf 2 5 .running 1 2) = [] ∧
      (headPlan placing (launchOf 2 5 .running 1 2)).isSome = true) ∧
    headLaunch State.reset = none ∧ headLaunch contended = some (launchOf 2 5 .running 1 2) ∧ (2 : Nat) ≠ 1 ∧
    headPlan contended (launchOf 2 5 .running 1 2) = none ∧
    (let s : State := { placing with launches := [launchOf 2 5 .running 2 2], saved := [savedGroup], clk := 4 }
     (resumePlan s).any (fun p => p.2.head?.any fun q => q.1.gid == 3) = true ∧
       savedGang s (launchOf 2 5 .running 2 2) = [savedGroup]) ∧ resumePlan placing = none ∧
    wantsPlace placing (launchOf 2 5 .running 1 2) = true ∧ 0 ∈ openSlots placing 0 := by decide +kernel

def ending : EndReq := ⟨1, 0, 0, 0, 0x17, 8, 5, 0, 0⟩

theorem witness_LaunchEnds :
    (let s : State := { waveState with launches := [launchOf 1 3 .running 1 1], groups := [], arg := .nums [1] }
     (s.launch? 1).any (mayComplete s) = true) ∧ (waveState.launch? 1).any (fun l => !mayComplete waveState l) = true ∧
    recCmpl record = 0 ∧
    (let r := record ^^^ BitVec.ofNat 1024 (0x4000000000040000 * 2 ^ 320)
     (recCmpl r).toNat % 4 = 0 ∧ recCmpl r ≠ 0 ∧ ptrKind (recCmpl r) = 1 ∧ lsTarget waveState 1 (recCmpl r) = some (lsKey 0 0x40000, 0) ∧
       isLsKey (lsKey 0 0x40000) = true) ∧
    waveState.launch? 2 = none ∧
    (∀ p ∈ [LaunchPhase.pending, .running, .done, .ending], let s : State := { waveState with launches := [launchOf 1 3 p 1 1], arg := .ending ending }
      s.launch? ending.lid = some (launchOf 1 3 p 1 1)) ∧
    (let l : Launch := { launchOf 1 3 .ending 1 1 with fault := some ending }
     launchQuiet l = true ∧ l.fault = some ending ∧ bitsAt l.record.toNat 448 64 = 0 ∧
       launchQuiet { l with ops := [{ id := 1, cls := 1 }] } = false) := by decide +kernel

/-- A second group on core 0, in slot 1. -/
def neighbour (g : Group) : State :=
  withReg 6 1 (withPair 4 0x10000 (paged { waveState with groups := [placedGroup, { g with slots := [1] }], launches := [placedLaunch, launchOf 2 3 .running 2 2] }))

/-- The page of `paged` with host bias: no line of it is cached. -/
def pagedHost (s : State) : State :=
  { (s.updHall 0 fun h => { h with tlb := [⟨0, 0x10000, 0x10000, 0x100000 + 1024 + 128 + 28⟩] }) with keys := [(1, some 0)] }

/-- The image of that group: a header of group 1 of launch 2, in slot 0. -/
def imageHeader : Nat := 1 + 178 * 2 ^ 8 + 2 * 2 ^ 320 + 1 * 2 ^ 352 + 32 * 2 ^ 389 + 1 * 2 ^ 512

/-- The image lies at VA 0x10000, and a group of another launch stands on the core, beside room for it. -/
def imaged (h : Nat) : State :=
  let v : Saved := { savedGroup with own := false }
  let ls : List Launch := [{ launchOf 1 3 .running 1 1 with sys := true }, launchOf 2 3 .running 2 2]
  let g : Group := { placedGroup with pb := 0x50000, pl := 4096, regs := 16 }
  let s := pagedHost { waveState with saved := [v], launches := ls, groups := [g], clk := 4 }
  withReg 6 0 (withPair 4 0x10000 { s with mem := Memory.store s.mem 0x100000 128 h })

theorem witness_SavedGroups :
    (waveState.launch? 1).isSome = true ∧ (victims waveState).contains (1, 0) = false ∧
    (let s := contended
     (s.launch? 1).isSome = true ∧ (victims s).contains (1, 0) = true ∧
       (s.launch? 1).any (fun l => (gangGroups s l 0).all fun x => x.pair.isNone && mayLeave s x) = true) ∧
    (let s : State := { contended with groups := [{ groupAt 1 1 0 0 with pair := some (pairing true) }, groupAt 2 2 0 1] }
     (victims s).contains (1, 0) = true ∧ (s.launch? 1).any (fun l => (gangGroups s l 0).any fun x => x.pair.isSome) = true) ∧
    (waveState.group? 1 = some placedGroup ∧ placedGroup.pair = none ∧ (gangWith waveState placedGroup).all (mayLeave waveState) = true ∧
      gangWith waveState placedGroup = [placedGroup] ∧ imagePlaces waveState [placedGroup] [] = none) ∧
    (let m : Msg := { writeMsg with src := .device, tgt := lsKey 0 0x40000 }
     isLsKey m.tgt = true ∧ isAgent m.src = false ∧ isAgent writeMsg.src = true ∧ isLsKey writeMsg.tgt = false) ∧
    (homeWrite (home (lineState .clean) writeMsg) 0x2000 1 0 writeMsg.bytes .device 0).isSome = true ∧
    (∀ a ∈ [Await.none, .sent 3, .answered 3 1 0], issues (.ctxsv .none 10 4) (awaiting a waveState) = true ∧
      (awaiting a waveState).curAwait = a) ∧
    (let s := withReg 6 31 (withPair 4 0x10000 waveState)
     issues (.ctxsv .none 10 4) s = true ∧ ((residents s 0).find? fun t => t.slots.contains 31) = none) ∧
    (∀ g ∈ [groupAt 2 2 0 0, groupAt 1 2 0 0], let s := neighbour g
      issues (.ctxsv .none 10 4) s = true ∧ ((residents s 0).find? fun t => t.slots.contains 1) = some { g with slots := [1] } ∧
        gangShared s { g with slots := [1] } = decide (g.lid = 1) ∧ g.pair = none ∧ g.cslot = 0 ∧ g.anchors = none ∧
        mayLeave s { g with slots := [1] } = true ∧ sectionsBad s { g with slots := [1] } = false ∧ vaFree s 0 0x10000 (imageLength s { g with slots := [1] }) = true ∧
        (lineTrouble 0 0 (imageLength s { g with slots := [1] } / 128) s 0x10000).2 = none) ∧
    issues (.ctxld .none 10 4) (withReg 6 1 (withPair 4 0x10000 waveState)) = true := by decide +kernel

/-- A group that `ctxsv` names waits while it is paired, and while its wave holds a lease; a range whose key slot is empty stops it. -/
theorem witness_SavedGroups_store :
    (let g : Group := { groupAt 2 2 0 0 with slots := [1] }
     let s := neighbour { g with pair := some (pairing true) }
     issues (.ctxsv .none 10 4) s = true ∧ ((residents s 0).find? fun t => t.slots.contains 1).any (·.pair.isSome) = true ∧
       gangShared s { g with pair := some (pairing true) } = false) ∧
    (let g : Group := { groupAt 2 2 0 0 with slots := [1] }
     (let s := (neighbour g).updWave 0 1 fun w => { w with leases := [⟨1, 2, 0, 0, true, 0, 0, 0, 0⟩] }
      issues (.ctxsv .none 10 4) s = true ∧ ((residents s 0).find? fun t => t.slots.contains 1) = some g ∧ gangShared s g = false ∧
        mayLeave s g = false) ∧
     (let s : State := { neighbour g with keys := [] }
      issues (.ctxsv .none 10 4) s = true ∧ ((residents s 0).find? fun t => t.slots.contains 1) = some g ∧ gangShared s g = false ∧
        mayLeave s g = true ∧ sectionsBad s g = false ∧ vaFree s 0 0x10000 (imageLength s g) = true ∧
        (lineTrouble 0 0 (imageLength s g / 128) s 0x10000).2 = some 4)) ∧
    (let s : State := { contended with badLs := [(lsKey 0 0x40000 / 32, 2)] }
     (s.launch? 1).any (fun l => (gangGroups s l 0).any (sectionsBad s)) = true) := by decide +kernel

theorem witness_SavedGroups_load :
    (∀ h ∈ [0, imageHeader], let s := imaged h
      issues (.ctxld .none 10 4) s = true ∧ readable s 0 0 0x10000 256 = true ∧ (readVa s 0 0 0x10000 256).2.toOption = some h ∧
        (headerNames (readVa s 0 0 0x10000 256).1 0x10000 0 h).isSome = decide (h ≠ 0)) ∧
    (let s := imaged imageHeader
     (headerNames s 0x10000 0 imageHeader).any (fun q => fitsSaved s q.1 q.2 0 && fitsBut { s with clk := 3 } q.1 q.2 0 &&
       !fitsSaved { s with clk := 3 } q.1 q.2 0 && !fitsBut (s.updCore 0 fun c => { c with xbnd := 0x41000 }) q.1 q.2 0) = true) ∧
    (let s : State := { imaged imageHeader with keys := [] }
     issues (.ctxld .none 10 4) s = true ∧ readable s 0 0 0x10000 256 = true ∧ (readVa s 0 0 0x10000 256).2.toOption = none) := by decide +kernel

/-- Its bytes can be read; and cannot, with the last line in error. -/
theorem witness_SavedGroups_image : ∀ e ∈ [0, 2],
    let s : State := { imaged imageHeader with badHbm := if e = 0 then [] else [((0x100000 + 177 * 128) / 64, e)] }
    (headerNames s 0x10000 0 imageHeader).any (fun q => fitsSaved s q.1 q.2 0 && (readImage 0 q.2 s).2.toOption.isSome == decide (e = 0)) = true := by
  decide +kernel

/-- The cores of die 0 in the order of their numbers. -/
def dieCores : List Nat := (List.range 32).flatMap fun x => (List.range 20).map fun y => coreWord 0 0 x y

/-- The cores of die 0 but the lowest `n` are sealed; core 0's group has all its registers, or not. -/
def sealedDie (n : Nat) (full : Bool) : State :=
  { waveState with
    cores := (dieCores.drop n).map fun c => (c, { sealed := true })
    groups := [if full then { placedGroup with waves := 16, regs := 128 } else placedGroup] }

theorem mem_dieCores {c : Nat} (h : c ∈ (List.range 40).flatMap (hallCores 0)) : c ∈ dieCores := by
  simp only [List.mem_flatMap, List.mem_range, hallCores, List.mem_map, dieCores] at h ⊢
  obtain ⟨i, hi, n, hn, rfl⟩ := h
  exact ⟨i % 40 % 8 * 4 + n % 4, by omega, i % 40 / 8 * 4 + n / 4, by omega, by rw [show i / 40 = 0 by omega]⟩

/-- An entry of a canonical map is what its key reads as. -/
theorem get_of_mem {α : Type} [DecidableEq α] {d v : α} {c : Nat} :
    ∀ {m : List (Nat × α)} {lo : Nat}, Sparse.above d lo m = true → (c, v) ∈ m → lo < c ∧ Sparse.get d m c = v
  | (k, w) :: m, lo, h, hm => by
    simp only [Sparse.above, Bool.and_eq_true, decide_eq_true_eq] at h
    rcases List.mem_cons.1 hm with hm | hm
    · cases hm; exact ⟨h.1.1, by simp [Sparse.get]⟩
    · have ⟨hk, hg⟩ := get_of_mem h.2 hm
      exact ⟨by omega, by simp [Sparse.get, hg, show c ≠ k by omega, show ¬ c < k by omega]⟩

theorem dieCores_above :
    dieCores.head? = some 0 ∧ Sparse.above ({} : Core) 0 ((dieCores.drop 1).map fun c => (c, ({ sealed := true } : Core))) = true := by
  decide +kernel

/-- Every core of `sealedDie` but the lowest is out of service. -/
theorem sealedDie_core {n c : Nat} {full : Bool} (hn : n ≤ 1) (h : c ∈ (List.range 40).flatMap (hallCores 0)) (h0 : c ≠ 0) :
    (sealedDie n full).outOfService c = true := by
  have ⟨hh, ha⟩ := dieCores_above
  have hd : dieCores = 0 :: dieCores.drop 1 := by
    cases hx : dieCores with
    | nil => simp [hx] at hh
    | cons a l => simp [hx] at hh; simp [hh]
  have hm : c ∈ dieCores.drop 1 := by
    have := mem_dieCores h
    rw [hd] at this
    simpa [h0] using this
  have ⟨hp, hg⟩ := get_of_mem ha (List.mem_map.2 ⟨c, hm, rfl⟩)
  have : Sparse.get ({} : Core) ((dieCores.drop n).map fun c => (c, { sealed := true })) c = { sealed := true } := by
    rcases (by omega : n = 0 ∨ n = 1) with rfl | rfl
    · rw [List.drop_zero, hd, List.map_cons]
      simp only [Sparse.get, h0, if_false, Nat.not_lt_zero]
      exact hg
    · exact hg
  have hc : (sealedDie n full).core c = { sealed := true } := this
  simp [State.outOfService, hc]

theorem sealedDie_healthy : ((List.range 40).flatMap (hallCores 0)).filter (fun c => c == 0) = [0] := by decide +kernel

theorem witness_Halting_supervisor :
    (∀ s ∈ [waveState, sealedDie 1 true], (s.core 0).supervisor = none ∧ s.outOfService 0 = false ∧ supervisorFits s 0 = decide (s = waveState)) ∧
    (let s := sealedDie 1 true
     ((List.range 40).flatMap (hallCores 0)).filter (fun c => !s.outOfService c) = [0]) ∧
    (let s := sealedDie 0 false
     ((List.range 40).flatMap (hallCores 0)).filter (fun c => !s.outOfService c) = []) ∧
    (let s := waveState.updCore 0 fun c => { c with supervisor := some 1 }
     (s.core 0).supervisor.isSome = true ∧ s.outOfService 0 = false) ∧
    (hallCores 0 0).head? = some 0 ∧ (waveState.core 0).sealed = false := by
  refine ⟨by decide +kernel, ?_, ?_, by decide +kernel⟩
  · rw [← sealedDie_healthy]
    refine List.filter_congr fun c h => ?_
    by_cases h0 : c = 0
    · subst h0; decide +kernel
    · simp [sealedDie_core (Nat.le_refl 1) h h0, h0]
  · refine List.filter_eq_nil_iff.2 fun c h => ?_
    by_cases h0 : c = 0
    · subst h0; decide +kernel
    · simp [sealedDie_core (Nat.zero_le 1) h h0]

theorem witness_Halting :
    issues (.halt .none) waveState = true ∧ issues (.haltAll .none) waveState = true ∧ inv waveState = true ∧ coreExists 0 = true ∧
    ((allCores waveState).contains 0 = true) ∧ (waveState.updCore 0 fun c => { c with halted := true }).stopped 0 = true ∧
    waveState.thermal = false ∧ ({ waveState with thermal := true } : State).thermal = true ∧ waveState.min = false ∧ (95 : Nat) ≤ 95 ∧
    (94 : Nat) < 95 ∧ (residents waveState 0).length = 1 ∧
    (let s := waveState.updCore 0 fun c => { c with halted := true, haltBy := some 0 }
     (s.core 0).halted = true ∧ (s.core 0).haltBy = some (0 * 4 + 0)) ∧ ((sealedCore waveState).core 0).sealed = true := by decide +kernel

/-- Core 0's group, paired with core 1's or ready to pair with it. -/
def pairable (paired : Bool) : State :=
  { wide waveState with
    groups := [{ placedGroup with pair := if paired then some (pairing true) else none },
               { groupAt 1 2 1 1 with pair := if paired then some (pairing false) else none }] }

def waitsToPair (since : Nat) : State := (pairable false).updWave 0 0 fun w => { w with pairing := some (0, since, [0]) }

/-- Both groups have come to the end of the interval, with this fingerprint in core 1. -/
def closing (f : Nat) : State :=
  ((pairable true).setWave 1 0 { live := true, gid := 2, stopped := true, fprint := BitVec.ofNat 64 f }).updWave 0 0 fun w => { w with stopped := true }

/-- What a wave that asks to pair finds: no partner group, one whose wave does not ask, one whose wave does; and the split asks
already, or another has asked for the wave. -/
theorem witness_Pairing_asks :
    (∀ ps ∈ [[0], [1]], ∀ k ∈ [0, 1, 2],
      let s : State := ((pairable false).setWave 1 0 { live := true, gid := 2, launchMask := 1, pairing := if k = 2 then some (0, 0, [0]) else none }).updWave 0 0 fun w =>
        { w with pairing := some (2, 0, ps) }
      let s : State := { s with groups := if k = 0 then s.groups.take 1 else s.groups }
      let asked : State := if ps.contains s.cur.split then s else s.updCurWave fun w => { w with pairing := some (2, 0, ps ++ [s.cur.split]) }
      issues (.pair .none 10 4) s = true ∧ s.curAwait = .none ∧ s.curWave.pairing = some (2, 0, ps) ∧
        s.curGroup.any (fun g => g.pair.isNone && (match partnerGroup asked g 2 with
          | none => k == 0
          | some h => k != 0 && (allAsk asked g 2 && allAsk asked h 0) == (k == 2))) = true) ∧
    ((pairable false).group? 1).any (·.gid == 1) = true ∧ ((pairable false).group? 2).any (·.gid == 2) = true := by decide +kernel

/-- An interval closes, again or for the first time; what a core rolls back to. -/
theorem witness_Pairing_rollback :
    (∀ again ∈ [false, true], let s := (pairable true).updGroup 2 fun g => { g with pair := g.pair.map fun p => { p with rerun := again } }
      (s.group? 2).any (fun h => h.pair.any (·.rerun == again)) = true) ∧
    ((pairable true).group? 1).any (fun g => g.pair.any fun p => p.low && (p.check.regs.map (·.1)).isEmpty) = true ∧
    ((pairable true).group? 2).any (fun g => g.pair.any fun p => !p.low) = true ∧ rises (pairable true).regs = true ∧
    (∀ m ∈ [0, 1], ∀ r ∈ [0x200, 0x201], let s := awaiting (.answered 3 0 r) ((pairable true).updGroup 1 fun g =>
        { g with pair := g.pair.map fun p => { p with matched := m } })
      matchedHere s = some m ∧ issues (.unpair .none 10) s = true ∧ issues (.fpck .none 10) s = true) := by decide +kernel

theorem witness_Pairing :
    (∀ a ∈ [Await.none, .answered 3 1 0, .answered 3 1 0x200, .answered 3 0 0x200], ∀ p ∈ [false, true],
      ∀ i ∈ [Instr.pair .none 10 4, .unpair .none 10, .fpck .none 10],
      issues i (awaiting a (pairable p)) = true ∧ (awaiting a (pairable p)).curAwait = a ∧ (pairable p).curGroup.isSome = true ∧
        (matchedHere (pairable p)).isSome = p) ∧
    ((withReg 4 2 (pairable false)).curWave.pairing = none ∧ (withReg 4 2 (pairable false)).curGroup.any (fun g => (pairRefuses (withReg 4 2 (pairable false)) g 2).isNone) = true) ∧
    (pairable false).curGroup.any (fun g => (pairRefuses (pairable false) g 0).isSome) = true ∧ (4 : Nat) ≤ (4 : Word).toNat ∧
    (let s : State := (pairable true).updWave 0 0 fun w => { w with pairing := some (0, 0, [0]) }
     issues (.pair .none 10 4) s = true ∧ s.curWave.pairing = some (0, 0, [0]) ∧ s.curGroup.any (·.pair.isSome) = true) ∧
    matchedHere (pairable true) = some 0 ∧
    (let s := (pairable true).updGroup 1 fun g => { g with pair := g.pair.map fun p => { p with matched := 1 } }
     matchedHere s = some 1 ∧ issues (.fpck .none 10) (awaiting (.answered 3 0 0x200) s) = true) ∧
    (∀ c ∈ [1048575, 1048576], let s : State := { waitsToPair 0 with clk := c }
      (s.group? 1).any (fun g => pairLate s g == (c == 1048576)) = true ∧ (s.group? 1).any (fun g => g.slots == [0]) = true ∧
        (s.wave 0 0).pairing.isSome = true) ∧
    (∀ f ∈ [0, 1], let s := closing f
      (s.group? 1).any (fun g => (mateOf s g).any fun h => groupQuiet s g && groupQuiet s h &&
        (groupPrint s g == groupPrint s h) == (f == 0)) = true) ∧
    ((pairable true).group? 1).any (fun g => !groupQuiet (pairable true) g && (mateOf (pairable true) g).isSome) = true ∧
    (let s : State := { pairable true with groups := (pairable true).groups.take 1 }
     (s.group? 1).any (fun g => (mateOf s g).isNone) = true) := by decide +kernel

def shoot (left : List Task) (why : Shooter) : Shoot := ⟨5, 0, false, 0x10000, 0x10000, why, left⟩

def shooting (left : List Task) (why : Shooter) : State := { waveState with shoots := [shoot left why], arg := .nums [5] }

theorem witness_Shootdowns :
    (∀ a ∈ [Await.none, .sent 3, .answered 3 0 0], ∀ c ∈ [0, 511, 512], let s := awaiting a (withReg 7 (BitVec.ofNat 32 c) waveState)
      issues (.tlbi .none false 10 4) s = true ∧ s.curAwait = a ∧ (src s 7 0).toNat = c) ∧
    (∀ w ∈ [Shooter.host, .wave (issuer 0x7C)], let s := shooting [] w
      s.shoots.find? (fun h => h.id == 5 && shootDone s h) = some (shoot [] w)) ∧
    (let t : Task := ⟨.postedStore, .msg writeMsg⟩
     let s : State := { shooting [t] .host with agenda := [t] }
     (s.shoots.find? fun h => h.id == 5 && shootDone s h) = none) ∧
    waveState.min = false ∧ waveState.background = none ∧ ({ waveState with background := some 0xC013 } : State).background.isSome = true ∧
    (cached (mapped.hall 0) 0 0x10000).isNone = true ∧ (cached (mapped.hall 0) 0 0x20000).isNone = true ∧
    (cached ((paged waveState).hall 0) 0 0x10000).isSome = true ∧
    (walkWith mapped (mapped.hall 0).walks 0 0x10000).toOption.isSome = true ∧ (walkWith mapped (mapped.hall 0).walks 0 0x20000).toOption.isNone = true ∧
    (let u := startShoot 0 0x10000 0x10000 false .host (paged waveState)
     ((paged waveState).halls.any fun w => !w.2.tlb.isEmpty) = true ∧ (u.halls.all fun w => w.2.tlb.isEmpty) = true) := by decide +kernel

def pageOp (move : Bool) (step : Nat) : PageOp :=
  { id := 5, ctx := 0, va := 0x10000, bytes := 0x10000, pte := 0xD0010, old := 0x100000, new := 0x120000, move := move, retire := false
    step := step, queue := [] }

theorem witness_PageOperations :
    mapped.min = false ∧ mapped.pageOps = [] ∧ mapped.background = none ∧ rises mapped.roots = true ∧ (255 : Nat) < 256 ∧
    mapped.keyLock = false ∧ ({ mapped with keyLock := true } : State).keyLock = true ∧ mapped.spdm.session = false ∧
    (pageFor mapped 0 0x10000).isSome = true ∧ (pageFor mapped 0 0x20000).isNone = true ∧
    (pageFor mapped 0 0x10000).any (fun f => decide (dpaSpace 0x120000 = 0) && decide (0x120000 % 2 ^ f.page = 0)) = true ∧
    (Sparse.get 0 mapped.regions 4095).toNat / 2 ^ 62 = 0 ∧ (2 ^ 62 : Nat) / 2 ^ 62 ≠ 0 ∧
    (let s : State := { mapped with regions := [(4095, BitVec.ofNat 64 (2 ^ 63))], ports := [(0, { active := false })] }
     (Sparse.get 0 s.regions 4095).toNat / 2 ^ 62 = 2 ∧ (Sparse.get {} s.ports 0).active = false) ∧
    (let s : State := { mapped with pageOps := [pageOp false 1], arg := .nums [0, 0x10000] }
     pageQuiet s (pageOp false 1) = true ∧ (pageOp false 1).move = false ∧ (pageOp false 1).step = 1) ∧
    (let s : State := { mapped.setLine 0x2000 (leased 60) with pageOps := [pageOp false 1], arg := .nums [0, 0x10000, 5] }
     s.arg = .nums [0, 0x10000, (pageOp false 1).id] ∧ pageQuiet s (pageOp false 1) = false) ∧
    (let s : State := { mapped with pageOps := [pageOp false 2], shoots := [shoot [] (.flip 5)], arg := .nums [5] }
     s.shoots.find? (fun h => h.id == 5 && shootDone s h) = some (shoot [] (.flip 5))) ∧
    (let s : State := { mapped with pageOps := [pageOp true 2], keys := [(0, some 0)], arg := .nums [5] }
     pageQuiet s (pageOp true 2) = true ∧ (lineFault s 0x100000 (pteKey (s.devRead 0xD0010 16 0))).isSome = true) ∧
    ({ mapped with background := some 0xC014 } : State).background.isSome = true ∧ (4095 : Nat) < 4096 ∧ (4096 : Nat) ≤ 4096 ∧
    (let s : State := { mapped with pageOps := [pageOp true 2], arg := .nums [5] }
     let k := pteKey (s.devRead 0xD0010 16 0)
     pageQuiet s (pageOp true 2) = true ∧ lineFault s 0x100000 k = none ∧ lineFault s 0x120000 k = none) := by decide +kernel

theorem witness_PageMoves : ∀ k ∈ [1, 3],
    let s : State := { mapped with pageOps := [pageOp true k], shoots := [shoot [] (.move 5)], arg := .nums [5] }
    s.arg = .nums [5] ∧ s.shoots.find? (fun h => h.id == 5 && shootDone s h) = some (shoot [] (.move 5)) ∧ s.min = false ∧
      dpaSpace 0x120000 = 0 ∧ (0x120000 : Nat) < 2 ^ 54 := by decide +kernel

/-- Splits 0 and 1 stand at one place with equal stacks. -/
def twoSplits : State :=
  { waveState.updWave 0 0 fun w => { w with splits :=
    [{ live := true, mask := 0xFF, buf := [(0, 0), (32, 0)] }, { live := true, mask := 0xFF00, buf := [(0, 0), (32, 0)] }, {}, {}] } with arg := .nums [0, 0] }

def parkedAt (p : Park) (clk : Nat) : State := { withSplit (fun v => { v with park := p }) waveState with clk := clk, arg := .nums [0, 0, 0] }

theorem witness_Selection :
    (inv twoSplits = true ∧ mergeable twoSplits 0 0 0 1 = true ∧ (twoSplits.wave 0 0).splits.length = 4 ∧ mergeable waveState 0 0 0 1 = false) ∧
    (∀ c ∈ [255, 256], cyclesPassed (parkedAt (.join 0) c) 0 0 256 = decide (c = 256)) ∧
    (∀ c ∈ [9, 10], (10 ≤ c ↔ 10 ≤ (parkedAt (.sleep 10) c).clk)) ∧
    (let s := withSplit (fun p => { p with buf := [] }) waveState
     s.badLs = [] ∧ wantBlock (s.xbnd 0) ((s.wave 0 0).splits.getD 0 {}).buf 0 = some 0 ∧ ((s.wave 0 0).splits.getD 0 {}).live = true) ∧
    wantBlock (climberState.xbnd 0) (climberState.climber 0 0).buf (climberState.cpc 0 0).toNat = some 0 ∧
    (let s : State := { waveState with arg := .nums [0] }
     let u := (liveSlots s 0).foldl (fun s w => releaseJoins 0 w (mergeWave 0 w s)) s
     s.issuing 0 = true ∧ waitingSplits u 0 = [] ∧ selectSplit u 0 ((readySplits u 0).length + (heldSplits u 0).length)
         (allSplits.filter (readySplits u 0 ++ freedSplits u 0).contains) = some (0, 0) ∧ inv u = true ∧
       (u.curSplit.pc).toNat < u.xbnd 0 ∧ wordAt u.curSplit.buf u.curSplit.pc.toNat = some 0) ∧
    ({ waveState.updCore 0 (fun c => { c with halted := true }) with arg := .nums [0] } : State).issuing 0 = false ∧
    (readySplits twoSplits 0 = [(0, 0), (0, 1)] ∧ (selectSplit twoSplits 0 2 (readySplits twoSplits 0)).isSome = true) ∧
    (let s := twoSplits.updCore 0 fun c => { c with cycles := 2 }
     let old : State := { s with clk := 2 }
     ageOf old 0 ((old.wave 0 0).splits.getD 0 {}) = 2 ∧ ageOf s 0 ((s.wave 0 0).splits.getD 0 {}) = 0 ∧
       (selectSplit old 0 2 (readySplits old 0)).isSome = true) := by
  decide +kernel

/-- Core 0 samples every 1,000 counts into a buffer with room. -/
def sampling : State :=
  { waveState.updCore 0 fun c => { c with sampctl := 1, sampper := 1000, sampbuf := 0x40000, samplen := 4096 } with arg := .nums [0] }

theorem witness_ChannelTraffic :
    (waveState.chan 0 1).readTrapped = false ∧ ((waveState.setChan 0 1 { readTrapped := true }).chan 0 1).readTrapped = true ∧
    headerOk (Header.ofBits 0) = false ∧
    targetSealed waveState writeMsg = false ∧ targetSealed (sealedCore waveState) { writeMsg with tgt := lsKey 0 0 } = true ∧
    (∀ k ∈ [0, 1, 2], let s := waveState.setChan 0 1 { credits := k }
      (s.chan 0 1).credits = k) ∧ (nextSample (waveState.core 0)).isNone = true ∧ (nextSample (sampling.core 0)).isSome = true ∧
    nextSample (sampling.core 0) = some 1000 ∧ sampling.reached 1000 = false ∧ ({ sampling with clk := 1000 } : State).reached 1000 = true ∧
    (let s := (State.updCore { sampling with clk := 1000 } 0 fun c => { c with sampledAt := 1000 })
     nextSampled s 0 = some 0 ∧ (sampleOf (s.updCore 0 fun c => { c with sampled := 0 }) 0 0 1000).isSome = true) ∧
    nextSampled ({ sampling with clk := 1000, waves := [] }) 0 = none := by decide +kernel

def hosted (m : Msg) : State := { mapped with arg := .msg m, up := true }

def hostWrite (k : Nat) (n : Nat) : Msg := { src := .device, tgt := k, bytes := (List.range n).map fun i => (k + i, 1) }

theorem witness_HostAccesses :
    mapped.up = true ∧ mapped.min = false ∧ State.reset.up = false ∧ hostHbm mapped 0x80000 = true ∧ (mapped.line 0x1000).state = .clean ∧
    (mapped.line 0x1000).queue = [] ∧ readFault (retag 0x1000 0 mapped) 0x80000 0 = none ∧
    (let s := mapped.setLine 0x1000 (lineState .poisoned)
     hostHbm s 0x80000 = true ∧ (s.line 0x1000).lease = none ∧ (s.line 0x1000).state = .poisoned ∧ (s.line 0x1000).queue = [] ∧
       (readFault (retag 0x1000 0 s) 0x80000 0).isSome = true) ∧
    hostHbm (mapped.setLine 0x1000 (leased 60)) 0x80000 = true ∧
    (∀ k ∈ [ringKey 63 0x2000, ringKey 63 64, ringKey 63 0x1FFC, ringKey 63 60], 2 ^ 64 ≤ (hostWrite k 4).tgt ∧
      ((hostWrite k 4).tgt - 2 ^ 64) / 65536 = 63 ∧ ((hostWrite k 4).tgt - 2 ^ 64) % 65536 = k - ringKey 63 0 ∧ (hostWrite k 4).bytes.length = 4) ∧
    ((mapped.line 0x1000).lease = none ∧ ((mapped.setLine 0x1000 (leased 60)).line 0x1000).lease.isSome = true) ∧
    (let l := 2 ^ 55 / 128
     dpaSpace (l * 128) = 2 ∧ (mapped.line l).lease = none ∧ (mapped.line l).state ≠ .filling ∧ (mapped.line l).queue = [] ∧
       ((mapped.setLine l (leased 60)).line l).lease.isSome = true) ∧
    (Sparse.get ({} : Link) mapped.ports 3).lost = false ∧ (Sparse.get ({} : Link) [(3, { lost := true })] 3).lost = true ∧
    (∀ slot ∈ [0, 255], let k := ringKey 63 (64 + 4 * slot)
     (hostWrite k 4).tgt = k ∧ (hostWrite k 4).bytes = [(k, 1), (k + 1, 1), (k + 2, 1), (k + 3, 1)]) ∧
    ((hostWrite (ringKey 63 60) 4).bytes.all fun c => decide ((c.1 - 2 ^ 64) % 65536 < 64)) = true ∧
    ((hostWrite (ringKey 63 0x2000) 4).bytes.all fun c => decide (0x2000 ≤ (c.1 - 2 ^ 64) % 65536)) = true ∧
    ({ mapped with min := true } : State).min = true ∧
    (∀ up ∈ [true, false], let l := 2 ^ 55 / 128
     let s : State := { mapped.setLine l (lineState .dirty) with ports := [(0, { active := up })] }
     s.min = false ∧ dpaSpace (l * 128) = 2 ∧ (s.line l).state = .dirty ∧ (s.line l).lease = none ∧ (s.line l).queue = [] ∧ linkUp s l = up) ∧
    (let s : State := { mapped with regions := [(4095, BitVec.ofNat 64 (2 ^ 62))] }
     rises s.regions = true ∧ s.regionOnline 4095 = true ∧ s.regionPort 4095 ≠ 3) := by decide +kernel

def island (mhz floor ceiling : Nat) : State := { waveState with islands := [(15, ⟨mhz, floor, ceiling⟩)] }

/-- A flight link that went down at count 0. -/
def linkDown (lost : Bool) (clk : Nat) : State := { waveState with flights := [(3, { active := false, lost := lost })], clk := clk }

theorem witness_PowerAndDomain :
    (∀ n ∈ [1225, 1250], (Sparse.get {} (island n 1200 2400).islands 15).floor < (Sparse.get {} (island n 1200 2400).islands 15).mhz) ∧
    max 1200 (1225 - 25) = 1200 ∧ max 1200 (1250 - 25) ≠ 1200 ∧ (Sparse.get {} (island 1200 1200 2400).islands 15).mhz ≤ 1200 ∧
    waveState.cap = 5200 ∧ 5200 < 5201 ∧ (5200 * 95 ≤ 4940 * 100 ∧ 4940 ≤ 5200) ∧ 4939 * 100 < 5200 * 95 ∧
    slowestIsland waveState = some 0 ∧ slowestIsland (island 1975 1200 2400) = some 15 ∧
    slowestIsland { waveState with islands := (List.range 16).map fun i => (i, ⟨2400, 1200, 2400⟩) } = none ∧
    waveState.pkg = 0 ∧ ({ waveState with pkg := 1 } : State).pkg ≠ 0 ∧ (linkOf true waveState 3).active = true ∧
    (linkOf true (linkDown false 0) 3).active = false ∧ linkOverdue (linkDown false 2000000) (linkOf true (linkDown false 2000000) 3) = true ∧
    linkOverdue (linkDown false 1999999) (linkOf true (linkDown false 1999999) 3) = false ∧
    (∀ c ∈ [2 ^ 16 - 1, 2 ^ 16, 2 ^ 20 - 1, 2 ^ 20], let s : State := { waveState with clk := c }
     s.clkSince s.powerAt = c ∧ s.clkSince s.exchanged = c) ∧
    (∀ c ∈ [1023, 1024], let s : State := { waveState with clk := c, lag := 1 }
     s.lag ≠ 0 ∧ s.clkSince s.slewed = c) ∧ ({ waveState with lag := -1 } : State).lag < 0 ∧
    (let s : State := { waveState with tables := [(7, Members.of 0 [(0, true), (1, false)])] }
     ((Sparse.get {} s.tables 7).ranks.getD 0 (0, false)).2 = true ∧ ((Sparse.get {} s.tables 7).ranks.getD 1 (0, false)).2 = false ∧
       1 < (Sparse.get {} s.tables 7).ranks.length ∧ s.away.find? (·.1 == 0) = none) ∧
    (∀ c ∈ [1999999, 2000000], let s : State := { waveState with away := [(5, 0)], clk := c }
     s.away.find? (·.1 == 5) = some (5, 0) ∧ s.clkSince 0 = c) := by decide +kernel

/-- A start with this count of failures; the image's version is the oldest that the fuses allow, whatever that is. -/
def starting (fails : Nat) (valid : Bool) (version : Nat) : State :=
  { State.reset with fails := fails, firmware := ⟨valid, version⟩, arg := .nums [3] }

theorem witness_StartUp :
    (∀ f ∈ [0, 1, 2], (starting f true Config.fusedVersion).up = false ∧ (starting f true Config.fusedVersion).min = false ∧
      (starting f true Config.fusedVersion).staged = none ∧ (starting f true Config.fusedVersion).fails = f) ∧
    ((starting 2 true 0).clkSince (starting 2 true 0).startedAt < 2 ^ 36 ∧ ({ State.reset with background := some 0xC002 } : State).background = some 0xC002) ∧
    Config.fusedVersion ≤ (starting 2 true Config.fusedVersion).firmware.version ∧
    (∀ v, v < Config.fusedVersion → (starting 1 true v).firmware.version < Config.fusedVersion) ∧ (starting 1 false 0).firmware.valid = false ∧
    ({ State.reset with staged := some ⟨true, 0⟩ } : State).staged.any (·.valid) = true ∧ State.reset.staged.any (·.valid) = false ∧
    2 ^ 36 ≤ ({ State.reset with clk := 2 ^ 36 } : State).clkSince State.reset.startedAt ∧ State.reset.clkSince State.reset.startedAt < 2 ^ 36 ∧
    coreExists 0 = true ∧ corePkg 0 = State.reset.pkg ∧ inv State.reset = true := by
  refine ⟨by intro f _; exact ⟨rfl, rfl, rfl, rfl⟩, ⟨by decide, rfl⟩, Nat.le_refl _, fun v h => h, rfl, rfl, rfl, by decide, by decide, by decide, by decide, by decide⟩

theorem witness_Mailbox :
    waveState.min = false ∧ Memory.wf waveState.mem = true ∧ ({ waveState with min := true } : State).min = true ∧ coreExists 0 = true ∧
    dpaSpace 0x100000 = 0 ∧ (waveState.core 0).hbmSpill = [] ∧ waveState.inDomain 0 = true ∧ ([0].filter (· == waveState.pkg)).length ≤ 1 ∧
    (let s : State := { waveState with tables := [(7, Members.of 0 [(0, true), (1, false)])] }
     rankLive s 7 0 = true ∧ rankLive s 7 1 = false ∧ s.background = none ∧
       ({ s with background := some 0xC01A } : State).background = some 0xC01A ∧ rankLive { s with background := some 0xC01A } 7 0 = true) ∧
    (readbackAt (waveState.updCore 0 fun c => { c with halted := true }) 0).1 = 0 ∧ (readbackAt waveState 0).1 = 2 ∧
    State.reset.min = false ∧ State.reset.up = false ∧ waveState.up = true := by decide +kernel

theorem witness_DebugAndSecurity :
    ({ waveState with arg := .nums [0] } : State).arg = .nums [0] ∧ waveState.jtag.unlocked = false ∧
    ({ waveState with jtag := { waveState.jtag with unlocked := true } } : State).jtag.unlocked = true := by decide +kernel

/-- The last of a form of each kind: an operand at every bound. -/
theorem witness_EncodeDecodes : ∀ i ∈ [Instr.mov ⟨true, true, 15⟩ 384 319, .pairWord ⟨.shl, 0, 319, true⟩ (some ⟨.mov, 255, 0, false⟩),
    .br ⟨true, false, 0⟩ (BitVec.ofInt 24 (-8)) 7 true, .csrWr .none 1 0x010 319], i.wf = true ∧ i.encodeNat.isSome = true := by decide +kernel

theorem witness_EncodeDecodes_words : ∀ w ∈ [0x1000080400040000, 0x708C000000000810, 0x460000060555E400],
    (decodeTableWord 64 w).isSome = true := by decide +kernel

/-- A core whose one split is ready: the word is fetched, or nothing is. -/
def placed (w : DWord) : State := State.reset.withFetchWord 64 w.toNat

def fetchedBy (t : Task) (s : State) : State := match exec t.op (takeTask t s) with
  | .next u => u
  | _ => s

theorem witness_StepRunsDecoded :
    (∀ w ∈ [0x1000080400040000, 0xFFFFFFFFFFFFFFFF], ∀ t ∈ enabled (placed (BitVec.ofNat 64 w)),
      (fetchedBy t (placed (BitVec.ofNat 64 w))).cur = .wave 0 0 0 ∧ (fetchedBy t (placed (BitVec.ofNat 64 w))).ir = BitVec.ofNat 64 w) ∧
    (enabled (placed 0)).length = 1 ∧ (decode 0x1000080400040000).toOption.isSome = true ∧ (decode 0xFFFFFFFFFFFFFFFF).toOption = none := by
  decide +kernel

theorem witness_StepKeepsInv : inv (placed 0x1000080400040000) = true ∧ enabled (placed 0x1000080400040000) ≠ [] := by decide +kernel

theorem witness_Registers : waveState.cur = .wave 0 0 0 ∧ waveState.paired = false ∧ waveState.curWave.failed = [] ∧ inv waveState = true ∧
    (List.range 32).Nodup ∧ ((List.range 32).all fun l => decide (l < 32)) = true ∧ (319 : Nat) < 320 := by decide +kernel

theorem witness_Retires : (∀ sh ∈ (shapeOf (.mov .none 4 6)).toList, channelsOf sh.srcs = [] ∧ (sh.srcs.all fun r => r.1 != 359) = true) ∧
    (shapeOf (.mov .none 4 6)).isSome = true ∧ waveState.paired = false ∧ waveState.curWave.block = none ∧ inv waveState = true ∧
    inv climberState = true ∧ climberState.cur = .climber 0 0 := by decide +kernel

/-! Decoding: words as the spec assembles them, in its examples and its programs (R15-R23 and the chapter of each). -/

theorem test_decode_integers :
    decodeTableWord 64 0x1700096000000002 = some (.shli .none 2 4 352) ∧
    decodeTableWord 64 0x1000080400040000 = some (.addi .none 0x40000 4 4) ∧
    decodeTableWord 64 0x0100080503000200 = some (.addSatI32 .none 4 5 6) ∧
    decodeTableWord 64 0x0200100201800500 = some (.mulwN32 .none 8 2 3) ∧
    decodeTableWord 64 0x04000E010100C596 = some (.lop3 .none 150 7 1 2 3) ∧
    decodeTableWord 64 0x050012010100C500 = some (.fsl .none 9 1 2 3) ∧
    decodeTableWord 64 0x060014010100C800 = some (.bil3 .none 10 1 2 3) ∧
    decodeTableWord 64 0x0700120101020202 = some (.icmp .none .ltI .or false 9 1 2 8) ∧
    decodeTableWord 64 0x09000C010100C400 = some (.prm .none 6 1 2 3) ∧
    decodeTableWord 64 0x0A00080503000000 = some (.divI32 .none 4 5 6) ∧
    decodeTableWord 64 0x1500078000001234 = some (.movi .none 0x1234 3) ∧
    decodeTableWord 64 0x16000A0420000064 = some (.icmpi .none .ltI 100 5 4) ∧
    decodeTableWord 64 0x1C000C06FFFFFFF0 = some (.addi64 .none 0xFFFFFFF0 6 6) ∧
    decodeTableWord 64 0x0C00281003000009 = some (.mpadd .none 9 20 16 6) ∧
    decodeTableWord 64 0x0C00181400000400 = some (.mploc .none 12 20) ∧
    decodeTableWord 64 0x0600160B00000100 = some (.clz .none 11 11) ∧
    decodeTableWord 64 0x7300000C00000000 = some (.ret .none 0 12) ∧
    decodeTableWord 64 0x060009630000C500 = some (.bfxN32 .none 4 355 3) ∧
    decodeTableWord 64 0x4784002612010010 = some (.pst ⟨true, false, 1⟩ .n8 16 38 36) := by decide +kernel

theorem test_decode_local :
    decodeTableWord 64 0x4000100400040000 = some (.ld .none .w 0 8 4) ∧
    decodeTableWord 64 0x4100000404040000 = some (.st .none .w 0 4 8) ∧
    decodeTableWord 64 0x4200180A00040040 = some (.ldk .none .w 64 12 10) ∧
    decodeTableWord 64 0x4300120202840002 = some (.ldix .none .w 2 9 2 5) ∧
    decodeTableWord 64 0x44000A0203240008 = some (.atl .none .add 2 8 5 2 6) := by decide +kernel

theorem test_decode_pairs :
    decodeTableWord 64 0x8C0800C08C0900C0 = some (.pairWord ⟨.shl, 8, 1, true⟩ (some ⟨.shl, 9, 1, true⟩)) := by decide +kernel

theorem test_decode_control :
    decodeTableWord 64 0x7500000000000000 = some (.exit .none) ∧
    decodeTableWord 64 0x708C000000000810 = some (.br ⟨true, false, 3⟩ 8 1 false) ∧
    decodeTableWord 64 0x7100040000001000 = some (.call .none 16 0 false 2) ∧
    decodeTableWord 64 0x7200000600000000 = some (.jmpi .none 0 6) ∧
    decodeTableWord 64 0x7400000000000010 = some (.join 1) := by decide +kernel

theorem test_decode_subscriptions_and_leases :
    decodeTableWord 64 0x4B00061400000000 = some (.subs .none 3 20) ∧
    decodeTableWord 64 0x4800140400000000 = some (.lease .none 0 10 4) ∧
    decodeTableWord 64 0x49001C0000000000 = some (.lrel .none 14) := by decide +kernel

theorem test_decode_traffic :
    decodeTableWord 64 0x4A00000203040008 = some (.pub .none .w 8 2 6) ∧
    decodeTableWord 64 0x45000C0204540010 = some (.atm .none .w .add 5 16 6 2 8) ∧
    decodeTableWord 64 0x4600000404D4A008 = some (.red .none .w .faddF32 5 8 false 4 9) ∧
    decodeTableWord 64 0x5E00000000000205 = some (.fence .none 2 5) ∧
    decodeTableWord 64 0x5D00060A06038000 = some (.bind .none 3 10 12 14) ∧
    decodeTableWord 64 0x5C000A0200000005 = some (.rel .none 5 5 2) ∧
    decodeTableWord 64 0x5B000C0202000005 = some (.acq .none 5 6 2 4) := by decide +kernel

theorem test_decode_landings_and_copies :
    decodeTableWord 64 0x5000060A05800300 = some (.lndWait .none 3 10 11) ∧
    decodeTableWord 64 0x5300280403020100 = some (.cp .none true false 20 4 6 8) ∧
    decodeTableWord 64 0x58003C140C070000 = some (.twait .none 30 20 24 28) ∧
    decodeTableWord 64 0x5A00040000000004 = some (.cbarSync .none 4 2) ∧
    decodeTableWord 64 0x5A00181400000103 = some (.cbarMax .none 3 12 20) := by decide +kernel

theorem test_decode_lanes :
    decodeTableWord 64 0x300008050300030E = some (.shfl .none .xor 3 .wrap 4 5 6) ∧
    decodeTableWord 64 0x3100120300000300 = some (.ballot .none 9 3) ∧
    decodeTableWord 64 0x33000E0500000001 = some (.lscan .none .addI true 7 5) ∧
    decodeTableWord 64 0x3200140B00000800 = some (.lred .none .fadd 10 11) ∧
    decodeTableWord 64 0x3400040000000400 = some (.elect .none 2) := by decide +kernel

theorem test_decode_barriers :
    decodeTableWord 64 0x59000002C0000002 = some (.barSync 2 384) ∧
    decodeTableWord 64 0x59000A02C0000102 = some (.barArr 5 2 384) ∧
    decodeTableWord 64 0x5900000202800202 = some (.barWait 2 5) := by decide +kernel

theorem test_decode_floats :
    decodeTableWord 64 0x2000080503000045 = some (.fadd .none 69 4 5 6) ∧
    decodeTableWord 64 0x220010010100C000 = some (.ffma .none 0 8 1 2 3) ∧
    decodeTableWord 64 0x220010010100C308 = some (.fnms .none 8 8 1 2 3) ∧
    decodeTableWord 64 0x2400120101000200 = some (.fcmp .none .lt .none false 9 1 2 0) ∧
    decodeTableWord 64 0x26000C0201800000 = some (.fdiv .none 6 2 3) ∧
    decodeTableWord 64 0x2500080500000100 = some (.frsq .none 4 5) ∧
    decodeTableWord 64 0x2700140A06000100 = some (.fscl .none 10 10 12) ∧
    decodeTableWord 64 0x280008050301C900 = some (.hfma .none true 4 5 6 7) ∧
    decodeTableWord 64 0x2A00060700000400 = some (.cvt .none 4 0 3 7 0) ∧
    decodeTableWord 64 0x2B003E080F000200 = some (.qpk .none .e2m1 31 8 30) ∧
    decodeTableWord 64 0x2D003C1400000200 = some (.mxsc .none .e2m1 30 20) ∧
    decodeTableWord 64 0x2900141F0FE00800 = some (.dot .none .e2m1 10 31 31 384) := by decide +kernel

theorem test_decode_matrix :
    decodeTableWord 64 0x6200000402800203 = some (.mxl .none 2 true 1 4 5) ∧
    decodeTableWord 64 0x6300000804800100 = some (.mxg .none 1 8 9) ∧
    decodeTableWord 64 0x6400000C06800102 = some (.mma .none true false false true false false 12 13) ∧
    decodeTableWord 64 0x6500000C06850002 = some (.mxs .none 2 12 13 20) ∧
    decodeTableWord 64 0x6500500006838100 = some (.mxr .none 40 13 14) ∧
    decodeTableWord 64 0x6500000006800300 = some (.mxz .none 13) ∧
    decodeTableWord 64 0x6000000200000000 = some (.mxal .none 2) ∧
    decodeTableWord 64 0x6100000000000000 = some (.mxfr .none) ∧
    decodeTableWord 64 0x6500002806838200 = some (.mxw .none 40 13 14) ∧
    decodeTableWord 64 0x6600000000000000 = some (.turnTake .none) ∧
    decodeTableWord 64 0x6600000000000100 = some (.turnGive .none) ∧
    decodeTableWord 64 0x6600060000000200 = some (.turnWho .none 3) := by decide +kernel

theorem test_decode_rays :
    decodeTableWord 64 0x670020080C068000 = some (.climb .none 16 8 24 26) ∧
    decodeTableWord 64 0x6800000000000004 = some (.nbox .none 4) ∧
    decodeTableWord 64 0x6800000000000104 = some (.ntri .none 4) ∧
    decodeTableWord 64 0x6800000000000200 = some (.nlink .none) ∧
    decodeTableWord 64 0x6900000200000000 = some (.hop .none 2) ∧
    decodeTableWord 64 0x6AB0000000000000 = some (.cand ⟨true, false, 12⟩) ∧
    decodeTableWord 64 0x6A00000000000200 = some (.fin .none) := by decide +kernel

theorem test_decode_system :
    decodeTableWord 64 0x6D000C0A00000000 = some (.lnch .none 6 10) ∧
    decodeTableWord 64 0x6D000C0A00000100 = some (.lnchw .none 6 10) ∧
    decodeTableWord 64 0x5F00000600000000 = some (.slpUntil .none 6) ∧
    decodeTableWord 64 0x5F00000600000100 = some (.slpFor .none 6) ∧
    decodeTableWord 64 0x5F00000000000200 = some (.yield .none) ∧
    decodeTableWord 64 0x7800060000100000 = some (.csrRd .none 1 3) ∧
    decodeTableWord 64 0x7803000400130000 = some (.csrClr .none 1 384 4) ∧
    decodeTableWord 64 0x78000E0200210000 = some (.csrWr .none 2 7 2) ∧
    decodeTableWord 64 0x7B00000000001500 = some (.mark .none 21) ∧
    decodeTableWord 64 0x7600000000004200 = some (.trap .none 66) ∧
    decodeTableWord 64 0x7700000000000700 = some (.brk .none 7) ∧
    decodeTableWord 64 0x7900000000000000 = some (.eret) ∧
    decodeTableWord 64 0x7A00000000000000 = some (.nop .none) ∧
    decodeTableWord 64 0x7D000A0800000000 = some (.ctxsv .none 5 8) ∧
    decodeTableWord 64 0x7D000A0800000001 = some (.ctxld .none 5 8) ∧
    decodeTableWord 64 0x7E00000000000000 = some (.halt .none) ∧
    decodeTableWord 64 0x7E00000000000001 = some (.haltAll .none) ∧
    decodeTableWord 64 0x7C000A0800000000 = some (.tlbi .none false 5 8) ∧
    decodeTableWord 64 0x6E00060400000000 = some (.pair .none 3 4) ∧
    decodeTableWord 64 0x6E00060000000100 = some (.unpair .none 3) ∧
    decodeTableWord 64 0x6E000C0000000200 = some (.fpck .none 6) ∧
    decodeTableWord 64 0x7803000D06020000 = some (.csrSet .none 96 384 13) := by decide +kernel

theorem test_decode_graphs :
    decodeTableWord 64 0x6B00080203000200 = some (.graphRsv .none false 4 2 6 0) ∧
    decodeTableWord 64 0x6B00060204000000 = some (.emit .none 3 2 8) ∧
    decodeTableWord 64 0x6B00060204014100 = some (.emith .none 3 2 8 5) ∧
    decodeTableWord 64 0x6B00000200000300 = some (.gdone .none 2) ∧
    decodeTableWord 64 0x6C00100000000000 = some (.take .none 8) ∧
    decodeTableWord 64 0x5200060402800000 = some (.cntInit .none 3 4 5) ∧
    decodeTableWord 64 0x5200000402800100 = some (.cntDec .none 4 5) ∧
    decodeTableWord 64 0x5200000403000200 = some (.cntRdec .none 4 6) ∧
    decodeTableWord 64 0x52000E0400000300 = some (.cntRd .none 7 4) := by decide +kernel

/-! Well-formedness: one ill-formed term for each check of R1 and R18-R34. -/

theorem test_wellFormed_registers : ∀ i ∈ [Instr.nop ⟨false, true, 0⟩, .nop ⟨false, false, 1⟩, .mov .none 352 0, .mov .none 340 0, .mov .none 0 340,
    .mov .none 0 379, .mov64 .none 1 2, .mov64 .none 2 320, .add .none 0 320 320, .ld .none .w 0 320 0, .ld .none .w 0 0 320,
    .ld .none .d 0 1 0, .st .none .q 0 0 2, .st .none .w 0 0 320, .jmpi .none 0 384, .call .none 0 0 false 352, .take .none 2,
    .mxr .none 4 0 0, .graphRsv .none false 0 0 0 1], i.wf = false := by decide

theorem test_wellFormed_fields : ∀ i ∈ [Instr.icmp .none .eq .and true 32 0 0 0, .icmp .none .eq .none false 0 0 0 1, .fcmp .none .eq .and true 0 0 0 32,
    .mpadd .none 4 0 2 0, .mpadd .none 22 0 2 0, .cvt .none 27 0 0 0 0, .cvt .none 0 1 0 0 0, .cvt .none 0 0 0 0 1, .mxsc .none .i8 0 0,
    .shfl .none .idx 6 .own 0 0 0, .atl .none .faddBf16 0 0 0 0 0, .atm .none .w .minN64 0 0 0 0 0, .red .none .w .cas 0 0 false 0 0,
    .pub .none .i8 0 0 0, .cp .none false false 0 2 4 319, .cpg .none 3 0 0 2 0, .cbarSync .none 2 0, .cbarMax .none 6 0 0, .fence .none 0 0,
    .mxl .none 0 true 0 0 0, .mxl .none 4 false 1 0 0, .mma .none false false false false false true 0 0, .mxs .none 6 0 0 0,
    .csrRd .none 0x00C 0, .csrWr .none 0x000 0 0, .pairWord ⟨.add, 1, 0, false⟩ none, .pairWord ⟨.add, 0, 0, false⟩ (some ⟨.add, 2, 0, false⟩),
    .pairWord ⟨.add, 0, 320, false⟩ none], i.wf = false := by decide

end Sys2Proof.Tests
end

section
/-! The integer family: the values of R179-R182 as integers, and the words of R179-R182, R188 and R193. -/

namespace Sys2Proof.Machine

/-! A form whose meaning is lanewise, with its value said in another way. -/

theorem lanes_of_lanewise {i : Instr} {s : State} {g : Guard} {d : RegNo} {F : State → Nat → Word} {f : Nat → Word}
    (he : exec i s = lanewise i g d F s) (hf : ∀ l, F s l = f l) : Lanes i s g d f := by
  intro h
  have hF : F s = f := funext hf
  rw [Completes, he, lanewise_next g d F h, hF]

theorem lanes64_of_lanewise64 {i : Instr} {s : State} {g : Guard} {d : RegNo} {F : State → Nat → DWord} {f : Nat → DWord}
    (he : exec i s = lanewise64 i g d F s) (hf : ∀ l, F s l = f l) : Lanes64 i s g d f := by
  intro h
  have hF : F s = f := funext hf
  rw [Completes, he, lanewise64_next g d F h, hF]

/-! R179: saturation. -/

/-- A natural saturated to n32. -/
theorem satN32_natCast (n : Nat) : satN32 n = BitVec.ofNat 32 (min n 4294967295) := by
  have h : max 0 (min (n : Int) (2 ^ 32 - 1)) = (min n 4294967295 : Nat) := by omega
  rw [satN32, h, BitVec.ofInt_natCast]

/-- The difference of two words saturated to n32 is the truncated difference. -/
theorem satN32_sub (a b : Word) : satN32 ((a.toNat : Int) - b.toNat) = BitVec.ofNat 32 (a.toNat - b.toNat) := by
  have ha := a.isLt
  have h : max 0 (min ((a.toNat : Int) - b.toNat) (2 ^ 32 - 1)) = (a.toNat - b.toNat : Nat) := by omega
  rw [satN32, h, BitVec.ofInt_natCast]

/-! R180: products. -/

/-- The upper half of the exact product. -/
theorem mulwN_high (a b : Word) : (mulwN a b >>> 32).setWidth 32 = BitVec.ofNat 32 (a.toNat * b.toNat / 2 ^ 32) := by
  have h : a.toNat * b.toNat < 2 ^ 64 := Nat.lt_of_lt_of_eq (Nat.mul_lt_mul'' a.isLt b.isLt) (by decide)
  apply BitVec.eq_of_toNat_eq
  rw [mulwN, BitVec.toNat_setWidth, BitVec.toNat_ushiftRight, BitVec.toNat_ofNat, BitVec.toNat_ofNat, Nat.mod_eq_of_lt h,
    Nat.shiftRight_eq_div_pow]

/-! R181: minima, maxima, absolute value and differences. -/

theorem minI_eq (a b : Word) : minI a b = BitVec.ofInt 32 (min a.toInt b.toInt) := by
  rw [minI, Int.min_def]
  simp only [BitVec.sle_iff_toInt_le]
  split <;> exact BitVec.ofInt_toInt.symm

theorem maxI_eq (a b : Word) : maxI a b = BitVec.ofInt 32 (max a.toInt b.toInt) := by
  rw [maxI, Int.max_def]
  simp only [BitVec.sle_iff_toInt_le]
  split <;> exact BitVec.ofInt_toInt.symm

theorem minN_eq (a b : Word) : minN a b = BitVec.ofNat 32 (min a.toNat b.toNat) := by
  rw [minN, Nat.min_def]
  simp only [BitVec.ule_iff_toNat_le]
  split <;> rw [BitVec.ofNat_toNat, BitVec.setWidth_eq]

theorem maxN_eq (a b : Word) : maxN a b = BitVec.ofNat 32 (max a.toNat b.toNat) := by
  rw [maxN, Nat.max_def]
  simp only [BitVec.ule_iff_toNat_le]
  split <;> rw [BitVec.ofNat_toNat, BitVec.setWidth_eq]

/-- `neg` as the subtraction that R181 writes. -/
theorem neg_eq_zero_minus (a : Word) : -a = 0 - a := (BitVec.zero_sub a).symm

theorem absW_eq (a : Word) : absW a = if a.toInt < 0 then 0 - a else a := by
  simp only [absW, BitVec.msb_eq_toInt, decide_eq_true_eq, neg_eq_zero_minus]

theorem absDiff_eq_natAbs (m n : Nat) : absDiff m n = ((m : Int) - n).natAbs := by
  unfold absDiff; omega

theorem sadN_eq (a b c : Word) :
    sadN a b c = BitVec.ofNat 32 (((a.toNat : Int) - b.toNat).natAbs + c.toNat) := by
  rw [sadN, absDiff_eq_natAbs]

/-! R182: complemented operands, bit by bit. -/

theorem getLsbD_andn (a b : Word) {j : Nat} (hj : j < 32) : (a &&& ~~~b).getLsbD j = (a.getLsbD j && !b.getLsbD j) := by
  simp only [BitVec.getLsbD_and, BitVec.getLsbD_not, hj, decide_true, Bool.true_and]

theorem getLsbD_orn (a b : Word) {j : Nat} (hj : j < 32) : (a ||| ~~~b).getLsbD j = (a.getLsbD j || !b.getLsbD j) := by
  simp only [BitVec.getLsbD_or, BitVec.getLsbD_not, hj, decide_true, Bool.true_and]

/-- R187, `ne`; the other conditions compute to their comparisons. -/
theorem condHolds_ne (a b : Word) : condHolds .ne a b = decide (a ≠ b) := by
  rw [decide_not]; rfl

end Sys2Proof.Machine

namespace Sys2Proof

/-! The upper fields of a single word (R16). -/

theorem Guard.bits_lt (g : Guard) : g.bits < 64 := by
  have he := g.en.toNat_le
  have hn := g.neg.toNat_le
  have hr := g.reg.isLt
  unfold Guard.bits
  omega

theorem single_lt {maj low : Nat} (g : Guard) (d a : RegNo) (hm : maj < 128) (hl : low < 2 ^ 32) :
    single maj g d.toNat a.toNat low < 2 ^ 63 := by
  have hg := g.bits_lt
  have hd := d.isLt
  have ha := a.isLt
  unfold single
  omega

theorem fieldsOf_single_maj {maj low : Nat} (g : Guard) (d a : RegNo) (hm : maj < 128) (hl : low < 2 ^ 32) :
    (fieldsOf (single maj g d.toNat a.toNat low)).maj = maj := by
  have hg := g.bits_lt
  have hd := d.isLt
  have ha := a.isLt
  show single maj g d.toNat a.toNat low / 2 ^ 56 % 2 ^ 7 = maj
  unfold single
  omega

theorem single_mod_low (maj : Nat) (g : Guard) (d a : Nat) {low : Nat} (hl : low < 2 ^ 32) :
    single maj g d a low % 2 ^ 32 = low := by
  unfold single
  omega

/-! Words that the decoder rejects. -/

/-- A word below 2^63 is rejected where what its MAJ and SUB name encodes to another word. -/
theorem decodeNat_illegalInstr {w : Nat} {i : Instr} (hw : w < 2 ^ 63) (hb : (fieldsOf w).build = some i)
    (he : i.encodeNat ≠ some w) : decodeNat w = .error .illegalInstr := by
  have h63 : w / 2 ^ 63 ≠ 1 := by omega
  have hr : readWord w = some i := by rw [readWord, if_neg h63, hb]
  have hne : (i.encodeNat == some w) = false := beq_false_of_ne he
  simp only [decodeNat, hr, hne, Bool.and_false, decodeErrorOf, if_neg h63]
  rfl

theorem build_icmpi {f : Fields} (h : f.maj = 0x16) :
    f.build = some (.icmpi f.guard (Cond.ofCode (f.low / 2 ^ 28)) (BitVec.ofNat 28 f.low) f.d f.a) := by
  rw [Fields.build, h]
  rfl

theorem Cond.code_lt (c : Cond) : c.code < 10 := by
  cases c <;> decide

/-- Every `icmpi` has a condition code below 10 in bits [31:28] of its word. -/
theorem icmpi_encodeNat_low (g : Guard) (cond : Cond) (imm : BitVec 28) (d a : RegNo) {w : Nat}
    (h : (Instr.icmpi g cond imm d a).encodeNat = some w) : w % 2 ^ 32 < 10 * 2 ^ 28 := by
  have hc := cond.code_lt
  have hi := imm.isLt
  obtain rfl : single 0x16 g d.toNat a.toNat (cond.code * 2 ^ 28 + imm.toNat) = w := Option.some.inj h
  rw [single_mod_low _ _ _ _ (by omega)]
  omega

/-- R193: condition codes 10 to 15 of `icmpi` are no instruction. -/
theorem decode_icmpi_reserved (g : Guard) (d a : RegNo) (imm : BitVec 28) {k : Nat} (hk : 10 ≤ k) (hk' : k < 16) :
    decode (BitVec.ofNat 64 (single 0x16 g d.toNat a.toNat (k * 2 ^ 28 + imm.toNat))) = .error .illegalInstr := by
  have hi := imm.isLt
  have hlow : k * 2 ^ 28 + imm.toNat < 2 ^ 32 := by omega
  have hlt := single_lt g d a (by decide : 0x16 < 128) hlow
  rw [decode, BitVec.toNat_ofNat, Nat.mod_eq_of_lt (by omega)]
  refine decodeNat_illegalInstr hlt (build_icmpi (fieldsOf_single_maj g d a (by decide) hlow)) fun he => ?_
  have hc := icmpi_encodeNat_low _ _ _ _ _ he
  rw [single_mod_low _ _ _ _ hlow] at hc
  omega

end Sys2Proof

namespace Sys2Proof.Machine

/-- Settles O1: each form's arm is lanewise; where the model computes its value another way, the lemma beside the arm says
it is the stated one. -/
theorem integerArithmetic : Obligations.IntegerArithmetic := by
  unfold Obligations.IntegerArithmetic
  intro g d a b c tt s
  exact ⟨
    -- R179
    ⟨lanes_of_lanewise (exec_add ..) fun _ => rfl, rfl⟩,
    ⟨lanes_of_lanewise (exec_sub ..) fun _ => rfl, rfl⟩,
    ⟨lanes_of_lanewise (exec_addSatI32 ..) fun _ => rfl, rfl⟩,
    ⟨lanes_of_lanewise (exec_subSatI32 ..) fun _ => rfl, rfl⟩,
    ⟨lanes_of_lanewise (exec_addSatN32 ..) fun _ => satN32_natCast _, rfl⟩,
    ⟨lanes_of_lanewise (exec_subSatN32 ..) fun _ => satN32_sub _ _, rfl⟩,
    ⟨lanes_of_lanewise (exec_addCy ..) fun _ => rfl, rfl⟩,
    ⟨lanes_of_lanewise (exec_cy ..) fun _ => rfl, rfl⟩,
    ⟨lanes64_of_lanewise64 (exec_add64 ..) fun _ => rfl, rfl⟩,
    ⟨lanes64_of_lanewise64 (exec_sub64 ..) fun _ => rfl, rfl⟩,
    -- R180
    ⟨lanes_of_lanewise (exec_mul ..) fun _ => rfl, rfl⟩,
    ⟨lanes_of_lanewise (exec_mulhI32 ..) fun _ => rfl, rfl⟩,
    ⟨lanes_of_lanewise (exec_mulhN32 ..) fun _ => mulwN_high _ _, rfl⟩,
    ⟨lanes_of_lanewise (exec_mad ..) fun _ => rfl, rfl⟩,
    ⟨lanes64_of_lanewise64 (exec_mulwI32 ..) fun _ => rfl, rfl⟩,
    ⟨lanes64_of_lanewise64 (exec_mulwN32 ..) fun _ => rfl, rfl⟩,
    ⟨lanes64_of_lanewise64 (exec_madwN32 ..) fun _ => rfl, rfl⟩,
    ⟨lanes64_of_lanewise64 (exec_madwI32 ..) fun _ => rfl, rfl⟩,
    -- R181
    ⟨lanes_of_lanewise (exec_minI32 ..) fun _ => minI_eq _ _, rfl⟩,
    ⟨lanes_of_lanewise (exec_maxI32 ..) fun _ => maxI_eq _ _, rfl⟩,
    ⟨lanes_of_lanewise (exec_minN32 ..) fun _ => minN_eq _ _, rfl⟩,
    ⟨lanes_of_lanewise (exec_maxN32 ..) fun _ => maxN_eq _ _, rfl⟩,
    ⟨lanes_of_lanewise (exec_abs ..) fun _ => absW_eq _, rfl⟩,
    ⟨lanes_of_lanewise (exec_neg ..) fun _ => neg_eq_zero_minus _, rfl⟩,
    ⟨lanes_of_lanewise (exec_sad ..) fun _ => rfl, rfl⟩,
    ⟨lanes_of_lanewise (exec_sadN32 ..) fun _ => sadN_eq _ _ _, rfl⟩,
    -- R182
    ⟨⟨_, lanes_of_lanewise (exec_and ..) fun _ => rfl, fun _ _ _ => BitVec.getLsbD_and⟩, rfl⟩,
    ⟨⟨_, lanes_of_lanewise (exec_or ..) fun _ => rfl, fun _ _ _ => BitVec.getLsbD_or⟩, rfl⟩,
    ⟨⟨_, lanes_of_lanewise (exec_xor ..) fun _ => rfl, fun _ _ _ => BitVec.getLsbD_xor⟩, rfl⟩,
    ⟨⟨_, lanes_of_lanewise (exec_andn ..) fun _ => rfl, fun _ _ hj => getLsbD_andn _ _ hj⟩, rfl⟩,
    ⟨⟨_, lanes_of_lanewise (exec_orn ..) fun _ => rfl, fun _ _ hj => getLsbD_orn _ _ hj⟩, rfl⟩,
    ⟨⟨_, lanes_of_lanewise (exec_lop3 ..) fun _ => rfl, fun _ _ hj => maskOf_getLsbD _ _ hj⟩, rfl⟩⟩

/-- Settles O4: `icmpi` by cases on its condition; the reserved codes by `decode_icmpi_reserved`. -/
theorem selectionAndImmediateCompares : Obligations.SelectionAndImmediateCompares := by
  unfold Obligations.SelectionAndImmediateCompares
  intro g cond imm d a b c s A B C I holds code word
  have hholds : ∀ x, condHolds cond x I = holds x := by
    intro x
    cases cond
    case ne => exact condHolds_ne x I
    all_goals rfl
  have hcode : cond.code = code := by cases cond <;> rfl
  refine ⟨lanes_of_lanewise (exec_sel ..) fun _ => rfl, rfl, lanes_of_lanewise (exec_icmpi ..) fun l => ?_, ?_,
    fun k hk hk' => decode_icmpi_reserved g d a imm hk hk'⟩
  · show boolW (condHolds cond (A l) I) = if holds (A l) then 0xFFFFFFFF else 0
    rw [hholds, boolW]
  · show some (word cond.code) = some (word code)
    rw [hcode]

end Sys2Proof.Machine
end

section
/-! `hop` (R290). -/

namespace Sys2Proof.Machine

/-! What holds an instruction, from the first of its checks. -/

/-- The checks of the word come first. -/
theorem hold_of_checkWord {i : Instr} {sh : Shape} {s : State} {e : Exec} (hsh : shapeOf i = some sh)
    (he : checkWord i sh s = some e) : hold i s = some e := by
  simp only [hold, hsh, he]

theorem checkWord_of_hold_none {i : Instr} {sh : Shape} {s : State} (hsh : shapeOf i = some sh) (h : hold i s = none) :
    checkWord i sh s = none := by
  cases he : checkWord i sh s with
  | none => rfl
  | some e => rw [hold_of_checkWord hsh he] at h; cases h

theorem checkWord_of_illegalHere {i : Instr} {sh : Shape} {s : State} (h : illegalHere i sh s = true) :
    checkWord i sh s = some (.trap 0x01 s.ir s) := if_pos h

theorem registersOk_of_checkWord_none {i : Instr} {sh : Shape} {s : State} (h : checkWord i sh s = none) :
    registersOk sh s = true := by
  cases hr : registersOk sh s with
  | true => rfl
  | false =>
    simp only [checkWord, hr, Bool.not_false, if_true] at h
    split at h
    · cases h
    · split at h <;> cases h

/-- R32: a major opcode that waves may not execute. -/
theorem illegalHere_of_not_waveMay {i : Instr} {sh : Shape} {s : State} (hc : s.cur.isClimber = false)
    (hm : waveMay sh.maj = false) : illegalHere i sh s = true := by
  simp [illegalHere, hc, hm]

/-! How the instruction of a climber ends: it names no channel, and parks nowhere. -/

/-- R25: a channel register is none of a climber's. -/
theorem channelsOf_srcs_of_climberRegsOk {sh : Shape} (h : climberRegsOk sh = true) : channelsOf sh.srcs = [] := by
  simp only [channelsOf, List.filter_eq_nil_iff, List.forall_mem_map]
  intro rn hrn
  have hreg := List.all_eq_true.mp h rn (List.mem_append_left _ hrn)
  simp only [Bool.or_eq_true, Bool.and_eq_true, decide_eq_true_eq, beq_iff_eq] at hreg
  simp only [isChannelNo, Bool.and_eq_true, decide_eq_true_eq]
  omega

theorem keepWords_of_no_channels {sh : Shape} (h : channelsOf sh.srcs = []) (s : State) : keepWords sh s = s := by
  rw [keepWords, h]
  rfl

theorem park_climber {s : State} (h : s.cur.isClimber = true) (why : Nat) : park why s = s := by
  cases hc : s.cur with
  | wave c w p => rw [hc] at h; cases h
  | _ => simp only [park, hc]

/-- A climber's instruction that waits leaves what its meaning did, and nothing else. -/
theorem finish_wait_climber {i : Instr} {s t : State} (hi : Issues i s) (hs : s.cur.isClimber = true)
    (ht : t.cur.isClimber = true) (hsh : (shapeOf i).isSome = true) (why : Nat) : finish i s (.wait why t) = t := by
  obtain ⟨sh, hsh⟩ := Option.isSome_iff_exists.mp hsh
  have hregs := registersOk_of_checkWord_none (checkWord_of_hold_none hsh hi.2)
  rw [registersOk, if_pos hs] at hregs
  have hkeep := keepWords_of_no_channels (channelsOf_srcs_of_climberRegsOk hregs) t
  simp only [finish, hsh, hkeep, ite_self, park_climber ht]

/-! The frame of a departure (R289). -/

@[simp] theorem State.setCpc_cur (s : State) (c k : Nat) (v : Word) : (s.setCpc c k v).cur = s.cur := rfl

@[simp] theorem freeClimber_cur (s : State) (c k : Nat) : (freeClimber s c k).cur = s.cur := rfl

@[simp] theorem migrate_cur (lcore : Nat) (pc : Word) (s : State) : (migrate lcore pc s).cur = s.cur := by
  simp only [migrate, State.updCore_cur, freeClimber_cur, State.postAll_cur, State.setCpc_cur]

/-! `hop`. -/

section
variable {g : Guard} {a : RegNo} {s : State}

/-- R32: a wave may not execute it. -/
theorem hold_hop_of_not_climber (hc : s.cur.isClimber = false) : hold (.hop g a) s = some (.trap 0x01 s.ir s) :=
  hold_of_checkWord rfl (checkWord_of_illegalHere (illegalHere_of_not_waveMay hc rfl))

/-- The core word names a core of the frame. -/
theorem exec_hop_of_frameOf {d : Nat} (hi : Issues (.hop g a) s) (hx : (src s a.toNat 0).toNat < 2 ^ 27)
    (hd : s.frameOf s.curLid (src s a.toNat 0).toNat = some d) :
    exec (.hop g a) s = .next (finish (.hop g a) s (if d = s.curCore then .done s else if !settledHere s then .wait 0 s
      else .wait 0 (migrate (src s a.toNat 0).toNat (s.curPc + 8) s))) := by
  rw [exec_hop, execHop, issue_next _ hi]
  simp only [if_neg (Nat.not_le.mpr hx), hd]

theorem completes_hop_own_core (hi : Issues (.hop g a) s) (hx : (src s a.toNat 0).toNat < 2 ^ 27)
    (hd : s.frameOf s.curLid (src s a.toNat 0).toNat = some s.curCore) : Completes (.hop g a) s s := by
  rw [Completes, exec_hop_of_frameOf hi hx hd, if_pos rfl]

/-- To another core: the climber leaves when it is settled, and stays as it is until then. -/
theorem happens_hop_other_core {d : Nat} (hc : s.cur.isClimber = true) (hi : Issues (.hop g a) s)
    (hx : (src s a.toNat 0).toNat < 2 ^ 27) (hd : s.frameOf s.curLid (src s a.toNat 0).toNat = some d) (hne : d ≠ s.curCore) :
    Happens (.hop g a) s (if settledHere s then migrate (src s a.toNat 0).toNat (s.curPc + 8) s else s) := by
  rw [Happens, exec_hop_of_frameOf hi hx hd, if_neg hne]
  cases hset : settledHere s with
  | false => exact congrArg _ (finish_wait_climber hi hc hc rfl 0)
  | true => exact congrArg _ (finish_wait_climber hi hc (by rwa [migrate_cur]) rfl 0)

theorem traps_hop_bad_pointer (hi : Issues (.hop g a) s)
    (hx : 2 ^ 27 ≤ (src s a.toNat 0).toNat ∨ s.frameOf s.curLid (src s a.toNat 0).toNat = none) :
    Traps (.hop g a) s 0x17 ((src s a.toNat 0).setWidth 64) := by
  have hnone : (if 2 ^ 27 ≤ (src s a.toNat 0).toNat then none else s.frameOf s.curLid (src s a.toNat 0).toNat) = none :=
    ite_eq_left_iff.mpr fun hlt => hx.resolve_left hlt
  rw [Traps, exec_hop, execHop, issue_next _ hi]
  simp only [hnone]
  rfl

end

/-- `hop c2`, as R290 assembles it. -/
theorem decode_hop_c2 : decode 0x6900000200000000 = .ok (.hop .none 2) := rfl

end Sys2Proof.Machine

namespace Sys2Proof.Climbers

open Sys2Proof.Machine

/-- Settles O35: in a wave the word itself is refused; in a climber, by the core that the word of A names. -/
theorem hops : Obligations.Hops := by
  unfold Obligations.Hops
  intro g a c k dest s i x
  refine ⟨rfl, decode_hop_c2, hold_hop_of_not_climber, fun hcur => ?_⟩
  have hcore : s.curCore = c := by rw [State.curCore, hcur]; rfl
  have hclimber : s.cur.isClimber = true := by rw [hcur]; rfl
  subst hcore
  refine ⟨completes_hop_own_core, fun hi hx hd hne hset => ?_, fun hi hx hd hne hset => ?_, traps_hop_bad_pointer⟩
  · simpa only [hset, if_true] using happens_hop_other_core hclimber hi hx hd hne
  · simpa only [hset, Bool.false_eq_true, if_false] using happens_hop_other_core hclimber hi hx hd hne

end Sys2Proof.Climbers
end
